-- ==== Sys2Proof/Word.lean ====
section
/-! DEFINITION. The word types of the machine. -/

namespace Sys2Proof

/-- A byte of memory. -/
abbrev Byte := BitVec 8

/-- A lane or uniform register, an instruction word, a device register. -/
abbrev Word32 := BitVec 32

/-- An address or a 64-bit register. -/
abbrev Word64 := BitVec 64

end Sys2Proof
end

