-- ==== Sys2Proof/Syntax.lean ====
section
/-! DEFINITION. The abstract syntax of the Juosh J96 (Mbothen 1.0): one constructor for every row of
spec/opcode_table.json. A word row carries the fields of its 32-bit word, most significant field
first; an event row carries what its step is about (an identifier, a unit, or data from outside). -/

namespace Sys2Proof

/-- An image that a boot stage verifies before it runs (R346): its bytes, the digest, version and signature of its
header, and the public key that the signature is verified against. -/
structure BootImage where
  image     : List (BitVec 8)
  digest    : BitVec 512
  version   : BitVec 32
  signature : List (BitVec 8)
  key       : List (BitVec 8)
  deriving DecidableEq, Repr

/-- One host access to BAR0 (R330, R331): whether it is a read, the AQI and the kind that its offset names, its size,
whether it is aligned to 64 bytes, its PASID prefix if it has one, and its bytes. -/
structure NotifyWrite where
  read    : Bool
  aqi     : Nat
  kind    : Nat
  size    : Nat
  aligned : Bool
  pasid   : Option (BitVec 20)
  bytes   : List (BitVec 8)
  deriving DecidableEq, Repr

/-- A 64-byte fabric flit (R323). -/
structure Flit where
  seq     : BitVec 12
  kind    : BitVec 2
  ackseq  : BitVec 12
  nak     : Bool
  vc      : BitVec 2
  last    : Bool
  payload : List (BitVec 8)
  crc     : BitVec 32
  deriving DecidableEq, Repr

/-- A host-window access or an interrupt message that another device sends to the bridge
(R333, R334). -/
inductive BridgeRequest where
  | write (tenant : Nat) (addr : Nat) (data : List (BitVec 8))
  | read  (tenant : Nat) (addr : Nat) (bytes : Nat)
  | msix  (vec : Nat) (pasid : BitVec 20)
  deriving DecidableEq, Repr

/-- What a packet of the fabric's transaction layer asks for (R235, R326, R328): the operations of FAB, a replicated
launch and its READY, GO and DROP (R290), and what goes to the bridge (R333, R334). -/
inductive FabBody where
  | put    (va : Nat) (data : List (BitVec 8))
  | get    (va : Nat) (bytes : Nat)
  | lsend  (packet : List (BitVec 8))
  | launch (packet : List (BitVec 8))
  | ready  (gen : BitVec 32) (accept : Bool)
  | go     (gen : BitVec 32)
  | drop   (gen : BitVec 32)
  | bridge (r : BridgeRequest)
  deriving DecidableEq, Repr

/-- A packet that is numbered: destination device (R327), source device and tenant, its packet number (R326), and
what it asks for. -/
structure FabPacket where
  dest   : Nat
  src    : Nat
  tenant : Nat
  num    : Nat
  body   : FabBody
  deriving DecidableEq, Repr

/-- The name of a packet at its receiver (R326): the device it comes from and its number. -/
structure PacketName where
  src : Nat
  num : Nat
  deriving DecidableEq, Repr

/-- The two ends of an answer of the transaction layer (R326, R327): the device it is for and the one that answers. -/
structure AnswerRoute where
  dest   : Nat
  source : Nat
  deriving DecidableEq, Repr

/-- A packet of another device for the bridge (R333, R334). -/
structure BridgePacket where
  name : PacketName
  req  : BridgeRequest
  deriving DecidableEq, Repr

/-- A PMBus transfer's address and command code (R341). -/
structure PmbusCommand where
  addr : BitVec 7
  cmd  : BitVec 8
  deriving DecidableEq, Repr

/-- Where a launch packet is read from (R353): a read that is waiting in the Hall, by its place in
the list of waiting reads, or a packet of the Parlour's own launches (R292) at an address of
tenant 0. -/
inductive PacketSource where
  | pending (index : Nat)
  | parlour (va : Nat)
  deriving DecidableEq, Repr

/-- The instructions and events of the machine, one constructor per row of the opcode table: the words
first, in the table's order, then the events (the compiler builds no constructor with arguments
beyond the 245th, and no definition of the model builds an event that stands there). -/
inductive Instr where
  /-- MOD (R90): Prefix word that supplies vc, the trap-on-empty bits, a uniform operand and xmod to the lane instruction after it. -/
  | mod (vc : BitVec 7) (tea : BitVec 1) (teb : BitVec 1) (tec : BitVec 1) (us : BitVec 1) (sidx : BitVec 8) (xmod : BitVec 4)
  /-- LIMM (R92): Prefix word that supplies bits [31:9] of a 32-bit immediate to an ADDI or a MOVI. -/
  | limm (imm : BitVec 23)
  /-- ADD (R121): vd gets va + vb. -/
  | add (tc : BitVec 2) (vd : BitVec 7) (va : BitVec 7) (vb : BitVec 7)
  /-- SUB (R121): vd gets va - vb. -/
  | sub (tc : BitVec 2) (vd : BitVec 7) (va : BitVec 7) (vb : BitVec 7)
  /-- MIN (R121): vd gets the signed minimum of va and vb. -/
  | min (tc : BitVec 2) (vd : BitVec 7) (va : BitVec 7) (vb : BitVec 7)
  /-- MAX (R121): vd gets the signed maximum of va and vb. -/
  | max (tc : BitVec 2) (vd : BitVec 7) (va : BitVec 7) (vb : BitVec 7)
  /-- MINU (R121): vd gets the unsigned minimum of va and vb. -/
  | minu (tc : BitVec 2) (vd : BitVec 7) (va : BitVec 7) (vb : BitVec 7)
  /-- MAXU (R121): vd gets the unsigned maximum of va and vb. -/
  | maxu (tc : BitVec 2) (vd : BitVec 7) (va : BitVec 7) (vb : BitVec 7)
  /-- ABSD (R121): vd gets the absolute signed difference of va and vb. -/
  | absd (tc : BitVec 2) (vd : BitVec 7) (va : BitVec 7) (vb : BitVec 7)
  /-- ADDSAT (R121): vd gets the saturated signed sum of va and vb. -/
  | addsat (tc : BitVec 2) (vd : BitVec 7) (va : BitVec 7) (vb : BitVec 7)
  /-- AND (R121): vd gets va AND vb. -/
  | and (tc : BitVec 2) (vd : BitVec 7) (va : BitVec 7) (vb : BitVec 7)
  /-- OR (R121): vd gets va OR vb. -/
  | or (tc : BitVec 2) (vd : BitVec 7) (va : BitVec 7) (vb : BitVec 7)
  /-- XOR (R121): vd gets va XOR vb. -/
  | xor (tc : BitVec 2) (vd : BitVec 7) (va : BitVec 7) (vb : BitVec 7)
  /-- ANDN (R121): vd gets va AND NOT vb. -/
  | andn (tc : BitVec 2) (vd : BitVec 7) (va : BitVec 7) (vb : BitVec 7)
  /-- SHL (R121): vd gets va shifted left by vb[4:0]. -/
  | shl (tc : BitVec 2) (vd : BitVec 7) (va : BitVec 7) (vb : BitVec 7)
  /-- SHR (R121): vd gets va shifted logically right by vb[4:0]. -/
  | shr (tc : BitVec 2) (vd : BitVec 7) (va : BitVec 7) (vb : BitVec 7)
  /-- SAR (R121): vd gets va shifted arithmetically right by vb[4:0]. -/
  | sar (tc : BitVec 2) (vd : BitVec 7) (va : BitVec 7) (vb : BitVec 7)
  /-- ROR (R121): vd gets va rotated right by vb[4:0]. -/
  | ror (tc : BitVec 2) (vd : BitVec 7) (va : BitVec 7) (vb : BitVec 7)
  /-- MUL (R123): vd gets the low 32 bits of va x vb. -/
  | mul (tc : BitVec 2) (vd : BitVec 7) (va : BitVec 7) (vb : BitVec 7)
  /-- MULHI (R123): vd gets the high word of the signed product of va and vb. -/
  | mulhi (tc : BitVec 2) (vd : BitVec 7) (va : BitVec 7) (vb : BitVec 7)
  /-- MULHIU (R123): vd gets the high word of the unsigned product of va and vb. -/
  | mulhiu (tc : BitVec 2) (vd : BitVec 7) (va : BitVec 7) (vb : BitVec 7)
  /-- MAD (R123): vd gets the low 32 bits of va x vb + vc; MOD must carry vc. -/
  | mad (tc : BitVec 2) (vd : BitVec 7) (va : BitVec 7) (vb : BitVec 7)
  /-- DIV (R123): vd gets the signed quotient of va by vb, with the defined results for a zero divisor and overflow. -/
  | div (tc : BitVec 2) (vd : BitVec 7) (va : BitVec 7) (vb : BitVec 7)
  /-- DIVU (R123): vd gets the unsigned quotient of va by vb. -/
  | divu (tc : BitVec 2) (vd : BitVec 7) (va : BitVec 7) (vb : BitVec 7)
  /-- REM (R123): vd gets the signed remainder of va by vb. -/
  | rem (tc : BitVec 2) (vd : BitVec 7) (va : BitVec 7) (vb : BitVec 7)
  /-- REMU (R123): vd gets the unsigned remainder of va by vb. -/
  | remu (tc : BitVec 2) (vd : BitVec 7) (va : BitVec 7) (vb : BitVec 7)
  /-- SEQ (R121): vd gets 1 if va equals vb, else 0. -/
  | seq (tc : BitVec 2) (vd : BitVec 7) (va : BitVec 7) (vb : BitVec 7)
  /-- SNE (R121): vd gets 1 if va differs from vb, else 0. -/
  | sne (tc : BitVec 2) (vd : BitVec 7) (va : BitVec 7) (vb : BitVec 7)
  /-- SLT (R121): vd gets 1 if va is less than vb as signed values, else 0. -/
  | slt (tc : BitVec 2) (vd : BitVec 7) (va : BitVec 7) (vb : BitVec 7)
  /-- SLTU (R121): vd gets 1 if va is less than vb as unsigned values, else 0. -/
  | sltu (tc : BitVec 2) (vd : BitVec 7) (va : BitVec 7) (vb : BitVec 7)
  /-- SEL (R122): vd gets va if vc is nonzero, else vb; MOD must carry vc. -/
  | sel (tc : BitVec 2) (vd : BitVec 7) (va : BitVec 7) (vb : BitVec 7)
  /-- CLZ (R122): vd gets the number of leading zero bits of va. -/
  | clz (tc : BitVec 2) (vd : BitVec 7) (va : BitVec 7)
  /-- POPC (R122): vd gets the number of one bits of va. -/
  | popc (tc : BitVec 2) (vd : BitVec 7) (va : BitVec 7)
  /-- BREV (R122): vd gets va with its bits reversed. -/
  | brev (tc : BitVec 2) (vd : BitVec 7) (va : BitVec 7)
  /-- ADDI (R124): vd gets va plus the sign-extended imm9, or plus the 32-bit LIMM immediate. -/
  | addi (tc : BitVec 2) (vd : BitVec 7) (va : BitVec 7) (imm : BitVec 9)
  /-- SHLI (R124): vd gets va shifted left by an immediate amount. -/
  | shli (tc : BitVec 2) (vd : BitVec 7) (va : BitVec 7) (n : BitVec 5)
  /-- SHRI (R124): vd gets va shifted logically right by an immediate amount. -/
  | shri (tc : BitVec 2) (vd : BitVec 7) (va : BitVec 7) (n : BitVec 5)
  /-- SARI (R124): vd gets va shifted arithmetically right by an immediate amount. -/
  | sari (tc : BitVec 2) (vd : BitVec 7) (va : BitVec 7) (n : BitVec 5)
  /-- RORI (R124): vd gets va rotated right by an immediate amount. -/
  | rori (tc : BitVec 2) (vd : BitVec 7) (va : BitVec 7) (n : BitVec 5)
  /-- BFX (R127): vd gets the sign-extended bit field of va selected by vb. -/
  | bfx (tc : BitVec 2) (vd : BitVec 7) (va : BitVec 7) (vb : BitVec 7)
  /-- BFXU (R127): vd gets the zero-extended bit field of va selected by vb. -/
  | bfxu (tc : BitVec 2) (vd : BitVec 7) (va : BitVec 7) (vb : BitVec 7)
  /-- BFI (R127): The low bits of va are inserted into vd at the field selected by vb. -/
  | bfi (tc : BitVec 2) (vd : BitVec 7) (va : BitVec 7) (vb : BitVec 7)
  /-- PRMB (R128): Each byte of vd is built from the pair (va, vb) by the selectors in vc; MOD must carry vc. -/
  | prmb (tc : BitVec 2) (vd : BitVec 7) (va : BitVec 7) (vb : BitVec 7)
  /-- MOVI (R125): vd gets the sign-extended simm16, or the 32-bit value formed with a LIMM prefix. -/
  | movi (tc : BitVec 2) (vd : BitVec 7) (imm : BitVec 16)
  /-- MOVS (R126): vd gets the uniform register s[sb]. -/
  | movs (tc : BitVec 2) (vd : BitVec 7) (sb : BitVec 8)
  /-- HGET (R130): Captures the value of hatch hN into vd and leaves the hatch full; blocks while the hatch is empty. -/
  | hget (tc : BitVec 2) (vd : BitVec 7) (h : BitVec 8)
  /-- HTAKE (R130): Captures the value of hatch hN into vd and empties the hatch; blocks while the hatch is empty. -/
  | htake (tc : BitVec 2) (vd : BitVec 7) (h : BitVec 8)
  /-- HPUT (R131): Writes vs to hatch hN, sets it full and clears its poison. -/
  | hput (tc : BitVec 2) (vs : BitVec 7) (h : BitVec 8)
  /-- RDLS (R133): vd gets a lane special register such as LANE, THREAD or BLOCKX. -/
  | rdls (tc : BitVec 2) (vd : BitVec 7) (n : BitVec 8)
  /-- XLN_IDX (R135): vd gets va of the cohort thread with lane index vb, or its own va. -/
  | xlnIdx (tc : BitVec 2) (vd : BitVec 7) (va : BitVec 7) (vb : BitVec 7)
  /-- XLN_XOR (R135): vd gets va of the cohort thread with lane index (own index XOR vb), or its own va. -/
  | xlnXor (tc : BitVec 2) (vd : BitVec 7) (va : BitVec 7) (vb : BitVec 7)
  /-- XLN_UP (R135): vd gets va of the cohort thread with lane index (own index - vb), or its own va. -/
  | xlnUp (tc : BitVec 2) (vd : BitVec 7) (va : BitVec 7) (vb : BitVec 7)
  /-- XLN_DN (R135): vd gets va of the cohort thread with lane index (own index + vb), or its own va. -/
  | xlnDn (tc : BitVec 2) (vd : BitVec 7) (va : BitVec 7) (vb : BitVec 7)
  /-- VOTE_ANY (R136): vd gets 1 if any cohort member's va is nonzero, else 0. -/
  | voteAny (tc : BitVec 2) (vd : BitVec 7) (va : BitVec 7)
  /-- VOTE_ALL (R136): vd gets 1 if every cohort member's va is nonzero, else 0. -/
  | voteAll (tc : BitVec 2) (vd : BitVec 7) (va : BitVec 7)
  /-- VOTE_BAL (R136): vd gets the lane mask of the cohort members whose va is nonzero. -/
  | voteBal (tc : BitVec 2) (vd : BitVec 7) (va : BitVec 7)
  /-- XRED (R137): vd gets the cohort's reduction of va by the operator that xmod selects. -/
  | xred (tc : BitVec 2) (vd : BitVec 7) (va : BitVec 7)
  /-- FADD (R143): vd gets the FP32 sum of va and vb, rounded once. -/
  | fadd (tc : BitVec 2) (vd : BitVec 7) (va : BitVec 7) (vb : BitVec 7)
  /-- FSUB (R143): vd gets the FP32 difference of va and vb, rounded once. -/
  | fsub (tc : BitVec 2) (vd : BitVec 7) (va : BitVec 7) (vb : BitVec 7)
  /-- FMUL (R143): vd gets the FP32 product of va and vb, rounded once. -/
  | fmul (tc : BitVec 2) (vd : BitVec 7) (va : BitVec 7) (vb : BitVec 7)
  /-- FMIN (R144): vd gets the FP32 minimum of va and vb, returned bit for bit. -/
  | fmin (tc : BitVec 2) (vd : BitVec 7) (va : BitVec 7) (vb : BitVec 7)
  /-- FMAX (R144): vd gets the FP32 maximum of va and vb, returned bit for bit. -/
  | fmax (tc : BitVec 2) (vd : BitVec 7) (va : BitVec 7) (vb : BitVec 7)
  /-- FFMA (R143): vd gets va x vb + vc with one rounding; MOD must carry vc. -/
  | ffma (tc : BitVec 2) (vd : BitVec 7) (va : BitVec 7) (vb : BitVec 7)
  /-- FSEQ (R145): vd gets 1 if va equals vb as FP32 values, else 0. -/
  | fseq (tc : BitVec 2) (vd : BitVec 7) (va : BitVec 7) (vb : BitVec 7)
  /-- FSLT (R145): vd gets 1 if va is less than vb as FP32 values, else 0. -/
  | fslt (tc : BitVec 2) (vd : BitVec 7) (va : BitVec 7) (vb : BitVec 7)
  /-- FSLE (R145): vd gets 1 if va is less than or equal to vb as FP32 values, else 0. -/
  | fsle (tc : BitVec 2) (vd : BitVec 7) (va : BitVec 7) (vb : BitVec 7)
  /-- FSUN (R145): vd gets 1 if either operand is a NaN, else 0. -/
  | fsun (tc : BitVec 2) (vd : BitVec 7) (va : BitVec 7) (vb : BitVec 7)
  /-- HADD2 (R146): vd gets the BF16x2 sum of va and vb, element by element. -/
  | hadd2 (tc : BitVec 2) (vd : BitVec 7) (va : BitVec 7) (vb : BitVec 7)
  /-- HMUL2 (R146): vd gets the BF16x2 product of va and vb, element by element. -/
  | hmul2 (tc : BitVec 2) (vd : BitVec 7) (va : BitVec 7) (vb : BitVec 7)
  /-- HFMA2 (R146): vd gets the BF16x2 fused multiply-add va x vb + vc; MOD must carry vc. -/
  | hfma2 (tc : BitVec 2) (vd : BitVec 7) (va : BitVec 7) (vb : BitVec 7)
  /-- HMAX2 (R146): vd gets the BF16x2 maximum of va and vb, element by element. -/
  | hmax2 (tc : BitVec 2) (vd : BitVec 7) (va : BitVec 7) (vb : BitVec 7)
  /-- FRCP (R147): vd gets the correctly rounded reciprocal of va. -/
  | frcp (tc : BitVec 2) (vd : BitVec 7) (va : BitVec 7)
  /-- FRSQ (R147): vd gets the correctly rounded reciprocal square root of va. -/
  | frsq (tc : BitVec 2) (vd : BitVec 7) (va : BitVec 7)
  /-- FEX2 (R147): vd gets 2 to the power va, correctly rounded. -/
  | fex2 (tc : BitVec 2) (vd : BitVec 7) (va : BitVec 7)
  /-- FLG2 (R147): vd gets log2 of va, correctly rounded. -/
  | flg2 (tc : BitVec 2) (vd : BitVec 7) (va : BitVec 7)
  /-- FDIV (R143): vd gets va divided by vb, rounded once. -/
  | fdiv (tc : BitVec 2) (vd : BitVec 7) (va : BitVec 7) (vb : BitVec 7)
  /-- FSQRT (R147): vd gets the correctly rounded square root of va. -/
  | fsqrt (tc : BitVec 2) (vd : BitVec 7) (va : BitVec 7)
  /-- FSCL (R148): vd gets va x 2^vb, rounded once. -/
  | fscl (tc : BitVec 2) (vd : BitVec 7) (va : BitVec 7) (vb : BitVec 7)
  /-- FFRC (R148): vd gets the exact fractional part of va. -/
  | ffrc (tc : BitVec 2) (vd : BitVec 7) (va : BitVec 7)
  /-- CVT_F32_S32 (R149): vd gets the signed integer va converted to FP32. -/
  | cvtF32S32 (tc : BitVec 2) (vd : BitVec 7) (va : BitVec 7)
  /-- CVT_S32_F32 (R149): vd gets FP32 va converted to INT32, toward zero and saturating. -/
  | cvtS32F32 (tc : BitVec 2) (vd : BitVec 7) (va : BitVec 7)
  /-- CVT_F32_BF16 (R149): vd gets one BF16 half of va widened exactly to FP32. -/
  | cvtF32Bf16 (tc : BitVec 2) (vd : BitVec 7) (va : BitVec 7)
  /-- CVT_BF16_F32 (R149): vd gets va and vb packed as BF16x2. -/
  | cvtBf16F32 (tc : BitVec 2) (vd : BitVec 7) (va : BitVec 7) (vb : BitVec 7)
  /-- CVT_E4M3_F32 (R150): va is converted to E4M3 and inserted into byte k of vd. -/
  | cvtE4m3F32 (tc : BitVec 2) (vd : BitVec 7) (va : BitVec 7)
  /-- CVT_F32_E4M3 (R150): vd gets byte k of va widened from E4M3 to FP32. -/
  | cvtF32E4m3 (tc : BitVec 2) (vd : BitVec 7) (va : BitVec 7)
  /-- CVT_E5M2_F32 (R150): va is converted to E5M2 and inserted into byte k of vd. -/
  | cvtE5m2F32 (tc : BitVec 2) (vd : BitVec 7) (va : BitVec 7)
  /-- CVT_F32_E5M2 (R150): vd gets byte k of va widened from E5M2 to FP32. -/
  | cvtF32E5m2 (tc : BitVec 2) (vd : BitVec 7) (va : BitVec 7)
  /-- SCACC (R151): vd gets va x vb + vd with one rounding. -/
  | scacc (tc : BitVec 2) (vd : BitVec 7) (va : BitVec 7) (vb : BitVec 7)
  /-- SCACC_2 (R151): vd gets va x RN(vb x vc) + vd; MOD must carry vc. -/
  | scacc2 (tc : BitVec 2) (vd : BitVec 7) (va : BitVec 7) (vb : BitVec 7)
  /-- QNT8 (R152): The exact product va x vb is quantised to INT8 and written into byte k of vd. -/
  | qnt8 (tc : BitVec 2) (vd : BitVec 7) (va : BitVec 7) (vb : BitVec 7)
  /-- QNTE4 (R152): The exact product va x vb is quantised to E4M3 and written into byte k of vd. -/
  | qnte4 (tc : BitVec 2) (vd : BitVec 7) (va : BitVec 7) (vb : BitVec 7)
  /-- DP4 (R153): vd gets vd plus the signed 4-way byte dot product of va and vb. -/
  | dp4 (tc : BitVec 2) (vd : BitVec 7) (va : BitVec 7) (vb : BitVec 7)
  /-- DP4U (R153): vd gets vd plus the unsigned 4-way byte dot product of va and vb. -/
  | dp4u (tc : BitVec 2) (vd : BitVec 7) (va : BitVec 7) (vb : BitVec 7)
  /-- DP2H (R153): vd gets the BF16 2-way dot product of va and vb plus vd, rounded once. -/
  | dp2h (tc : BitVec 2) (vd : BitVec 7) (va : BitVec 7) (vb : BitVec 7)
  /-- TRN_Q (R154): Writes the ternary code of va against threshold |vb| at digit position p of vd. -/
  | trnQ (tc : BitVec 2) (vd : BitVec 7) (va : BitVec 7) (vb : BitVec 7)
  /-- TRN_PK (R155): Packs digit codes 0 to 14 of va into three T5 bytes of vd. -/
  | trnPk (tc : BitVec 2) (vd : BitVec 7) (va : BitVec 7)
  /-- TRN_UP (R155): Unpacks three T5 bytes of va into digit codes, trapping on an illegal byte. -/
  | trnUp (tc : BitVec 2) (vd : BitVec 7) (va : BitVec 7)
  /-- TRN_DG (R156): vd gets digit vb[3:0] of va as an integer, trapping on code 0b10. -/
  | trnDg (tc : BitVec 2) (vd : BitVec 7) (va : BitVec 7) (vb : BitVec 7)
  /-- TRN_CHK4 (R157): vd gets the mask of the bytes of va that are illegal T5 codes. -/
  | trnChk4 (tc : BitVec 2) (vd : BitVec 7) (va : BitVec 7)
  /-- TRN_Z4 (R157): vd gets the mask of the bytes of va that are 121, five zero digits. -/
  | trnZ4 (tc : BitVec 2) (vd : BitVec 7) (va : BitVec 7)
  /-- LD_U8 (R165): Loads one zero-extended byte into vt. -/
  | ldU8 (tc : BitVec 2) (vt : BitVec 7) (va : BitVec 7) (ord : BitVec 2) (scope : BitVec 3) (off4 : BitVec 4)
  /-- LD_S8 (R165): Loads one sign-extended byte into vt. -/
  | ldS8 (tc : BitVec 2) (vt : BitVec 7) (va : BitVec 7) (ord : BitVec 2) (scope : BitVec 3) (off4 : BitVec 4)
  /-- LD_U16 (R165): Loads one zero-extended halfword into vt. -/
  | ldU16 (tc : BitVec 2) (vt : BitVec 7) (va : BitVec 7) (ord : BitVec 2) (scope : BitVec 3) (off4 : BitVec 4)
  /-- LD_S16 (R165): Loads one sign-extended halfword into vt. -/
  | ldS16 (tc : BitVec 2) (vt : BitVec 7) (va : BitVec 7) (ord : BitVec 2) (scope : BitVec 3) (off4 : BitVec 4)
  /-- LD_B32 (R165): Loads one word into vt, or pops one element from a Larder FIFO. -/
  | ldB32 (tc : BitVec 2) (vt : BitVec 7) (va : BitVec 7) (ord : BitVec 2) (scope : BitVec 3) (off4 : BitVec 4)
  /-- LD_B64 (R165): Loads 8 bytes into the pair vt. -/
  | ldB64 (tc : BitVec 2) (vt : BitVec 7) (va : BitVec 7) (ord : BitVec 2) (scope : BitVec 3) (off4 : BitVec 4)
  /-- LD_B128 (R165): Loads 16 bytes into the quad vt. -/
  | ldB128 (tc : BitVec 2) (vt : BitVec 7) (va : BitVec 7) (ord : BitVec 2) (scope : BitVec 3) (off4 : BitVec 4)
  /-- ST_B8 (R165): Stores vt[7:0]. -/
  | stB8 (tc : BitVec 2) (vt : BitVec 7) (va : BitVec 7) (ord : BitVec 2) (scope : BitVec 3) (off4 : BitVec 4)
  /-- ST_B16 (R165): Stores vt[15:0]. -/
  | stB16 (tc : BitVec 2) (vt : BitVec 7) (va : BitVec 7) (ord : BitVec 2) (scope : BitVec 3) (off4 : BitVec 4)
  /-- ST_B32 (R165): Stores vt, or pushes one element to a Larder FIFO. -/
  | stB32 (tc : BitVec 2) (vt : BitVec 7) (va : BitVec 7) (ord : BitVec 2) (scope : BitVec 3) (off4 : BitVec 4)
  /-- ST_B64 (R165): Stores the pair vt. -/
  | stB64 (tc : BitVec 2) (vt : BitVec 7) (va : BitVec 7) (ord : BitVec 2) (scope : BitVec 3) (off4 : BitVec 4)
  /-- ST_B128 (R165): Stores the quad vt. -/
  | stB128 (tc : BitVec 2) (vt : BitVec 7) (va : BitVec 7) (ord : BitVec 2) (scope : BitVec 3) (off4 : BitVec 4)
  /-- ATOM_32 (R172): A 32-bit atomic read-modify-write at its place that returns old to vd. -/
  | atom32 (tc : BitVec 2) (vd : BitVec 7) (va : BitVec 7) (op : BitVec 4) (scope : BitVec 3) (ord : BitVec 2)
  /-- ATOM_64 (R172): A 64-bit atomic read-modify-write that returns old to the pair vd. -/
  | atom64 (tc : BitVec 2) (vd : BitVec 7) (va : BitVec 7) (op : BitVec 4) (scope : BitVec 3) (ord : BitVec 2)
  /-- RED (R174): An atomic reduction with no return; the thread goes on without waiting. -/
  | red (tc : BitVec 2) (vd : BitVec 7) (va : BitVec 7) (op : BitVec 4) (scope : BitVec 3) (ord : BitVec 2)
  /-- FENCE (R170): Orders the thread's accesses at a scope by kind acq, rel or full, with cache actions at CLUSTER scope and wider. -/
  | fence (tc : BitVec 2) (kind : BitVec 2) (scope : BitVec 3)
  /-- LDROW_NEAR (R177): Reads one untorn row image from a local copy, a peer copy or home into local bytes. -/
  | ldrowNear (tc : BitVec 2) (va : BitVec 7) (vb : BitVec 7)
  /-- LDROW_HOME (R176): Reads the row image and its version at home into local bytes. -/
  | ldrowHome (tc : BitVec 2) (va : BitVec 7) (vb : BitVec 7)
  /-- STROW (R176): Writes the local image to the row at home and bumps its version. -/
  | strow (tc : BitVec 2) (va : BitVec 7) (vb : BitVec 7)
  /-- RADD_BF16 (R176): Adds the local BF16 elements into the row at home and bumps its version. -/
  | raddBf16 (tc : BitVec 2) (va : BitVec 7) (vb : BitVec 7)
  /-- RADD_F32 (R176): Adds the local FP32 elements into the row at home and bumps its version. -/
  | raddF32 (tc : BitVec 2) (va : BitVec 7) (vb : BitVec 7)
  /-- RMAX_BF16 (R176): Takes the BF16 maximum of the row and the local elements at home and bumps the version. -/
  | rmaxBf16 (tc : BitVec 2) (va : BitVec 7) (vb : BitVec 7)
  /-- PRF (R180): Requests the line that holds ea into the Larder or its home slice, and never faults. -/
  | prf (tc : BitVec 2) (va : BitVec 7)
  /-- WBL (R180): Writes the line's dirty bytes back to home and keeps a clean copy. -/
  | wbl (tc : BitVec 2) (va : BitVec 7)
  /-- INVL (R180): Writes back the line's dirty bytes, then invalidates the line, its row copies and its fetch copies. -/
  | invl (tc : BitVec 2) (va : BitVec 7)
  /-- BR_EQZ (R184): Branches if va is zero. -/
  | brEqz (tc : BitVec 2) (va : BitVec 7) (off : BitVec 13)
  /-- BR_NEZ (R184): Branches if va is nonzero. -/
  | brNez (tc : BitVec 2) (va : BitVec 7) (off : BitVec 13)
  /-- BR_LTZ (R184): Branches if va is negative. -/
  | brLtz (tc : BitVec 2) (va : BitVec 7) (off : BitVec 13)
  /-- BR_GEZ (R184): Branches if va is zero or positive. -/
  | brGez (tc : BitVec 2) (va : BitVec 7) (off : BitVec 13)
  /-- BR_GTZ (R184): Branches if va is positive. -/
  | brGtz (tc : BitVec 2) (va : BitVec 7) (off : BitVec 13)
  /-- BR_LEZ (R184): Branches if va is zero or negative. -/
  | brLez (tc : BitVec 2) (va : BitVec 7) (off : BitVec 13)
  /-- BR_ALW (R184): Branches unconditionally. -/
  | brAlw (tc : BitVec 2) (off : BitVec 13)
  /-- CALL (R185): Writes the return address to the pair vd and branches PC-relative. -/
  | call (tc : BitVec 2) (vd : BitVec 7) (off : BitVec 16)
  /-- JMPR (R186): Jumps to the code address held in the pair va. -/
  | jmpr (tc : BitVec 2) (va : BitVec 7)
  /-- CALLR (R186): Writes the return address to the pair vd and jumps to the address in the pair va. -/
  | callr (tc : BitVec 2) (vd : BitVec 7) (va : BitVec 7)
  /-- RET (R186): Returns to the address in the pair va, with the effect of JMPR. -/
  | ret (tc : BitVec 2) (va : BitVec 7)
  /-- BAR_ARV (R188): Arrives at barrier n, records a token and goes on. -/
  | barArv (tc : BitVec 2) (n : BitVec 11)
  /-- BAR_WT (R189): Waits on barrier n for the completion that its token names. -/
  | barWt (tc : BitVec 2) (n : BitVec 11)
  /-- BAR_SYNC (R188): Arrives at barrier n and then waits, as BAR.WT does. -/
  | barSync (tc : BitVec 2) (n : BitVec 11)
  /-- BAR_ARVC (R188): Adds va arrivals to barrier n and goes on. -/
  | barArvc (tc : BitVec 2) (va : BitVec 7) (n : BitVec 11)
  /-- NOP (R195): Advances the PC with no other effect. -/
  | nop (tc : BitVec 2)
  /-- BARG (R194): Blocks the thread until every live thread of its group stands at a BARG. -/
  | barg (tc : BitVec 2)
  /-- EXIT (R196): Ends the thread and reduces E of every ALL-mode barrier of its block. -/
  | exit (tc : BitVec 2)
  /-- YIELD (R195): Moves the thread to DEFERRED and advances its PC. -/
  | yield (tc : BitVec 2)
  /-- TRAP (R199): Raises cause 11 with the code in TVAL. -/
  | trap (tc : BitVec 2) (code : BitVec 16)
  /-- RETT (R200): Returns from the handler to TEPC and clears H. -/
  | rett (tc : BitVec 2)
  /-- BRK (R199): Halts for the debugger, or raises cause 13 when no debugger names the thread. -/
  | brk (tc : BitVec 2) (code : BitVec 16)
  /-- ILL (R199): Always raises the illegal-instruction trap. -/
  | ill (tc : BitVec 2)
  /-- RDTS (R201): Reads a trap-state register into vd, or into the pair vd. -/
  | rdts (tc : BitVec 2) (vd : BitVec 7) (x : BitVec 3)
  /-- WRTS (R201): Writes TEPC, TVAL or STACKLIM from a lane register or pair. -/
  | wrts (tc : BitVec 2) (vs : BitVec 7) (x : BitVec 3)
  /-- UADD (R204): sd gets sa + sb. -/
  | uadd (tc : BitVec 2) (sd : BitVec 8) (sa : BitVec 8) (sb : BitVec 8)
  /-- USUB (R204): sd gets sa - sb. -/
  | usub (tc : BitVec 2) (sd : BitVec 8) (sa : BitVec 8) (sb : BitVec 8)
  /-- UAND (R204): sd gets sa AND sb. -/
  | uand (tc : BitVec 2) (sd : BitVec 8) (sa : BitVec 8) (sb : BitVec 8)
  /-- UOR (R204): sd gets sa OR sb. -/
  | uor (tc : BitVec 2) (sd : BitVec 8) (sa : BitVec 8) (sb : BitVec 8)
  /-- UXOR (R204): sd gets sa XOR sb. -/
  | uxor (tc : BitVec 2) (sd : BitVec 8) (sa : BitVec 8) (sb : BitVec 8)
  /-- UMUL (R204): sd gets the low 32 bits of sa x sb. -/
  | umul (tc : BitVec 2) (sd : BitVec 8) (sa : BitVec 8) (sb : BitVec 8)
  /-- UMIN (R204): sd gets the signed minimum of sa and sb. -/
  | umin (tc : BitVec 2) (sd : BitVec 8) (sa : BitVec 8) (sb : BitVec 8)
  /-- UMAX (R204): sd gets the signed maximum of sa and sb. -/
  | umax (tc : BitVec 2) (sd : BitVec 8) (sa : BitVec 8) (sb : BitVec 8)
  /-- UADDI (R205): sd gets sa plus the sign-extended imm8. -/
  | uaddi (tc : BitVec 2) (sd : BitVec 8) (sa : BitVec 8) (imm : BitVec 8)
  /-- USHI (R205): sd gets sa shifted or rotated by an immediate amount, of the kind imm8[7:6] selects. -/
  | ushi (tc : BitVec 2) (sd : BitVec 8) (sa : BitVec 8) (kind : BitVec 2) (n : BitVec 5)
  /-- UMOVI (R205): sd gets the sign-extended imm16. -/
  | umovi (tc : BitVec 2) (sd : BitVec 8) (imm : BitVec 16)
  /-- UMOVH (R205): Sets the upper half of sd to imm16 and keeps its low half. -/
  | umovh (tc : BitVec 2) (sd : BitVec 8) (imm : BitVec 16)
  /-- UCMP (R206): Sets predicate qd to the result of comparing sa and sb under cc. -/
  | ucmp (tc : BitVec 2) (q : BitVec 3) (cc : BitVec 5) (sa : BitVec 8) (sb : BitVec 8)
  /-- UBR (R207): Branches every member of the arrival set together on a predicate, or unconditionally. -/
  | ubr (tc : BitVec 2) (cond : BitVec 3) (q : BitVec 3) (off : BitVec 18)
  /-- URDSR (R208): Reads a uniform special register into sd, or into the pair sd. -/
  | urdsr (tc : BitVec 2) (sd : BitVec 8) (n : BitVec 12)
  /-- UWRSR (R208): Writes a writable uniform special register, such as GTAG, from sa. -/
  | uwrsr (tc : BitVec 2) (sa : BitVec 8) (n : BitVec 12)
  /-- HPOIS (R209): A UWRSR to HPOIS sets the named hatches full and poisoned. -/
  | hpois (tc : BitVec 2) (sa : BitVec 8)
  /-- FATTACH (R210): A UWRSR to FATTACH attaches the group as a producer of Larder FIFO b. -/
  | fattach (tc : BitVec 2) (sa : BitVec 8)
  /-- FDETACH (R210): A UWRSR to FDETACH detaches the group from Larder FIFO b. -/
  | fdetach (tc : BitVec 2) (sa : BitVec 8)
  /-- UHPUT (R211): Writes sa to hatch hN, sets it full and clears its poison. -/
  | uhput (tc : BitVec 2) (sa : BitVec 8) (h : BitVec 4)
  /-- UHGET (R211): Captures hatch hN into sd and leaves the hatch full. -/
  | uhget (tc : BitVec 2) (sd : BitVec 8) (h : BitVec 4)
  /-- UHTAKE (R211): Captures hatch hN into sd and empties the hatch. -/
  | uhtake (tc : BitVec 2) (sd : BitVec 8) (h : BitVec 4)
  /-- UNOP (R212): Advances the PC of every member with no other effect. -/
  | unop (tc : BitVec 2)
  /-- UYIELD (R212): Moves every member to DEFERRED. -/
  | uyield (tc : BitVec 2)
  /-- ULD_32 (R213): One 32-bit load for the arrival set, from the address in a uniform pair. -/
  | uld32 (tc : BitVec 2) (sd : BitVec 8) (p : BitVec 7) (ord : BitVec 2) (scope : BitVec 3)
  /-- ULD_64 (R213): One 64-bit load into the uniform pair sd. -/
  | uld64 (tc : BitVec 2) (sd : BitVec 8) (p : BitVec 7) (ord : BitVec 2) (scope : BitVec 3)
  /-- UST_32 (R213): One 32-bit store of sa for the arrival set. -/
  | ust32 (tc : BitVec 2) (sa : BitVec 8) (p : BitVec 7) (ord : BitVec 2) (scope : BitVec 3)
  /-- UST_64 (R213): One 64-bit store of the uniform pair sa. -/
  | ust64 (tc : BitVec 2) (sa : BitVec 8) (p : BitVec 7) (ord : BitVec 2) (scope : BitVec 3)
  /-- PAN (R225): Issues a Pan ternary tile task from the parameter block s[sp] and writes its handle to s[sr]. -/
  | pan (tc : BitVec 2) (sp : BitVec 8) (sr : BitVec 8)
  /-- GRN (R227): Issues a Grainer task in mode MM, Q2 or QA. -/
  | grn (tc : BitVec 2) (sp : BitVec 8) (sr : BitVec 8)
  /-- CPY (R231): Issues a tensor copy or fill of up to eight dimensions. -/
  | cpy (tc : BitVec 2) (sp : BitVec 8) (sr : BitVec 8)
  /-- GAT_NEAR (R233): Issues a row gather into the Larder with NEAR reads. -/
  | gatNear (tc : BitVec 2) (sp : BitVec 8) (sr : BitVec 8)
  /-- GAT_HOME (R233): Issues a row gather into the Larder with HOME reads. -/
  | gatHome (tc : BitVec 2) (sp : BitVec 8) (sr : BitVec 8)
  /-- SCT (R234): Issues row writes of RADD or RMAX, applied at home. -/
  | sct (tc : BitVec 2) (sp : BitVec 8) (sr : BitVec 8)
  /-- FAB (R235): Issues a fabric PUT, GET or LSEND to another device. -/
  | fab (tc : BitVec 2) (sp : BitVec 8) (sr : BitVec 8)
  /-- WAITC (R239): Waits until the group's counter of a class is at most k, then acquires at BLOCK scope. -/
  | waitc (tc : BitVec 2) (cls : BitVec 3) (k : BitVec 16)
  /-- LNCH_SUCC (R240): Sets a successor slot of the launch to a packet VA. -/
  | lnchSucc (tc : BitVec 2) (sa : BitVec 8) (slot : BitVec 3)
  /-- LNCH_LMODE (R241): Switches the named Larder banks of the cluster to CACHE, SCRATCH or FIFO. -/
  | lnchLmode (tc : BitVec 2) (sa : BitVec 8) (mode : BitVec 2)
  /-- LNCH_CANCEL (R242): Cancels a completion-table entry of the tenant at the given level. -/
  | lnchCancel (tc : BitVec 2) (sa : BitVec 8) (level : BitVec 2)
  /-- BALLOC (R215): Creates barrier object n and returns 1, 0 or all ones in sd. -/
  | balloc (tc : BitVec 2) (sd : BitVec 8) (n : BitVec 11)
  /-- BFREE (R216): Removes barrier object n, trapping its waiters. -/
  | bfree (tc : BitVec 2) (n : BitVec 11)
  /-- BINIT_ALL (R216): Sets barrier n to ALL mode with E the count of live threads. -/
  | binitAll (tc : BitVec 2) (n : BitVec 11)
  /-- BINIT_COUNT (R216): Sets barrier n to COUNT mode with E from s[sa]. -/
  | binitCount (tc : BitVec 2) (sa : BitVec 8) (n : BitVec 11)
  /-- UTRAP (R217): Raises cause 11 in every member, with the code in TVAL. -/
  | utrap (tc : BitVec 2) (code : BitVec 12)
  /-- UPARK (R218): Parks every member and writes a kind-4 record. -/
  | upark (tc : BitVec 2) (sa : BitVec 8) (code : BitVec 12)
  /-- REGISTER_WRITE (R7): A write to a register that has no row of its own, applied under the 64-bit hold, access-code, reserved-field and clamping rules. -/
  | registerWrite (req : Nat) (off : Nat) (size : Nat) (val : BitVec 32)
  /-- LAUNCH_PACKET_READ (R353): A launch packet is read by relaxed loads at home, then checked and pushed, or refused as unreadable. -/
  | launchPacketRead (src : PacketSource)
  /-- LAUNCH_POP (R285): The launch unit pops the root head into a free expansion slot and chooses a placement, or fails the launch. -/
  | launchPop
  /-- BLOCK_EXPANSION (R285): An expansion slot pushes one BLOCK item per Hall cycle into the tenant's top sluice. -/
  | blockExpansion (slot : Nat)
  /-- INNER_SLUICE_MOVE (R279): An inner sluice moves its head to the first matching child that has a free slot. -/
  | innerSluiceMove (sluice : Nat)
  /-- ENGINE_ITEM_PUSH (R280): An engine queue entry or the segmenter pushes a new item into the tenant's top sluice once there is room. -/
  | engineItemPush (cluster : Nat)
  /-- CORE_LEAF_POP (R286): A core leaf's head is popped when its block fits, and the block is made resident on the lowest core that can hold it. -/
  | coreLeafPop (cluster : Nat)
  /-- PAN_POP (R295): The Pan pops its leaf's head once staging is complete and begins its first step. -/
  | panPop (cluster : Nat)
  /-- PAN_STEP (R296): A Pan step ends its fill, stream and drain, or its 8-cycle zero-tile path, and the next step or a yield follows. -/
  | panStep (cluster : Nat)
  /-- GRAINER_POP (R300): The Grainer pops its leaf's head once staging is complete and begins its task. -/
  | grainerPop (cluster : Nat)
  /-- GRAINER_STEP (R300): A Grainer step completes and writes its results in the drain. -/
  | grainerStep (cluster : Nat)
  /-- COPY_LEAF_POP (R232): The copy engine pops a CPY segment, GAT item or SCT item from its leaf and performs it. -/
  | copyLeafPop (cluster : Nat)
  /-- SEGMENTER_READ (R231): The CPY segmenter reads and checks the shape table after the members' release. -/
  | segmenterRead (group : Nat)
  /-- COPY_SEGMENT_COMPLETE (R232): A copy segment, GAT row set or SCT row set completes its writes. -/
  | copySegmentComplete (cluster : Nat)
  /-- ENGINE_OP_COMPLETE (R238): An engine operation completes, is marked done, and the class's RET advances past the done operations at the end of the cycle. -/
  | engineOpComplete (op : Nat)
  /-- SUCCESSOR_RELEASE (R240): At launch retirement the Hall reads each non-empty successor slot's packet and pushes it in slot order. -/
  | successorRelease (launch : Nat)
  /-- LOAD_COMPLETE (R48): A load's data returns and its destination becomes full, poisoned if the data was poisoned. -/
  | loadComplete (id : Nat)
  /-- ATOMIC_COMPLETE (R172): A value-returning atomic returns old to its destination, which becomes full. -/
  | atomicComplete (id : Nat)
  /-- RED_COMPLETE (R174): A RED is complete when new is written at its place. -/
  | redComplete (id : Nat)
  /-- ROW_READ_COMPLETE (R179): An LDROW writes its local bytes and releases its scoreboard entry. -/
  | rowReadComplete (id : Nat)
  /-- ROW_WRITE_APPLY (R176): A row write is applied at home in one step, incrementing the row's version. -/
  | rowWriteApply (id : Nat)
  /-- SECTOR_FILL (R262): A Larder sector fill arrives and supplies only the bytes that have not been written. -/
  | sectorFill (id : Nat)
  /-- HATCH_READ_COMPLETE (R119): An HGET or HTAKE writes its captured value to vd and sets it full. -/
  | hatchReadComplete (id : Nat)
  /-- LREM_READ_COMPLETE (R208): URDSR of LREM completes with the launch's counter read from the Hall table. -/
  | lremReadComplete (id : Nat)
  /-- LMODE_COMPLETE (R241): LNCH.LMODE finishes its write-backs and writes the mask of switched banks, full. -/
  | lmodeComplete (id : Nat)
  /-- TRANSLATION_FAULT (R315): A failed translation parks the thread or arrival set and records or merges a kind-1 or kind-2 record. -/
  | translationFault (index : Nat)
  /-- REGISTER_READ (R7): A read of the low word of a 64-bit register latches the high word for the next read by the same requester, and a read of another register discards a held or latched half. -/
  | registerRead (req : Nat) (off : Nat) (size : Nat)
  /-- CORE_CYCLE (R248): At the end of each core cycle the units advance through X1 to X3, the cycle takes its period, and CYCLE and ETIME advance, even when no gang issues or no thread is resident. -/
  | coreCycle (core : Nat)
  /-- STORE_PERFORMED (R166): A store or a Larder write-back reaches home and is performed there, taking its place in the order of arrival at home. -/
  | storePerformed (id : Nat)
  /-- POWER_ON_RESET (R346): Power-on reset samples the BRIDGE strap, clears LOCKED and runs secure boot, with each boot stage verifying the next before it runs. -/
  | powerOnReset (strap : Bool) (stages : List BootImage)
  /-- HOST_REGISTER_WRITE (R345): A host write through BAR2 is passed to the Parlour, which applies it only to the permitted registers and refuses and logs all others. -/
  | hostRegisterWrite (off : Nat) (size : Nat) (val : BitVec 32)
  /-- DEVNUM_WRITE (R26): A write to HALL.DEVNUM with LOCK set fixes the device number, after which the fabric ports may carry transaction-layer traffic. -/
  | devnumWrite (val : BitVec 32)
  /-- CLASSPOL_WRITE (R251): A write to CORE.CLASSPOL sets the mode and run length, and a change of MODE from 0 to 1 resets K and the run count. -/
  | classpolWrite (core : Nat) (val : BitVec 32)
  /-- LMODE_REGISTER_WRITE (R258): A Parlour write to CL.LMODE switches each changed Larder bank, with the actions and refusals of LNCH.LMODE. -/
  | lmodeRegisterWrite (cluster : Nat) (reg : Nat) (val : BitVec 32)
  /-- STAGING_REGION_WRITE (R301): A write to CL.STGP or CL.STGG sets a staging region, or is ignored and logged when its checks fail. -/
  | stagingRegionWrite (cluster : Nat) (grainer : Bool) (val : BitVec 32)
  /-- PAN_RESET (R305): PRST, written as 1, resets the Pan: the running item is re-pushed or its block killed, and the queued items are re-pushed. -/
  | panReset (cluster : Nat)
  /-- GRAINER_RESET (R305): GRST, written as 1, resets the Grainer with the same handling of its running and queued items. -/
  | grainerReset (cluster : Nat)
  /-- ENGINE_WATCHDOG (R304): A Pan or Grainer that completes no step for WDOG x 1,024 cycles is reset by the cluster unit, and the event is logged. -/
  | engineWatchdog (cluster : Nat) (grainer : Bool)
  /-- ENGINE_RESET_END (R305): When the 512-cycle reset time of an engine expires, the engine takes items again. -/
  | engineResetEnd (cluster : Nat) (grainer : Bool)
  /-- SLUICE_ENABLE (R291): A write setting SL.CTL.EN takes effect only if the children, the slot pool and the rank program pass their checks. -/
  | sluiceEnable (sluice : Nat) (val : BitVec 32)
  /-- SLUICE_DISABLE (R291): A write of EN = 0 freezes the items the sluice holds, keeps its slot reservation, and makes the sluice count as full to its parent. -/
  | sluiceDisable (sluice : Nat) (val : BitVec 32)
  /-- LEAF_PROG_WRITE (R284): A write to LF.CTL.PROG checks the named program and takes effect from the next push, or keeps the former program. -/
  | leafProgWrite (leaf : Nat) (val : BitVec 32)
  /-- PROG_STORE_WRITE (R284): A write to the rank program store, ignored and logged when an enabled sluice or any leaf names the slot. -/
  | progStoreWrite (slot : Nat) (word : Nat) (val : BitVec 32)
  /-- NDATA_WRITE (R293): A write to HALL.NDATA sets the node word or table entry that NSEL names, applied between pushes of that sluice. -/
  | ndataWrite (val : BitVec 32)
  /-- ROW_ENTRY_VALIDATE (R273): A write setting HALL.ROWCTL.VALID registers a row-table entry when its K, bounds and version region pass the checks. -/
  | rowEntryValidate (tenant : Nat) (entry : Nat) (val : BitVec 32)
  /-- ROW_ENTRY_DEREGISTER (R273): A write clearing VALID deregisters a row entry, so that later lookups take the row fault. -/
  | rowEntryDeregister (tenant : Nat) (entry : Nat)
  /-- FQANS_RESUME (R308): An ACT = 1 answer resumes the agents of the record it names, as that record's kind gives. -/
  | fqansResume (tenant : Nat) (tag : BitVec 24)
  /-- FQANS_ABORT (R308): An ACT = 2 answer aborts the record it names: a trap, an operand fault, a kill or a block failure, as the kind gives. -/
  | fqansAbort (tenant : Nat) (tag : BitVec 24)
  /-- FQCONS_WRITE (R307): A write to HALL.FQCONS advances the consumed count, or is ignored and logged when it is out of range. -/
  | fqconsWrite (tenant : Nat) (val : BitVec 32)
  /-- TENANT_RESET (R322): TRESET.GO kills, cancels and discards all of one tenant's work, records and TLB entries, and touches no other tenant. -/
  | tenantReset (tenant : Nat)
  /-- TENANT_RESET_DONE (R322): TRESET.BUSY falls when every step of the tenant reset is complete. -/
  | tenantResetDone (tenant : Nat)
  /-- TLBI_PAGE (R314): TLBICTL KIND 1 invalidates the stage-1 entries that cover PAGE. -/
  | tlbiPage (tenant : Nat)
  /-- TLBI_STAGE1 (R314): TLBICTL KIND 2 invalidates all stage-1 entries of the tenant. -/
  | tlbiStage1 (tenant : Nat)
  /-- TLBI_ALL (R314): TLBICTL KIND 3 invalidates all entries of the tenant at both stages. -/
  | tlbiAll (tenant : Nat)
  /-- TLB_INVALIDATION_DONE (R314): TLBICTL.BUSY falls, and every access from then on uses the new table entries. -/
  | tlbInvalidationDone (tenant : Nat)
  /-- IRT_UNMASK (R334): Clearing IRT MASK while PEND is 1 sends one held message and clears PEND. -/
  | irtUnmask (source : Nat)
  /-- ATTESTATION (R347): ATTCTL.GO starts a report over the nonce, the identity and the stage digests, signed by the identity key. -/
  | attestation
  /-- ATTESTATION_DONE (R347): The security block writes the report after the nonce, unsigned with ERR set if the key is erased. -/
  | attestationDone (rand : Nat)
  /-- DEBUG_RUN (R350): Writing 1 to CORE.DBGCTL.RUN returns the halted named thread to READY. -/
  | debugRun (core : Nat)
  /-- POWER_WINDOW (R340): At the end of each 1 ms window the Parlour moves the throttle STEP by at most one and rewrites every core's GRANT. -/
  | powerWindow (avg : Nat) (temp : Nat)
  /-- SECURITY_ALARM (R348): A sensor event or the temperature limit erases the identity key or locks the device, depending on KEYERASE. -/
  | securityAlarm (source : BitVec 2)
  /-- READ_POUT (R341): The PMBus READ_POUT command returns output power in LINEAR11. -/
  | readPout (addr : BitVec 7) (milliwatts : Int)
  /-- READ_TEMPERATURE_1 (R341): The PMBus READ_TEMPERATURE_1 command returns temperature in LINEAR11. -/
  | readTemperature1 (addr : BitVec 7) (millidegrees : Int)
  /-- READ_VIN (R341): The PMBus READ_VIN command returns input voltage in LINEAR11. -/
  | readVin (addr : BitVec 7) (millivolts : Int)
  /-- READ_IOUT (R341): The PMBus READ_IOUT command returns output current in LINEAR11. -/
  | readIout (addr : BitVec 7) (milliamps : Int)
  /-- PMBUS_LIMIT_READ (R341): Manufacturer command 0xD0, read, returns the power LIMIT. -/
  | pmbusLimitRead (c : PmbusCommand)
  /-- PMBUS_LIMIT_WRITE (R341): Manufacturer command 0xD0, written, sets the power LIMIT. -/
  | pmbusLimitWrite (c : PmbusCommand) (val : BitVec 16)
  /-- IDCODE (R349): The IEEE 1149.1 IDCODE instruction returns 0x0096_00F3. -/
  | idcode
  /-- BYPASS (R349): The IEEE 1149.1 BYPASS instruction. -/
  | bypass (bits : List Bool)
  /-- BOUNDARY_SCAN (R349): The IEEE 1149.1 boundary scan operation. -/
  | boundaryScan (pins : List Bool)
  /-- RUNNER_RESTART (R344): A runner core that has stopped for 1 ms is restarted by the main core and takes its half-handled item again from the start. -/
  | runnerRestart (runner : Nat)
  /-- AQI_LAUNCH (R332): A LAUNCH request pushes a launch packet, or replicates it over a device mask, and writes its completion record. -/
  | aqiLaunch (w : NotifyWrite)
  /-- AQI_CANCEL (R332): A CANCEL request cancels a completion-table entry at a level, as LNCH.CANCEL does. -/
  | aqiCancel (w : NotifyWrite)
  /-- AQI_COPY (R332): A COPY request pushes one HOST item per 4 KiB, to be run by the Hall transfer engine. -/
  | aqiCopy (w : NotifyWrite)
  /-- AQI_ROWREG (R332): A ROWREG request registers a row-table entry under R273. -/
  | aqiRowreg (w : NotifyWrite)
  /-- AQI_ROWDEREG (R332): A ROWDEREG request clears VALID of a row-table entry. -/
  | aqiRowdereg (w : NotifyWrite)
  /-- AQI_FQANSWER (R332): An FQANSWER request applies a HALL.FQANS word on behalf of the tenant. -/
  | aqiFqanswer (w : NotifyWrite)
  /-- AQI_FQCONS (R332): An FQCONS request sets the tenant's fault-queue CONS. -/
  | aqiFqcons (w : NotifyWrite)
  /-- HOST_TRANSFER_POP (R332): The Hall transfer engine pops a HOST item from the host-transfer leaf and performs its 4 KiB of copy. -/
  | hostTransferPop
  /-- FLIT_RECEIVE (R324): A received fabric flit is delivered in order, buffered, or discarded with a NAK. -/
  | flitReceive (port : Nat) (flit : Flit)
  /-- FLIT_NAK (R324): A received NAK makes the sender replay only the flit it names, as a tombstone if the window copy is uncorrectable. -/
  | flitNak (port : Nat) (ackseq : BitVec 12) (uncorrectable : Bool)
  /-- TOMBSTONE_RECEIVE (R325): A received tombstone discards its whole packet and asks for an end-to-end retry when the source is known. -/
  | tombstoneReceive (port : Nat) (flit : Flit)
  /-- FABRIC_PACKET_RECEIVE (R328): A received PUT, GET or LSEND packet is checked against HALL.PEER and performed for tenant LTEN, or refused. -/
  | fabricPacketReceive (p : FabPacket)
  /-- GET_RESPONSE_RECEIVE (R235): GET data arriving on VC 1 is written locally. -/
  | getResponseReceive (route : AnswerRoute) (num : Nat) (data : List (BitVec 8))
  /-- E2E_ACK_RECEIVE (R326): An end-to-end acknowledgement releases a held packet and may complete its FAB operation. -/
  | e2eAckReceive (route : AnswerRoute) (num : Nat) (status : Nat)
  /-- E2E_RETRY_REQUEST (R326): A retry request makes the source resend the packet whole. -/
  | e2eRetryRequest (route : AnswerRoute) (num : Nat)
  /-- E2E_TIMEOUT (R326): An unacknowledged packet is resent after TMO, and after RETRY resends its operation ends with status 2. -/
  | e2eTimeout (device : Nat) (num : Nat)
  /-- FABRIC_PORT_POP (R235): A fabric-port leaf pops a FAB packet item and sends it toward its destination device. -/
  | fabricPortPop (port : Nat)
  /-- REPLICATED_LAUNCH_RECEIVE (R290): A device receives a replicated launch packet, drops it if stale, checks it, holds it pending and returns READY. -/
  | replicatedLaunchReceive (name : PacketName) (tenant : Nat) (packet : List (BitVec 8))
  /-- READY_RECEIVE (R290): The issuer collects READY answers and sends GO, or sends DROP on a refusal. -/
  | readyReceive (name : PacketName) (tenant : Nat) (gen : BitVec 32) (accept : Bool)
  /-- GO_RECEIVE (R290): A matching GO makes the pending launch item eligible at its place in the root. -/
  | goReceive (name : PacketName) (tenant : Nat) (gen : BitVec 32)
  /-- DROP_RECEIVE (R290): A matching DROP releases the pending launch item, so its blocks never run. -/
  | dropReceive (name : PacketName) (tenant : Nat) (gen : BitVec 32)
  /-- BLOCK_SAVE (R318): Once its drain is done, a victim block is written to the save pool, frozen, released and requeued as a RESTORE item. -/
  | blockSave (block : Nat)
  /-- PARKED_BARRIER_ARRIVAL (R320): A late arrival at a parked barrier object is applied by the cluster unit or as a far atomic ADD. -/
  | parkedBarrierArrival (id : Nat)
  /-- STAGING_START (R289): The copy engine begins staging an item that stands within depth D once its units fit in the region. -/
  | stagingStart (cluster : Nat) (grainer : Bool)
  /-- STAGING_COMPLETE (R302): The staging copy of an item completes, so that the item may be popped. -/
  | stagingComplete (cluster : Nat) (grainer : Bool)
  /-- TAIL_REPUSH (R303): The tail of a yielded task is re-pushed with its old rank in the Hall cycle after the stop. -/
  | tailRepush (cluster : Nat) (grainer : Bool)
  /-- ENGINE_TRANSLATION_FAULT (R243): An engine translation fault records the handle and VA and sets the faulting item aside. -/
  | engineTranslationFault (index : Nat)
  /-- CANCEL (R33): A cancel stops admission, drops the queued items, kills the resident blocks and retires the named level. -/
  | cancel (tenant : Nat) (level : BitVec 2) (index : Nat)
  /-- STARVATION_OVERRIDE (R42): On every 64th issue slot of a block, port B takes the PC of the longest-waiting thread. -/
  | starvationOverride (core : Nat)
  /-- FLOOR_QUEUE_ENTRY (R54): A thread whose wait count reaches 12,288 enters the core's floor queue and is issued first. -/
  | floorQueueEntry (core : Nat)
  /-- UNIFORM_FLOOR_QUEUE_ENTRY (R54): A uniform thread whose wait count reaches 12,288 enters the uniform floor queue. -/
  | uniformFloorQueueEntry (core : Nat)
  /-- DEFERRAL_END (R56): A DEFERRED thread returns to READY after 64 issue slots, or when no eligible thread of equal or more urgent priority remains. -/
  | deferralEnd (thread : Nat)
  /-- RUN_EXPIRY (R252): When the run count reaches L in RUN mode, K moves to the highest class present and the count restarts. -/
  | runExpiry (core : Nat)
  /-- BARRIER_RELEASE_ARRIVAL (R192): A spanning block's barrier release reaches a core, and its waiters become READY. -/
  | barrierReleaseArrival (id : Nat)
  /-- LAUNCH_BARRIER_RELEASE (R343): A launch barrier completion is sent to at most 8 clusters per 64 ns interval, starting at SLEW.START. -/
  | launchBarrierRelease (launch : Nat)
  /-- BARRIER_TIMEOUT (R310): A barrier timer reaching BARTMO writes a kind-6 record and starts again. -/
  | barrierTimeout (block : Nat) (index : Nat)
  /-- BARG_TIMEOUT (R310): A BARG timer reaching BARTMO writes a kind-6 record. -/
  | bargTimeout (group : Nat)
  /-- BLOCK_STALLED (R311): A stall lasting BSTALL cycles writes one kind-7 record. -/
  | blockStalled (block : Nat)
  /-- NEAR_PROBE (R178): The home processes a NEAR-read probe, computes the lag and updates the stale counters. -/
  | nearProbe (id : Nat)
  /-- LINE_EVICTION (R260): A Larder line is evicted, and only its dirty bytes are written back to home. -/
  | lineEviction (cluster : Nat) (line : Nat)
  /-- BALLOC_ANSWER (R215): The cluster unit answers a spanning block's BALLOC, and the instruction writes sd. -/
  | ballocAnswer (group : Nat)
  /-- FAULT_RECORD_DRAIN (R307): A record that waited for room is written once room exists. -/
  | faultRecordDrain (tenant : Nat)
  /-- BARRIER_ARRIVAL_RECEIVE (R192): An arrival or exit reaches the cluster unit or the Hall that holds a spanning block's or a launch's barrier object, which then applies R190 in its own cycle. -/
  | barrierArrivalReceive (id : Nat)
  /-- HOST_TRANSFER_COMPLETE (R332): The Hall transfer engine finishes a HOST item's 4 KiB; when the last byte of the COPY is performed, its completion record is written. -/
  | hostTransferComplete (id : Nat)
  /-- BRIDGE_REQUEST_RECEIVE (R333): The bridge receives a host-window access or an interrupt message from another device of its group and issues it on PCI Express with the proper PASID. -/
  | bridgeRequestReceive (p : BridgePacket)
  /-- LINK_TRAINING (R329): A fabric port completes link training and its UP bit is set, after which it carries flits. -/
  | linkTraining (port : Nat)
  deriving DecidableEq, Repr

end Sys2Proof
end

