-- ==== Sys2Proof/Machine/Classes.lean ====
section
/-! DEFINITION. What the pickers need to know of an instruction: its effective timing class (R86, R95,
R98) and the uniform registers that a uniform instruction reads (R46). -/

namespace Sys2Proof.Machine

/-- The minimum class of an instruction (R95, R98). -/
def minClass (i : Instr) : Nat :=
  match i with
  | .mul _ _ _ _ => 2
  | .mulhi _ _ _ _ => 2
  | .mulhiu _ _ _ _ => 2
  | .mad _ _ _ _ => 2
  | .div _ _ _ _ => 3
  | .divu _ _ _ _ => 3
  | .rem _ _ _ _ => 3
  | .remu _ _ _ _ => 3
  | .fadd _ _ _ _ => 1
  | .fsub _ _ _ _ => 1
  | .fmul _ _ _ _ => 2
  | .fmin _ _ _ _ => 1
  | .fmax _ _ _ _ => 1
  | .ffma _ _ _ _ => 2
  | .fseq _ _ _ _ => 1
  | .fslt _ _ _ _ => 1
  | .fsle _ _ _ _ => 1
  | .fsun _ _ _ _ => 1
  | .hadd2 _ _ _ _ => 1
  | .hmul2 _ _ _ _ => 2
  | .hfma2 _ _ _ _ => 2
  | .hmax2 _ _ _ _ => 1
  | .frcp _ _ _ => 3
  | .frsq _ _ _ => 3
  | .fex2 _ _ _ => 3
  | .flg2 _ _ _ => 3
  | .fdiv _ _ _ _ => 3
  | .fsqrt _ _ _ => 3
  | .fscl _ _ _ _ => 1
  | .ffrc _ _ _ => 1
  | .cvtF32S32 _ _ _ => 1
  | .cvtS32F32 _ _ _ => 1
  | .cvtF32Bf16 _ _ _ => 1
  | .cvtBf16F32 _ _ _ _ => 1
  | .cvtE4m3F32 _ _ _ => 1
  | .cvtF32E4m3 _ _ _ => 1
  | .cvtE5m2F32 _ _ _ => 1
  | .cvtF32E5m2 _ _ _ => 1
  | .scacc _ _ _ _ => 2
  | .scacc2 _ _ _ _ => 2
  | .qnt8 _ _ _ _ => 2
  | .qnte4 _ _ _ _ => 2
  | .dp4 _ _ _ _ => 2
  | .dp4u _ _ _ _ => 2
  | .dp2h _ _ _ _ => 2
  | .trnQ _ _ _ _ => 1
  | .trnPk _ _ _ => 1
  | .trnUp _ _ _ => 1
  | .trnDg _ _ _ _ => 1
  | .trnChk4 _ _ _ => 1
  | .trnZ4 _ _ _ => 1
  | _ => 0

/-- The class that a word requests (R83, R86). -/
def requestedClass (w : BitVec 32) : Nat := (w.extractLsb' 29 2).toNat

/-- The effective class: the larger of the requested and the minimum class (R86). -/
def effClass (i : Instr) (w : BitVec 32) : Nat := Nat.max (requestedClass w) (minClass i)

/-- A uniform pair. -/
def uniPair (r : Nat) : List Nat := [r, r + 1]

/-- The registers s[sp] to s[sp+15] of a parameter block (R100, R221). -/
def uniBlock (sp : BitVec 8) : List Nat :=
  let p := sp.toNat
  [p, p + 1, p + 2, p + 3, p + 4, p + 5, p + 6, p + 7, p + 8, p + 9, p + 10, p + 11, p + 12, p + 13,
    p + 14, p + 15]

/-- The uniform registers that a uniform instruction reads (R46). -/
def uniSources (i : Instr) : List Nat :=
  match i with
  | .uadd _ _ sa sb => [sa.toNat, sb.toNat]
  | .usub _ _ sa sb => [sa.toNat, sb.toNat]
  | .uand _ _ sa sb => [sa.toNat, sb.toNat]
  | .uor _ _ sa sb => [sa.toNat, sb.toNat]
  | .uxor _ _ sa sb => [sa.toNat, sb.toNat]
  | .umul _ _ sa sb => [sa.toNat, sb.toNat]
  | .umin _ _ sa sb => [sa.toNat, sb.toNat]
  | .umax _ _ sa sb => [sa.toNat, sb.toNat]
  | .uaddi _ _ sa _ => [sa.toNat]
  | .ushi _ _ sa _ _ => [sa.toNat]
  | .umovh _ sd _ => [sd.toNat]
  | .ucmp _ _ _ sa sb => [sa.toNat, sb.toNat]
  | .uwrsr _ sa _ => [sa.toNat]
  | .hpois _ sa => [sa.toNat]
  | .fattach _ sa => [sa.toNat]
  | .fdetach _ sa => [sa.toNat]
  | .uhput _ sa _ => [sa.toNat]
  | .uld32 _ _ p _ _ => uniPair (2 * p.toNat)
  | .uld64 _ _ p _ _ => uniPair (2 * p.toNat)
  | .ust32 _ sa p _ _ => sa.toNat :: uniPair (2 * p.toNat)
  | .ust64 _ sa p _ _ => uniPair sa.toNat ++ uniPair (2 * p.toNat)
  | .pan _ sp _ => uniBlock sp
  | .grn _ sp _ => uniBlock sp
  | .cpy _ sp _ => uniBlock sp
  | .gatNear _ sp _ => uniBlock sp
  | .gatHome _ sp _ => uniBlock sp
  | .sct _ sp _ => uniBlock sp
  | .fab _ sp _ => uniBlock sp
  | .lnchSucc _ sa _ => uniPair sa.toNat
  | .lnchLmode _ sa _ => uniPair sa.toNat
  | .lnchCancel _ sa _ => [sa.toNat]
  | .binitCount _ sa _ => [sa.toNat]
  | .upark _ sa _ => [sa.toNat]
  | _ => []

end Sys2Proof.Machine
end

