-- ==== Sys2Proof/Machine/Maps.lean ====
section
/-! DEFINITION. Sparse maps and byte memories as plain lists in one canonical form: keys strictly
rising, and, where a default value is fixed, no entry equal to it. -/

namespace Sys2Proof.Machine

/-- A map from numbers: pairs with strictly rising keys. -/
abbrev NMap (α : Type) := List (Nat × α)

/-- The entry at a key, if there is one. -/
def NMap.find {α : Type} (m : NMap α) (k : Nat) : Option α :=
  match m with
  | [] => none
  | (j, x) :: rest => if k = j then some x else NMap.find rest k

/-- The entry at a key, or a default. -/
def NMap.getD {α : Type} (m : NMap α) (k : Nat) (d : α) : α := (m.find k).getD d

/-- Sets the entry at a key. -/
def NMap.set {α : Type} (m : NMap α) (k : Nat) (x : α) : NMap α :=
  match m with
  | [] => [(k, x)]
  | (j, y) :: rest =>
    if k < j then (k, x) :: (j, y) :: rest
    else if k = j then (k, x) :: rest
    else (j, y) :: NMap.set rest k x

/-- Removes the entry at a key. -/
def NMap.erase {α : Type} (m : NMap α) (k : Nat) : NMap α :=
  match m with
  | [] => []
  | (j, y) :: rest => if k = j then NMap.erase rest k else (j, y) :: NMap.erase rest k

/-- Sets the entry at a key, or removes it when the value is the default. -/
def NMap.put {α : Type} [BEq α] (m : NMap α) (d : α) (k : Nat) (x : α) : NMap α :=
  if x == d then m.erase k else m.set k x

/-- Applies a function to every entry. -/
def NMap.mapVals {α : Type} (m : NMap α) (f : Nat → α → α) : NMap α :=
  m.map (fun p => (p.1, f p.1 p.2))

/-- The keys rise strictly. -/
def NMap.sorted {α : Type} : NMap α → Bool
  | [] => true
  | [_] => true
  | (j, _) :: (k, y) :: rest => decide (j < k) && NMap.sorted ((k, y) :: rest)

/-- A byte memory: the bytes that differ from 0, at strictly rising addresses. What an unlisted
address reads as is 0 (assumptions 1 and 2). -/
abbrev Memory := List Host.Cell

/-- What a byte that nothing has written reads as. -/
def Memory.unlisted : Byte := 0

/-- The byte at an address. -/
def Memory.read (m : Memory) (a : Nat) : Byte := NMap.getD m a Memory.unlisted

/-- Writes one byte, keeping the canonical form. -/
def Memory.write (m : Memory) (a : Nat) (b : Byte) : Memory :=
  if b = Memory.unlisted then NMap.erase m a else NMap.set m a b

/-- The `n` bytes from an address on, lowest first. -/
def Memory.readBytes (m : Memory) (a : Nat) : Nat → List Byte
  | 0 => []
  | n + 1 => m.read a :: Memory.readBytes m (a + 1) n

/-- Writes a list of bytes from an address on. -/
def Memory.writeBytes (m : Memory) (a : Nat) : List Byte → Memory
  | [] => m
  | b :: rest => Memory.writeBytes (m.write a b) (a + 1) rest

/-- The canonical form: addresses strictly rising and no entry that equals what an unlisted address
reads as. -/
def Memory.wf (m : Memory) : Bool := NMap.sorted m && m.all (fun p => p.2 != Memory.unlisted)

/-- A little-endian number from bytes (R5). -/
def leNat : List Byte → Nat
  | [] => 0
  | b :: rest => b.toNat + 256 * leNat rest

/-- The `n` little-endian bytes of a number (R5). -/
def leBytes (v : Nat) : Nat → List Byte
  | 0 => []
  | n + 1 => BitVec.ofNat 8 v :: leBytes (v / 256) n

/-- Replaces the element at a place of a list. -/
def setAt {α : Type} : List α → Nat → α → List α
  | [], _, _ => []
  | _ :: rest, 0, x => x :: rest
  | y :: rest, i + 1, x => y :: setAt rest i x

/-- Removes the element at a place of a list. -/
def removeAt {α : Type} : List α → Nat → List α
  | [], _ => []
  | _ :: rest, 0 => rest
  | y :: rest, i + 1 => y :: removeAt rest i

/-- The numbers `a`, `a + 1`, … (n of them). -/
def natRange (a : Nat) : Nat → List Nat
  | 0 => []
  | n + 1 => a :: natRange (a + 1) n

end Sys2Proof.Machine
end

