-- ==== Sys2Proof/Machine/State.lean ====
section
/-! DEFINITION. The state of the machine: every piece of state that the spec gives the Juosh J96, as
plain data, and the state right after reset. INVENTORY.md lists each piece with its rule. Fields that
are the model's own say so. -/

namespace Sys2Proof.Machine

/-! ### Registers and threads -/

/-- A lane, uniform or hatch register with its full/empty and poison bits (R48, R51). -/
structure Reg where
  val    : Word32
  full   : Bool
  poison : Bool
  deriving DecidableEq, Repr

/-- The register of R117: 0, full and clean. -/
def Reg.zero : Reg := ⟨0, true, false⟩

/-- What a BLOCKED thread waits on (R38). -/
inductive Wait where
  /-- registers of the thread and of its group that must be full (R46, R49, R50) -/
  | regs (lanes unis : List Nat)
  /-- a hatch that must be full (R130, R211) -/
  | hatch (h : Nat) (uniform : Bool)
  /-- an element of a Larder FIFO (R53) -/
  | fifoPop (bank : Nat) (ea : Word64)
  /-- room in a Larder FIFO (R168) -/
  | fifoPush (bank : Nat)
  /-- completion of a barrier phase (R189): whether the wait has reached the object (R192), where the
  thread goes on, and the barrier word -/
  | barrier (index : Nat) (phase : Bool) (reached : Bool) (next : Word64) (word : Word32)
  /-- its group's BARG (R194): where the thread goes on -/
  | barg (next : Word64)
  /-- a range of the scoreboard: core scratch or Larder scratch, the bytes, and whether the access
  writes (R179, R237) -/
  | range (core : Bool) (lo hi : Nat) (write : Bool)
  /-- an entry of the scoreboard (R179) -/
  | entry
  /-- the completion of its earlier accesses and fences (R168, R220) -/
  | engine
  /-- the completion at SYSTEM scope of writes to the host window (R168, R333) -/
  | system
  /-- an entry of the engine queue (R220) -/
  | queue
  /-- the reading of the CPY shape table (R231) -/
  | segmenter
  /-- an outstanding counter (R239) -/
  | counter (cls k : Nat)
  /-- the cluster unit's answer to a BALLOC: the object, the destination register, and the number of the
  arrival set's request (R215) -/
  | balloc (index sd req : Nat)
  deriving DecidableEq, Repr

/-- Why a thread is PARKED (R38). The number is that of the message to the Hall. -/
inductive Park where
  /-- an unhandled trap (R197) -/
  | trap (msg : Nat)
  /-- a translation fault: the ea or the fetch address, and whether it was a fetch (R315) -/
  | xlate (msg : Nat) (ea : Word64) (fetch : Bool)
  /-- UPARK and its code (R218) -/
  | upark (msg : Nat) (code : BitVec 12)
  /-- halted for the debugger (R350) -/
  | debug
  deriving DecidableEq, Repr

/-- The states of a thread (R38); DEFERRED counts the issue slots left (R56). -/
inductive TState where
  | unstarted
  | ready
  | deferred (left : Nat)
  | blocked (w : Wait)
  | parked (p : Park)
  | exited
  deriving DecidableEq, Repr

/-- A thread (R27, R38, R47, R187, R197). Threads are keyed by 16,384 × block + linear index. -/
structure Thread where
  pc       : Word64
  st       : TState
  wait     : Nat
  regs     : NMap Reg
  tepc     : Word64
  tcause   : Word32
  tval     : Word64
  stacklim : Word32
  privbase : Word32
  token    : Option (Nat × Bool)
  /-- the arrival on its way to a barrier's holder that is to set the token; 0 for none (R188, R192) -/
  tokenOp  : Nat
  /-- newest version of each row read or written: row address and stamp (R177) -/
  rowSeen  : List (Nat × Nat)
  deriving DecidableEq, Repr

/-- A group (R27, R208, R210, R238, R263). Groups are keyed by 2,048 × block + index. -/
structure Group where
  core    : Nat
  sregs   : NMap Reg
  preds   : BitVec 8
  hatches : NMap Reg
  gtag    : Word32
  /-- issue and retirement counts of the six engine classes, and sequences marked done (R238) -/
  iss     : NMap Nat
  ret     : NMap Nat
  done    : List (Nat × Nat)
  /-- Larder FIFOs that the group is attached to (R210) -/
  attach  : List Nat
  /-- timer of the group's BARG, and the unit at which its first waiting thread waits (R310) -/
  bargTmr : Option (Nat × Word64)
  deriving DecidableEq, Repr

/-- A named barrier object (R187, R310). `arr` and `rel` are the model's own: the fences of the
arrivals of the current and of the last completed phase (R191). -/
structure BarObj where
  count : Bool
  e     : Nat
  a     : Nat
  phase : Bool
  timer : Option Nat
  arr   : List Nat
  rel   : List Nat
  deriving DecidableEq, Repr

/-! ### Launches and items -/

/-- A launch packet (R115). -/
structure Packet where
  restartable : Bool
  cooperative : Bool
  prio    : Nat
  gen     : Nat
  entry   : Nat
  handler : Nat
  gridx   : Nat
  gridy   : Nat
  gridz   : Nat
  blockt  : Nat
  vregs   : Nat
  uregs   : Nat
  privw   : Nat
  lscr    : Nat
  cscr    : Nat
  bars    : Nat
  drain   : Nat
  args    : Nat
  parent  : Nat
  nsucc   : Nat
  nplace  : Nat
  succ    : Nat
  place   : List Nat
  rank    : List (BitVec 16)
  deriving DecidableEq, Repr

/-- What owns an item of the tree (R276). -/
inductive Owner where
  | block (launch lin : Nat)
  | restore (block : Nat)
  | launch (index : Nat)
  | engine (op part : Nat)
  | host (copy part : Nat)
  deriving DecidableEq, Repr

/-- Staging of an item's operand (R289, R302): units of its region. -/
inductive Staging where
  | none
  | begun (units : List Nat)
  | complete (units : List Nat)
  deriving DecidableEq, Repr

/-- An item (R276): its sixteen fields, its owner, its staging, and `p0`: the first
pass of a tail (R303), or the rows of a GAT or SCT that are done, one bit each (R243). -/
structure Item where
  f      : List (BitVec 16)
  owner  : Owner
  p0     : Nat
  stage  : Staging
  deriving DecidableEq, Repr

/-- How an item stands in its sluice (R281). -/
inductive Place where
  | normal
  | oversize
  | preempt
  deriving DecidableEq, Repr

/-- An item in a sluice with its rank (R281). `hold` marks a pending replicated launch (R290). -/
structure QItem where
  item  : Item
  rank  : BitVec 16
  place : Place
  hold  : Bool
  deriving DecidableEq, Repr

/-- A child entry of an inner sluice (R294). -/
structure Child where
  v     : Bool
  leaf  : Bool
  cls   : BitVec 6
  child : Nat
  lo    : Nat
  hi    : Nat
  deriving DecidableEq, Repr

/-- A sluice or a leaf (R278, R282, R294). Inner sluices are keyed 0 to 4,095 and leaf n 4,096 + n.
`d` is the depth in use, and `dNext` the one written last, which the next Hall cycle takes (R294). `popped`,
`ordinal` and `start` are the model's own: whether it has popped in this Hall cycle, the place of its last push in the
order of R280, 0 before the first, and how many items it held when the Hall cycle began (R279). -/
structure Sluice where
  en      : Bool
  tenant  : Nat
  prog    : Nat
  cap     : Nat
  b       : BitVec 16
  rwf     : Bool
  child   : NMap Child
  d       : Nat
  dNext   : Nat
  pmargin : BitVec 16
  items   : List QItem
  nwords  : NMap Word32
  tables  : NMap Word32
  popped  : Bool
  ordinal : Nat
  start   : Nat
  deriving DecidableEq, Repr

/-- An item that waits for the Hall cycle of its re-push (R280): its block, the rank that it keeps if it keeps one,
whether it enters the leaf of its route (R303, R305) or its tenant's top sluice, and the Hall cycle in which its wait
began. An item that an engine reset took out of its leaf has the seat that it keeps (R305): how it stood, and the items
that stood ahead of it. -/
structure Repush where
  block : Nat
  item  : Item
  rank  : Option (BitVec 16)
  leaf  : Bool
  since : Nat
  seat  : Option (Place × List Owner)
  deriving DecidableEq, Repr

/-- A move that a Hall cycle has granted and not yet applied (R279, R280): parent, child and item. -/
structure Move where
  parent : Nat
  child  : Nat
  item   : QItem
  deriving DecidableEq, Repr

/-- An engine operation (R220 to R238). -/
structure EngOp where
  block   : Nat
  group   : Nat
  cluster : Nat
  cls     : Nat
  home    : Bool
  handle  : Word32
  seq     : Nat
  pc      : Word64
  params  : List Word32
  /-- newest versions of rows that the members had seen (R233) -/
  rowSeen : List (Nat × Nat)
  /-- the shape table of a CPY: extents and strides, innermost first (R231) -/
  shape   : List (Nat × Int × Int)
  /-- items in all, pushed, and completed (R220, R238) -/
  parts   : Nat
  pushed  : Nat
  donePts : List Nat
  /-- the status that a FAB's status word receives (R235) -/
  status  : Nat
  deriving DecidableEq, Repr

/-! ### Memory operations in flight (the model's own form of R165 to R180) -/

/-- Where an access is performed (R166, R171). -/
inductive Site where
  | larder
  | home
  | fabricUnit
  | larderScratch
  | coreScratch
  | hostWindow
  deriving DecidableEq, Repr

/-- Registers that an operation will fill: of a thread or of a group (R48). -/
inductive Dest where
  | lanes (thread reg n : Nat)
  | unis (group reg n : Nat)
  deriving DecidableEq, Repr

/-- A row: physical addresses of its first byte and of its version word, log2 of its size, its tenant
and the entry of the tenant's table (R175). -/
structure RowRef where
  pa     : Nat
  ver    : Nat
  k      : Nat
  tenant : Nat
  entry  : Nat
  deriving DecidableEq, Repr

/-- The local bytes of a row instruction: an offset in a block's Larder or core scratch (R175). -/
structure LocRef where
  block : Nat
  core  : Bool
  off   : Nat
  deriving DecidableEq, Repr

/-- What an operation does when it is performed. -/
inductive MemAct where
  /-- `ro`: the page is mapped without write permission at both stages (R261) -/
  | load (site : Site) (addr size : Nat) (signed : Bool) (dst : Dest) (ro : Bool)
  | store (site : Site) (addr : Nat) (data : List Byte)
  | atom (site : Site) (addr : Nat) (wide : Bool) (op : Nat) (x n : Word64) (ret : Option Dest)
  | rowRead (near : Bool) (row : RowRef) (loc : LocRef)
  | rowWrite (op : Nat) (row : RowRef) (loc : LocRef)
  /-- a row write whose local bytes have been read and whose entry is released (R179) -/
  | rowData (op : Nat) (row : RowRef) (data : List Byte)
  /-- an atomic that the Hall's fabric atomic unit has begun: the bytes it read, and whether they were poisoned (R171) -/
  | hallAtom (addr : Nat) (wide : Bool) (op : Nat) (x n : Word64) (ret : Option Dest) (old : List Byte) (bad : Bool)
  /-- a write to the host window that has been posted and is yet to be followed by its zero-length read (R333) -/
  | hostFlush (addr : Nat)
  /-- a write to the host window whose zero-length read is outstanding (R333) -/
  | hostWait (addr : Nat)
  | fence (kind scope : Nat)
  | writeBack (line : Nat)
  | invalidate (line : Nat)
  /-- a sector on its way to the Larder (R260, R262), and whether its page is mapped without write
  permission at both stages (R261) -/
  | fill (sector : Nat) (readOnly : Bool)
  /-- home's response to a fill (R338): its bytes, the addresses of those that come poisoned, and the clusters whose
  reads may no longer join it -/
  | response (sector : Nat) (readOnly : Bool) (data : List Byte) (bad : List Nat) (barred : List Nat)
  | probe (row : RowRef) (served : Word32)
  | captured (dst : Dest) (val : Word32)
  | lrem (launch : Nat) (dst : Dest)
  | lmode (mode : Nat) (mask : Nat) (dst : Dest)
  /-- on its way to the holder of a barrier object (R192): an arrival of `n`, whether it sets the
  thread's token, and whether the thread waits -/
  | arrival (index n : Nat) (token wait : Bool)
  /-- an exit on its way to the cluster unit, with the objects that count the thread, or to the launch barrier in the
  Hall (R193, R342) -/
  | leave (launch : Bool) (objs : List Nat)
  /-- a release on its way to a core (R192, R343) -/
  | release (index : Nat)
  deriving DecidableEq, Repr

/-- An operation issued and not yet performed. `deps` are the operations it must follow; `slot`
names the issue slot it came from (R169); `begun` says that another part of its access has been performed (R316). -/
structure MemOp where
  id      : Nat
  block   : Nat
  tenant  : Nat
  cluster : Nat
  core    : Nat
  members : List Nat
  slot    : Nat
  act     : MemAct
  deps    : List Nat
  begun   : Bool
  deriving DecidableEq, Repr

/-- An entry of the range scoreboard (R264) and the operation that holds it. -/
structure RsbEnt where
  block : Nat
  core  : Bool
  lo    : Nat
  hi    : Nat
  write : Bool
  memOp : Option Nat
  engOp : Option Nat
  deriving DecidableEq, Repr

/-! ### Blocks, cores and clusters -/

/-- Residence of a block: running, draining for a victim's exit, being saved, saved, or restored
and not yet run. -/
inductive BlockSt where
  | running
  | draining
  | saving
  | saved
  deriving DecidableEq, Repr

/-- A block (R31 to R37, R187, R259, R321). -/
structure Block where
  launch  : Nat
  tenant  : Nat
  lin     : Nat
  packet  : Packet
  item    : Item
  rank    : BitVec 16
  cluster : Nat
  /-- the core that holds a single-core block; none for a spanning block (R35) -/
  core    : Option Nat
  age     : Nat
  st      : BlockSt
  /-- issue slots of the block on each core (R42) -/
  slots   : NMap Nat
  lmem    : Memory
  cmem    : Memory
  /-- bank group of each aligned 512 bytes of Larder scratch (R259) -/
  lparts  : List Nat
  objs    : NMap BarObj
  /-- objects parked in the 64-entry table, and in the save pool (R320) -/
  parkedTab  : List Nat
  parkedPool : List Nat
  /-- saved ranges of the scoreboard entries of frozen operations (R318) -/
  ranges     : List RsbEnt
  /-- NOW at admission (R288) -/
  since   : Nat
  stall   : Nat
  stallRep : Bool
  deriving DecidableEq, Repr

/-- A gang in its gathering cycles (R254): block, P1, port B's PC, threads of each port, whether
its slot is an override slot, the threads that were eligible, cycles left. -/
structure Held where
  block : Nat
  pc1   : Word64
  pc2   : Option Word64
  laneA : List Nat
  laneB : List Nat
  override : Bool
  eligible : List Nat
  left  : Nat
  /-- the words of its units as they were fetched when it was formed (R85), by address -/
  words : List (Word64 × Word32)
  deriving DecidableEq, Repr

/-- A core (R54 to R59, R246, R248, R251, R349, R351). -/
structure Core where
  cycle   : Word64
  etime   : Word64
  /-- the carried fraction of T, in units of 0.625 ps (R248) -/
  frac    : Nat
  /-- classes of the units in X2 and X3 of the next cycle (R246) -/
  x2      : Nat
  x3      : Nat
  mode    : Bool
  runLen  : Nat
  k       : Nat
  run     : Nat
  grant   : Nat
  floorQ  : List Nat
  ufloorQ : List Nat
  active  : List Nat
  held    : Option Held
  /-- issue slots so far (the model's own name for a slot) -/
  slot    : Nat
  lcren   : Bool
  dmode   : Bool
  dstep   : Bool
  dbgsel  : Word32
  cmpAddr : NMap Word64
  cmpCtl  : NMap Word32
  rngBase : NMap Word64
  rngLim  : NMap Word64
  lcr     : NMap Nat
  deriving DecidableEq, Repr

/-- A row copy (R177): the row's address, its tenant's row and version, its place in the order of row
writes, and its image. -/
structure RowCopy where
  row   : RowRef
  ver   : Word32
  stamp : Nat
  image : List Byte
  deriving DecidableEq, Repr

/-- What a Pan or a Grainer holds (R295, R300, R303, R304): the item, its rank, the next step, engine
cycles since the pop, cycles since the last step, a marked yield, and the running sums of MM.BF16. A tail that awaits
its re-push stands among the re-pushes. -/
structure EngRun where
  item   : Item
  rank   : BitVec 16
  pass   : Nat
  step   : Nat
  busy   : Nat
  idle   : Nat
  yield  : Bool
  sums   : NMap Word32
  deriving DecidableEq, Repr

/-- What the copy engine holds (R17, R232 to R234): the item with its rank, the bytes of a segment or the rows
still to be read or done by number, and the bytes that have been read, each with the address that it goes to. -/
structure CopyRun where
  item : Item
  rank : BitVec 16
  todo : List Nat
  writes : List (Nat × Byte)
  deriving DecidableEq, Repr

/-- A waiting reading of a shape table (R231), the members whose release it follows, and its answer. -/
structure SegReq where
  group  : Nat
  pc     : Word64
  members : List Nat
  params : List Word32
  answer : Option (List (Nat × Int × Int))
  deriving DecidableEq, Repr

/-- What a block that has left a cluster left in its scratch (R321): the core whose core scratch it was, or none for
Larder scratch with the bank groups of its parts (R259). -/
structure Freed where
  tenant : Nat
  core   : Option Nat
  parts  : List Nat
  bytes  : Memory
  deriving DecidableEq, Repr

/-- A cluster (R17, R168, R210, R220, R258 to R264, R301, R304). -/
structure Cluster where
  /-- bank modes that differ from reset (R258) -/
  lmode   : NMap Nat
  /-- CACHE-mode bytes: value and dirty mark, by physical address (R260) -/
  cache   : NMap (Byte × Bool)
  /-- addresses of CACHE-mode bytes that came poisoned (R16, R164) -/
  tainted : List Nat
  rows    : List RowCopy
  /-- instruction-fetch copies: words by physical address (R85, R180) -/
  icopy   : NMap Word32
  /-- the peer prediction table of R261: peer cluster by Ln[7:0] -/
  predict : NMap Nat
  fifo    : NMap (List Word32)
  attached : NMap Nat
  rsb     : List RsbEnt
  engQ    : List Nat
  segReqs : List SegReq
  stgp    : Word32
  stgg    : Word32
  wdog    : BitVec 16
  grResets : Nat
  pnResets : Nat
  /-- engine cycles left of a reset (R305) -/
  pnRst   : Nat
  grRst   : Nat
  pan     : Option EngRun
  grn     : Option EngRun
  copy    : Option CopyRun
  /-- staged bytes by region unit: the Pan's units from 0 on and the Grainer's from 64 on (R302) -/
  staged  : NMap Memory
  /-- what blocks that have left the cluster left in their scratch (R321) -/
  freed   : List Freed
  deriving DecidableEq, Repr

/-! ### The Hall -/

/-- A launch barrier (R342, R343): its counts, the clusters that a release has still to be sent to, and the Hall cycle from
which the next of them are. -/
structure LaunchBar where
  e     : Nat
  a     : Nat
  phase : Bool
  sending : List Nat
  sendPhase : Bool
  next  : Nat
  timer : Option Nat
  /-- E has reached 0 and has completed a phase (R193) -/
  spent : Bool
  deriving DecidableEq, Repr

/-- Where a launch packet comes from and where its refusal is reported (R353). -/
inductive PktPath where
  /-- an AQI LAUNCH request: AQI, TAG, completion record VA, device mask -/
  | aqi (a : Nat) (tag : Word32) (compl : Nat) (mask : Nat)
  | successor (launch : Nat)
  | parlour
  deriving DecidableEq, Repr

/-- An entry of the completion table (R30): level 0 launch, 1 graph, 2 phase, 3 job. -/
structure Entry where
  level   : Nat
  tenant  : Nat
  counter : Word32
  parent  : Nat
  failed  : Bool
  live    : Bool
  /-- cancelled: nothing beneath is admitted again (R33) -/
  cancelled : Bool
  packet  : Option Packet
  bound   : Word32
  /-- successor slots: the VA, 0 when empty (R240) -/
  succ    : List Nat
  barrier : Option LaunchBar
  /-- the AQI request that the launch's placement completes (R285, R332) -/
  reply   : Option PktPath
  deriving DecidableEq, Repr

/-- An expansion slot (R285): launch, order of its pop, next block, cluster table. -/
structure Slot where
  launch : Nat
  age    : Nat
  next   : Nat
  table  : List Nat
  deriving DecidableEq, Repr

/-- A fault record (R307), in its own fields. -/
structure FaultRec where
  kind   : Nat
  acc    : Nat
  cause  : Nat
  ten    : Nat
  nmrg   : Nat
  tag    : Nat
  addr   : Nat
  launch : Nat
  block  : Nat
  group  : Nat
  lane   : Nat
  set    : Bool
  gtag   : Word32
  pc     : Word64
  handle : Word32
  info   : Word32
  info2  : Word64
  deriving DecidableEq, Repr

/-- What an answer to a record acts on (R308). -/
inductive Answerable where
  /-- the parked threads of these messages, and engine items set aside with their ranks (kinds 1 to 4) -/
  | agents (msgs : List Nat) (items : List (Item × BitVec 16))
  /-- a block to kill (kinds 5, 6, 7) -/
  | block (id : Nat)
  /-- a killed block that awaits its relaunch (kind 10): launch, linear index, item -/
  | relaunch (launch lin : Nat) (item : Item)
  deriving DecidableEq, Repr

/-- An unanswered record (R308, R315): the queue's tenant, its TAG, what merges into it, and what an
answer acts on. -/
structure OpenRec where
  queue  : Nat
  tag    : Nat
  kind   : Nat
  tenant : Nat
  region : Nat
  block  : Nat
  what   : Answerable
  deriving DecidableEq, Repr

/-- A translation fault on its way to the Hall (R243, R315). -/
structure FaultMsg where
  id     : Nat
  fault  : FaultRec
  stage  : Nat
  engine : Option (Item × BitVec 16)
  block  : Nat
  deriving DecidableEq, Repr

/-- An entry of a tenant's row table (R272). -/
structure RowEntry where
  base  : Nat
  limit : Nat
  verBase : Nat
  valid : Bool
  k     : Nat
  near  : Nat
  stale : Nat
  lag1  : Nat
  lag2  : Nat
  lag4  : Nat
  lag16 : Nat
  deriving DecidableEq, Repr

/-- A tenant's registers, row table, replication count and fault queue (R272, R290, R293, R306,
R335). -/
structure Tenant where
  fqbase  : Nat
  fqen    : Bool
  log2n   : Nat
  prod    : Nat
  cons    : Nat
  waited  : Bool
  recs    : Nat
  waiting : List FaultRec
  /-- the record being written to the host window, as the number of its operation (R307, R333) -/
  writing : Option Nat
  bartmo  : Word32
  bstall  : Word32
  trBusy  : Bool
  s1root  : Nat
  s2root  : Nat
  savebase : Nat
  savesize : Nat
  tlbiva  : Nat
  tlbBusy : Bool
  /-- the KIND and PAGE of the invalidation in progress (R306, R314) -/
  tlbKind : Nat
  tlbPage : Nat
  ttopV   : Bool
  ttop    : Nat
  rows    : NMap RowEntry
  genOut  : Word32
  hpasid  : BitVec 20
  deriving DecidableEq, Repr

/-- A TLB entry (R314): level (cluster c as c, die d as 1,000 + d), tenant, stage, first address,
log2 of the size, output address and permission bits XWR. -/
structure TlbEnt where
  unit   : Nat
  tenant : Nat
  stage  : Nat
  base   : Nat
  size   : Nat
  out    : Nat
  perm   : BitVec 3
  deriving DecidableEq, Repr

/-- A request in an AQI's queue (R331), with the mark of its arrival and the tenant that it is queued for. -/
structure AqiReq where
  arrived : Nat
  kind   : Nat
  tenant : Nat
  bytes  : List Byte
  deriving DecidableEq, Repr

/-- An assignable queue interface (R331, R335); `busy` counts its requests that have started and not
completed. -/
structure Aqi where
  en     : Bool
  tenant : Nat
  lcode  : Nat
  count  : Nat
  pasid  : BitVec 20
  pas    : NMap (Bool × BitVec 20)
  queue  : List AqiReq
  busy   : Nat
  deriving DecidableEq, Repr

/-- An interrupt remapping entry (R335). -/
structure IrtEnt where
  v     : Bool
  mask  : Bool
  pend  : Bool
  pasid : BitVec 20
  vec   : BitVec 8
  deriving DecidableEq, Repr

/-- What the runner cores of completion records and interrupts have still to do (R344), in the order of its coming: a
completion record of an AQI to write, or one that has been written, once the writes of these operations are performed, to
announce (R332, R333); an event of an interrupt source (R334); or the message that an entry's PEND held when its MASK was
cleared. -/
inductive RunnerJob where
  | record (aqi tenant compl : Nat) (tag : Word32) (status info : Nat) (sent : Option (List Nat))
  | interrupt (src : Nat)
  | unmask (src : Nat) (e : IrtEnt)
  deriving DecidableEq, Repr

/-- An MSI-X message as it leaves the bridge (R330, R334): the table entry, the PASID of its prefix, and the address and the
data that the table held. -/
structure MsixMsg where
  vec   : Nat
  pasid : BitVec 20
  addr  : Word64
  data  : Word32
  deriving DecidableEq, Repr

/-- Registers of the Parlour's main core, an RV64GC core with an Sv48 MMU (R14; assumption 125): those of the RISC-V
family, with its control and status registers by number, SATP of the MMU among them. -/
structure MainHart where
  pc  : Word64
  x   : NMap Word64
  f   : NMap Word64
  csr : NMap Word64
  deriving DecidableEq, Repr

/-- Registers of a runner core, an RV32E core (R14; assumption 125). -/
structure RunnerHart where
  pc  : Word32
  x   : NMap Word32
  csr : NMap Word32
  deriving DecidableEq, Repr

/-- A launch packet that waits to be read (R353), or to be pushed: what a successor's packet read as at the release is
held in `data` (R240), `some none` where it was unreadable. A packet handed on by an AQI's request may name devices. -/
structure PktRead where
  path   : PktPath
  tenant : Nat
  va     : Nat
  bound  : Word32
  data   : Option (Option (List Byte))
  deriving DecidableEq, Repr

/-- A replicated launch of this issuer (R290): tenant, GEN, devices still to answer, devices of the
set, the request's path. -/
structure Replica where
  tenant : Nat
  gen    : Word32
  left   : List Nat
  set    : List Nat
  path   : PktPath
  launch : Nat
  deriving DecidableEq, Repr

/-- A pending launch of a replicated packet held at the root (R290). -/
structure PendingLaunch where
  issuer : Nat
  tenant : Nat
  gen    : Word32
  launch : Nat
  deriving DecidableEq, Repr

/-- A COPY request (R332) under way. -/
structure HostCopy where
  id     : Nat
  aqi    : Nat
  tenant : Nat
  tag    : Word32
  compl  : Nat
  src    : Nat
  dst    : Nat
  bytes  : Nat
  prio   : Nat
  bound  : Word32
  pushed : Nat
  left   : Nat
  failed : Bool
  deriving DecidableEq, Repr

/-- The item that the Hall transfer engine is running (R332) and the bytes it has read; once they are written, whether
that failed and the writes to the host window that are still to be performed (R333). -/
structure HostRun where
  copy : Nat
  part : Nat
  data : List Byte
  sent : Option (Bool × List Nat)
  deriving DecidableEq, Repr

/-- What the transaction layer sends (R323 to R326): a numbered packet; or, for the packet `num` that device `dest`
sent to device `from_`, its end-to-end acknowledgement, the data of a GET, or a retry request. -/
inductive FabMsg where
  | request (p : FabPacket)
  | ack (dest from_ num status : Nat)
  | getData (dest from_ num : Nat) (data : List Byte)
  | retry (dest from_ num : Nat)
  deriving DecidableEq, Repr

/-- A memory request that the bridge issues on PCI Express with a PASID (R333): a write of bytes, or a read of `n`
bytes; a read of none is the zero-length read. -/
inductive PcieReq where
  | write (addr : Nat) (pasid : BitVec 20) (data : List Byte)
  | read (addr : Nat) (pasid : BitVec 20) (n : Nat)
  deriving DecidableEq, Repr

/-- What a packet of the Hall's own belongs to (the model's own): nothing that waits for it, the write to the host window
of an operation (R333), or the message of an interrupt source (R334). -/
inductive PktTag where
  | none
  | write (id : Nat)
  | msg (src : Nat)
  deriving DecidableEq, Repr

/-- A packet held until the destination acknowledges it end to end (R326), and the item of a FAB that it carries out. -/
structure HeldPkt where
  packet  : FabPacket
  work    : Option (Item × BitVec 16)
  resends : Nat
  tag     : PktTag
  deriving DecidableEq, Repr

/-- A flit of the send window (R324). -/
structure WinFlit where
  seq  : BitVec 12
  flit : Flit
  deriving DecidableEq, Repr

/-- A fabric port (R323 to R325, R329). -/
structure Port where
  up      : Bool
  nextSeq : BitVec 12
  expSeq  : BitVec 12
  window  : List WinFlit
  queue   : List Flit
  buffer  : List Flit
  /-- packets being assembled, per VC (R323) -/
  asm     : NMap (List (List Byte))
  /-- packets assembled and handed to the transaction layer -/
  packets : List (List (List Byte))
  /-- a packet discarded up to its last flit, per VC (R325) -/
  skip    : List Nat
  wire    : List Flit
  crcerr  : Nat
  replay  : Nat
  tomb    : Nat
  deriving DecidableEq, Repr

/-- A debug record (R350, R352). -/
structure DebugRec where
  kind  : Nat
  core  : Nat
  block : Nat
  group : Nat
  lane  : Nat
  gtag  : Word32
  pc    : Word64
  arg   : List Nat
  deriving DecidableEq, Repr

/-- An entry of the Parlour's log. -/
inductive LogEntry where
  /-- a register access error: requester and offset (R8, R22) -/
  | regError (req off : Nat)
  /-- a host write that the policy refused (R23, R345) -/
  | hostRefused (off : Nat)
  /-- a register write that its own rule refuses and logs -/
  | regRefused (off : Nat)
  /-- an engine hang: cluster, Grainer, handle (R304) -/
  | hang (cluster : Nat) (grainer : Bool) (handle : Word32)
  /-- an interrupt message dropped: its source (R334) -/
  | irtDrop (source : Nat)
  /-- a Parlour launch refused: status (R353) -/
  | launchRefused (status : Nat)
  /-- a successor refused, recorded against the launch (R240) -/
  | succRefused (launch status : Nat)
  /-- a debug record (R350) -/
  | debug (r : DebugRec)
  deriving DecidableEq, Repr

/-- The security and management state of the Hall (R25, R26, R339, R341, R346, R347, R349). -/
structure Sec where
  bridge   : Bool
  devLock  : Bool
  devnum   : BitVec 6
  pwrlim   : Nat
  avg      : Nat
  temp     : Nat
  step     : Nat
  slew     : Nat
  locked   : Bool
  erased   : Bool
  keyerase : Bool
  fuseDbg  : Bool
  boot     : Nat
  src      : BitVec 2
  dbgen    : Bool
  /-- the fused SHA-512 digest of the public key of boot images, and the identity key of the security block -/
  keyHash  : BitVec 512
  key      : Option Nat
  digests  : List (BitVec 512)
  rollback : BitVec 32
  attBusy  : Bool
  attErr   : Bool
  attAlarm : Bool
  attaddr  : Nat
  /-- PMBus board strap, the last answer (none: NACK), and what the IEEE 1149.1 port last shifted
  out -/
  pmStrap  : Nat
  pmOut    : Option (BitVec 16)
  jtag     : List Bool
  deriving DecidableEq, Repr

/-- The scheduling tree and the completion table (R278, R284, R285, R293, R318). -/
structure Tree where
  sluices : NMap Sluice
  progs   : NMap (List Word32)
  heat    : NMap Nat
  saverate : Nat
  nsel    : Word32
  slots   : NMap Slot
  entries : NMap Entry
  nextEntry : Nat
  reads   : List PktRead
  cycle   : Nat
  /-- the model's own: an expansion slot has pushed in this Hall cycle (R285) -/
  expanded : Bool
  /-- the Hall's frozen list (R318): block, item and rank -/
  frozen  : List (Nat × QItem)
  /-- items that wait for the Hall cycle of their re-push (R280) -/
  repush  : List Repush
  /-- the Hall cycle has made its pops and applies its pushes; the moves it has granted and not yet applied; and the
  leaves, with the root, whose unit had requested a pop when it began (R280) -/
  pushing : Bool
  moving  : List Move
  asks    : List Nat
  /-- completions of launch barriers that wait for START, with the phase that completed, and the Hall cycle in which the
  last interval sent ends (R343) -/
  completions : List (Nat × Bool)
  sendFree : Nat
  /-- cancels requested and not yet in effect (R33, R242): tenant, level, index -/
  cancels  : List (Nat × Nat × Nat)
  replicas : List Replica
  pendings : List PendingLaunch
  seenGen : List (Nat × Nat × Word32)
  deriving DecidableEq, Repr

/-- The fabric and host side of the Hall (R323 to R335). -/
structure Io where
  ports   : NMap Port
  peer    : NMap Word32
  froute  : NMap Word32
  bridgeDev : Nat
  retry   : Nat
  tmo     : Nat
  pktNum  : NMap Nat
  held    : List HeldPkt
  waitPkts : List HeldPkt
  performed : NMap (List Nat)
  out     : List FabMsg
  aqis    : NMap Aqi
  irt     : NMap IrtEnt
  /-- MSI-X messages sent by the bridge (R334) -/
  msix    : List MsixMsg
  /-- requests that the bridge issued on PCI Express (R333) -/
  pcieOut : List PcieReq
  copies  : List HostCopy
  hostRun : Option HostRun
  /-- registers of the Parlour's main core and of its six runner cores (R14; assumption 125) -/
  mainHart : MainHart
  runnerHarts : NMap RunnerHart
  /-- the six runner cores that work, and what those of completion records and interrupts have still to do (R344) -/
  runners : List Bool
  jobs    : List RunnerJob
  /-- messages of interrupt sources that follow others still under way to the bridge (R334): source, vector and PASID -/
  msgs    : List (Nat × Nat × BitVec 20)
  /-- the MSI-X table of BAR4, 256 entries of four words, and its pending-bit array, each pending bit with the PASID of
  the message that it holds (R330; assumption 127) -/
  msixTable : NMap Word32
  msixPend  : NMap (BitVec 20)
  deriving DecidableEq, Repr

/-- Fault records open and under way, the log, and register halves held or latched (R7, R8, R308). -/
structure Desk where
  open_   : List OpenRec
  msgs    : List FaultMsg
  /-- threads of blocks that are being saved or are saved, whose answer takes effect at the restore: RESUME or not
  (R315) -/
  late    : List (Nat × Bool)
  log     : List LogEntry
  /-- a held low word: requester, offset, value (R7) -/
  heldLow : NMap (Nat × Word32)
  /-- a latched high word: requester, offset of the high word, value (R7) -/
  latched : NMap (Nat × Word32)
  /-- the last value that each requester read -/
  reads   : NMap Word32
  deriving DecidableEq, Repr

/-! ### The core cycle under way (the model's own) -/

/-- A unit that is to be executed in the current core cycle: port 0 is A, 1 is B and 2 the uniform
pipe. `lanes` are its threads in lane-number order (R169). `word` and `modWord` are the words fetched;
`cls` is the unit's effective class. -/
structure Issue where
  port    : Nat
  block   : Nat
  pc      : Word64
  wordAddr : Word64
  lanes   : List Nat
  word    : Word32
  modWord : Option Word32
  limm    : Option (BitVec 23)
  cls     : Nat
  deriving DecidableEq, Repr

/-- A hatch operation of the cycle (R132): group, hatch; a put carries its order and value. -/
inductive HatchOp where
  | take (group h : Nat)
  | put (group h : Nat) (order : Nat) (val : Word32)
  | poison (group h : Nat)
  deriving DecidableEq, Repr

/-- What the end of the cycle performs: a write of a uniform special register (R208, R210), or the installing of an
engine operation's range (R220). -/
inductive LateOp where
  | gtag (group : Nat) (val : Word32)
  | attach (group cluster bank : Nat) (on : Bool)
  | range (e : RsbEnt)
  deriving DecidableEq, Repr

/-- The core cycle under way: the units still to execute, the groups as they stood at its start, and
what its end applies. -/
structure Cyc where
  core    : Nat
  todo    : List Issue
  snap    : NMap Group
  hops    : List HatchOp
  issued  : List Nat
  uissued : List Nat
  exiting : List Nat
  classes : List Nat
  block   : Option Nat
  eligible : List Nat
  pc1     : Word64
  override : Bool
  /-- threads whose wait counts run in this cycle unless they issue (R47): at lane instructions, and at
  uniform ones -/
  laneWait : List Nat
  uniWait : List Nat
  /-- threads that the pickers took (R57), those of the cycle's gang (R351), threads that stood stopped at the start
  (R351), and those that stood at a uniform instruction with full sources (R54) -/
  picked  : List Nat
  placed  : List Nat
  stopped : List Nat
  uniFull : List Nat
  /-- what the end of the cycle performs (R208, R220) -/
  late    : List LateOp
  /-- the words of a gang that has gathered its operands, by address (R85) -/
  words   : List (Word64 × Word32)
  /-- the free choice of this cycle's fetches (R85) -/
  seed    : Nat
  deriving DecidableEq, Repr

/-- Who acts next (the model's own): an event of the opcode table, a core cycle, a Hall cycle, a cycle of a
cluster's units, an error that the ECC of device memory finds in the sector of an address, one that it
corrects or one that it cannot (R16), a cluster's instruction fetch that copies a word ahead of its use
(R85), a runner core that stops, in the middle of the oldest item under way or not (R344), a host access to a word of the
MSI-X table or, as word 4, to a pending bit (R330), or what the firmware of the Parlour's cores does to their registers
(R14, R344). -/
inductive Turn where
  | event (i : Instr)
  | core (c : Nat)
  | hall
  | cluster (c : Nat)
  | ecc (pa : Nat) (corrected : Bool)
  | fetchCopy (cluster pa : Nat)
  | runnerStop (runner : Nat) (half : Bool)
  | bar4 (entry word : Nat) (value : Option Word32)
  | mainHart (h : MainHart)
  | runnerHart (runner : Nat) (h : RunnerHart)
  deriving DecidableEq, Repr, Inhabited

/-- The whole machine. -/
structure State where
  threads  : NMap Thread
  groups   : NMap Group
  blocks   : NMap Block
  cores    : NMap Core
  clusters : NMap Cluster
  tenants  : NMap Tenant
  tree     : Tree
  ops      : NMap EngOp
  io       : Io
  desk     : Desk
  sec      : Sec
  /-- device memory by physical address (R256) -/
  mem      : List Host.Cell
  /-- addresses of the poisoned bytes of device memory (R16, R164) -/
  poison   : List Nat
  /-- corrected single-bit errors of each HBM4 controller, by the stack that it serves (R15, R16) -/
  eccCount : NMap Nat
  tlb      : List TlbEnt
  inflight : List MemOp
  /-- row writes applied to each row so far, by the row's address: the model's own stamp for R177 -/
  rowSeq   : NMap Nat
  /-- the model's own: next identifier, next free value, age of the next block -/
  nextId   : Nat
  freeCtr  : Nat
  nextAge  : Nat
  turns    : List Turn
  cyc      : Option Cyc
  deriving DecidableEq, Repr

/-- Why a step stops with a fault: nothing does. Every outcome that the spec describes, traps, parked
threads, kills, the alarm lock and recovery included, is a next state. Safe. -/
inductive Fault where
  deriving DecidableEq, Repr

/-- Why an instruction has no meaning here. -/
inductive Refusal where
  /-- Raised by an arm of `exec` whose instruction the model does not have yet. Safe. -/
  | notModelled (mnemonic : String)
  deriving DecidableEq, Repr

/-! ### Reset values -/

/-- A core at reset (R58, R248, R251, R349, R351). -/
def Core.reset : Core where
  cycle := 0
  etime := 0
  frac := 0
  x2 := 0
  x3 := 0
  mode := true
  runLen := 32
  k := 0
  run := 0
  grant := 64
  floorQ := []
  ufloorQ := []
  active := []
  held := none
  slot := 0
  lcren := false
  dmode := false
  dstep := false
  dbgsel := 0
  cmpAddr := []
  cmpCtl := []
  rngBase := []
  rngLim := []
  lcr := []

/-- A cluster at reset (R258, R301, R304). -/
def Cluster.reset : Cluster where
  lmode := []
  cache := []
  tainted := []
  rows := []
  icopy := []
  predict := []
  fifo := []
  attached := []
  rsb := []
  engQ := []
  segReqs := []
  stgp := 0x0000_0428
  stgg := 0x0000_042C
  wdog := 0x0040
  grResets := 0
  pnResets := 0
  pnRst := 0
  grRst := 0
  pan := none
  grn := none
  copy := none
  staged := []
  freed := []

/-- A sluice or a leaf at reset (R294); the root is enabled with CAP 0x0FF. -/
def Sluice.reset (n : Nat) : Sluice where
  en := n == 0 || decide (4096 ≤ n)
  tenant := 0
  prog := 0
  cap := if n = 0 ∨ 4096 ≤ n then 0x0FF else 0
  b := 0
  rwf := false
  child := []
  d := 0
  dNext := 0
  pmargin := 0
  items := []
  nwords := []
  tables := []
  popped := false
  ordinal := 0
  start := 0

/-- A row-table entry at reset (R272). -/
def RowEntry.reset : RowEntry := ⟨0, 0, 0, false, 0, 0, 0, 0, 0, 0, 0⟩

/-- A tenant at reset (R293, R306, R335). -/
def Tenant.reset : Tenant where
  fqbase := 0
  fqen := false
  log2n := 6
  prod := 0
  cons := 0
  waited := false
  recs := 0
  waiting := []
  writing := none
  bartmo := 0x0400_0000
  bstall := 0x0400_0000
  trBusy := false
  s1root := 0
  s2root := 0
  savebase := 0
  savesize := 0
  tlbiva := 0
  tlbBusy := false
  tlbKind := 0
  tlbPage := 0
  ttopV := false
  ttop := 0
  rows := []
  genOut := 0
  hpasid := 0

/-- A fabric port at reset (R329; SEQ by assumption 6). -/
def Port.reset : Port := ⟨false, 0, 0, [], [], [], [], [], [], [], 0, 0, 0⟩

/-- An AQI at reset (R335). -/
def Aqi.reset : Aqi := ⟨false, 0, 0, 0, 0, [], [], 0⟩

/-- An interrupt remapping entry at reset (R335): MASK 1. -/
def IrtEnt.reset : IrtEnt := ⟨false, true, false, 0, 0⟩

/-- The tree at reset (R284, R293): every entry as its own reset gives. -/
def Tree.reset : Tree where
  sluices := []
  progs := []
  heat := []
  saverate := 0x2000
  nsel := 0
  slots := []
  entries := []
  nextEntry := 1
  reads := []
  cycle := 0
  expanded := false
  frozen := []
  repush := []
  pushing := false
  moving := []
  asks := []
  completions := []
  sendFree := 0
  cancels := []
  replicas := []
  pendings := []
  seenGen := []

/-- The main core's registers at reset (assumption 125). -/
def MainHart.reset : MainHart := ⟨0, [], [], []⟩

/-- A runner core's registers at reset (assumption 125). -/
def RunnerHart.reset : RunnerHart := ⟨0, [], []⟩

/-- The fabric and host side at reset (R329, R335). -/
def Io.reset : Io where
  ports := []
  peer := []
  froute := []
  bridgeDev := 0
  retry := 8
  tmo := 100
  pktNum := []
  held := []
  waitPkts := []
  performed := []
  out := []
  aqis := []
  irt := []
  msix := []
  pcieOut := []
  copies := []
  hostRun := none
  mainHart := MainHart.reset
  runnerHarts := []
  runners := [true, true, true, true, true, true]
  jobs := []
  msgs := []
  msixTable := []
  msixPend := []

/-- Records, log and register halves at reset. -/
def Desk.reset : Desk := ⟨[], [], [], [], [], [], []⟩

/-- The security and management state at reset (R25, R26, R339, R347; straps and fuses by
assumption 5). -/
def Sec.reset : Sec where
  bridge := false
  devLock := false
  devnum := 0
  pwrlim := 1800
  avg := 0
  temp := 0
  step := 0
  slew := 0
  locked := false
  erased := false
  keyerase := false
  fuseDbg := false
  boot := 0
  src := 0
  dbgen := false
  keyHash := 0
  key := none
  digests := []
  rollback := 0
  attBusy := false
  attErr := false
  attAlarm := false
  attaddr := 0
  pmStrap := 0
  pmOut := none
  jtag := []

/-- The machine right after reset: nothing resident, every register at its reset value, memory with
nothing listed. -/
def State.reset : State where
  threads := []
  groups := []
  blocks := []
  cores := []
  clusters := []
  tenants := []
  tree := Tree.reset
  ops := []
  io := Io.reset
  desk := Desk.reset
  sec := Sec.reset
  mem := []
  poison := []
  eccCount := []
  tlb := []
  inflight := []
  rowSeq := []
  nextId := 1
  freeCtr := 0
  nextAge := 0
  turns := []
  cyc := none

end Sys2Proof.Machine
end

