-- ==== Sys2Proof/Config.lean ====
section
/-! DEFINITION. The values that the spec leaves open (R2): constants with no body, so that nothing can
be proved of them. A step applies them to the counter `freeCtr` of the state and advances it
(assumption 7). -/

namespace Sys2Proof

/-- The n-th free choice of a run: which of the outcomes that a rule lists occurs (R2). -/
opaque Config.free : Nat → Nat

/-- The n-th free value at an address: a byte or word that the spec does not give (R164, R333). -/
opaque Config.freeAt : Nat → Nat → Nat

/-- Which agent acts, or which event occurs, when the state prescribes none (R39, R119, R249, R271). -/
opaque Config.freeTurn : Nat → Machine.Turn

/-- The initial value of the flit CRC, which R323 does not give. -/
opaque Config.crcInit : Word32

/-- The value XORed into the final flit CRC, which R323 does not give. -/
opaque Config.crcXor : Word32

/-- Whether the flit CRC takes each byte from its low bit on, which R323 does not give. -/
opaque Config.crcReflect : Bool

/-- The device that sent a packet, as its header flit's payload names it; R323 gives no layout of a header. -/
opaque Config.headerSource : List Byte → Nat

/-- The device that a packet goes to, as its header flit's payload names it. -/
opaque Config.headerDest : List Byte → Nat

/-- The number of a packet, as its header flit's payload names it. -/
opaque Config.headerNum : List Byte → Nat

/-- SHA-512 (R346, R347), which the spec names and does not define. -/
opaque Config.sha512 : List Byte → BitVec 512

/-- Whether a public key, a message and an ECDSA P-521 signature fit together (R346), which the spec does not define. -/
opaque Config.ecdsaValid : List Byte → List Byte → List Byte → Bool

/-- The ECDSA P-521 signature by a private key over a message (R347); the last argument is the random number that a
signature takes. -/
opaque Config.ecdsaSign : Nat → List Byte → Nat → List Byte

/-- Hexken's PCI Express vendor ID, which R330 does not give. -/
opaque Config.vendorId : BitVec 16

end Sys2Proof
end

