-- ==== Sys2Proof/Machine/Access.lean ====
section
/-! DEFINITION. Named reads and updates of the parts of the state. -/

namespace Sys2Proof.Machine

/-! ### Keys -/

/-- The key of thread `t` of a block. -/
def threadKey (b t : Nat) : Nat := 16384 * b + t

/-- The key of group `g` of a block. -/
def groupKey (b g : Nat) : Nat := 2048 * b + g

/-- The group of a thread (R27): group ⌊t ÷ 8⌋ of its block. -/
def groupOf (k : Nat) : Nat := k / 8

/-- The lane index of a thread (R27): t mod 8. -/
def laneOf (k : Nat) : Nat := k % 8

/-- The block of a thread. -/
def blockOf (k : Nat) : Nat := k / 16384

/-- The linear index of a thread in its block. -/
def indexOf (k : Nat) : Nat := k % 16384

/-- The block of a group. -/
def blockOfGroup (g : Nat) : Nat := g / 2048

/-- The cluster of a core (R21). -/
def clusterOfCore (c : Nat) : Nat := c / 4

/-- The die of a cluster (R21). -/
def dieOf (cl : Nat) : Nat := cl / 24

/-! ### Parts of the state -/

namespace State

/-- A core; one that nothing has changed is as at reset. -/
def core (s : State) (c : Nat) : Core := s.cores.getD c Core.reset

/-- A cluster. -/
def cluster (s : State) (c : Nat) : Cluster := s.clusters.getD c Cluster.reset

/-- A tenant. -/
def tenant (s : State) (t : Nat) : Tenant := s.tenants.getD t Tenant.reset

/-- A sluice or a leaf. -/
def sluice (s : State) (n : Nat) : Sluice := s.tree.sluices.getD n (Sluice.reset n)

/-- Replaces a core. -/
def setCore (s : State) (c : Nat) (x : Core) : State :=
  { s with cores := s.cores.put Core.reset c x }

/-- Replaces a cluster. -/
def setCluster (s : State) (c : Nat) (x : Cluster) : State :=
  { s with clusters := s.clusters.put Cluster.reset c x }

/-- Replaces a tenant. -/
def setTenant (s : State) (t : Nat) (x : Tenant) : State :=
  { s with tenants := s.tenants.put Tenant.reset t x }

/-- Replaces a sluice or a leaf. -/
def setSluice (s : State) (n : Nat) (x : Sluice) : State :=
  { s with tree := { s.tree with sluices := s.tree.sluices.put (Sluice.reset n) n x } }

/-- Replaces a thread. -/
def setThread (s : State) (k : Nat) (x : Thread) : State :=
  { s with threads := s.threads.set k x }

/-- Replaces a group. -/
def setGroup (s : State) (k : Nat) (x : Group) : State :=
  { s with groups := s.groups.set k x }

/-- Replaces a block. -/
def setBlock (s : State) (k : Nat) (x : Block) : State :=
  { s with blocks := s.blocks.set k x }

/-- Changes a thread, if it is there. -/
def modThread (s : State) (k : Nat) (f : Thread → Thread) : State :=
  match s.threads.find k with
  | some th => s.setThread k (f th)
  | none => s

/-- Changes a group, if it is there. -/
def modGroup (s : State) (k : Nat) (f : Group → Group) : State :=
  match s.groups.find k with
  | some g => s.setGroup k (f g)
  | none => s

/-- Changes a block, if it is there. -/
def modBlock (s : State) (k : Nat) (f : Block → Block) : State :=
  match s.blocks.find k with
  | some b => s.setBlock k (f b)
  | none => s

/-- Changes a core. -/
def modCore (s : State) (c : Nat) (f : Core → Core) : State := s.setCore c (f (s.core c))

/-- Changes a cluster. -/
def modCluster (s : State) (c : Nat) (f : Cluster → Cluster) : State :=
  s.setCluster c (f (s.cluster c))

/-- Changes a tenant. -/
def modTenant (s : State) (t : Nat) (f : Tenant → Tenant) : State := s.setTenant t (f (s.tenant t))

/-- Changes a sluice or a leaf. -/
def modSluice (s : State) (n : Nat) (f : Sluice → Sluice) : State := s.setSluice n (f (s.sluice n))

/-- Changes an engine operation, if it is there. -/
def modOp (s : State) (k : Nat) (f : EngOp → EngOp) : State :=
  match s.ops.find k with
  | some o => { s with ops := s.ops.set k (f o) }
  | none => s

/-- Changes the tree's own fields. -/
def modTree (s : State) (f : Tree → Tree) : State := { s with tree := f s.tree }

/-- Changes the fabric and host side. -/
def modIo (s : State) (f : Io → Io) : State := { s with io := f s.io }

/-- Changes the records and the log. -/
def modDesk (s : State) (f : Desk → Desk) : State := { s with desk := f s.desk }

/-- Changes the security and management state. -/
def modSec (s : State) (f : Sec → Sec) : State := { s with sec := f s.sec }

/-- Changes the core cycle under way. -/
def modCyc (s : State) (f : Cyc → Cyc) : State :=
  match s.cyc with
  | some c => { s with cyc := some (f c) }
  | none => s

/-- A completion-table entry. -/
def entry (s : State) (i : Nat) : Option Entry := s.tree.entries.find i

/-- Changes a completion-table entry, if it is there. -/
def modEntry (s : State) (i : Nat) (f : Entry → Entry) : State :=
  match s.tree.entries.find i with
  | some e => s.modTree (fun t => { t with entries := t.entries.set i (f e) })
  | none => s

/-- The current free choice. -/
def choice (s : State) : Nat := Config.free s.freeCtr

/-- Moves on to the next free choice. -/
def drawn (s : State) : State := { s with freeCtr := s.freeCtr + 1 }

/-- Moves on past `n` free choices. -/
def drawnN (s : State) (n : Nat) : State := { s with freeCtr := s.freeCtr + n }

/-- The identifier for a new operation, message or block. -/
def freshId (s : State) : Nat := s.nextId

/-- Uses up an identifier. -/
def bumpId (s : State) : State := { s with nextId := s.nextId + 1 }

/-- NOW: the count of 64-ns intervals, 32 bits (R282); a Hall cycle is 1 ns. -/
def now (s : State) : Word32 := BitVec.ofNat 32 (s.tree.cycle / 64)

/-- The 64-ns intervals since Hall reset, in full: estimates of R288 are taken in them. -/
def ticks (s : State) : Nat := s.tree.cycle / 64

/-- The keys of a block's threads. -/
def blockThreads (s : State) (b : Nat) : List Nat :=
  (s.threads.filter (fun p => blockOf p.1 == b)).map (·.1)

/-- The keys of a group's threads. -/
def groupThreads (s : State) (g : Nat) : List Nat :=
  (s.threads.filter (fun p => groupOf p.1 == g)).map (·.1)

/-- The keys of a block's groups. -/
def blockGroups (s : State) (b : Nat) : List Nat :=
  (s.groups.filter (fun p => blockOfGroup p.1 == b)).map (·.1)

end State

/-- The thread has executed EXIT; an absent position has no thread and counts as exited (R28). -/
def Thread.exited (th : Thread) : Bool := th.st == .exited

/-- The thread may be picked (R38). -/
def Thread.pickable (th : Thread) : Bool := th.st == .ready || th.st == .unstarted

/-- The thread runs its trap handler (R197): TCAUSE.H. -/
def Thread.inHandler (th : Thread) : Bool := th.tcause.getLsbD 31

/-- This device's number; 0 until it is locked (R26). -/
def State.self (s : State) : Nat := if s.sec.devLock then s.sec.devnum.toNat else 0

/-- The core that holds a thread. -/
def State.coreOfThread (s : State) (k : Nat) : Nat :=
  match s.groups.find (groupOf k) with
  | some g => g.core
  | none => 0

/-- The cluster that holds a block. -/
def State.clusterOfBlock (s : State) (b : Nat) : Nat :=
  match s.blocks.find b with
  | some x => x.cluster
  | none => 0

/-- The tenant of a block. -/
def State.tenantOfBlock (s : State) (b : Nat) : Nat :=
  match s.blocks.find b with
  | some x => x.tenant
  | none => 0

/-- The mode of a Larder bank (R258): 0 CACHE, 1 SCRATCH, 2 FIFO; at reset banks 0 to 7 are CACHE and
the others SCRATCH. -/
def Cluster.bankMode (c : Cluster) (i : Nat) : Nat := c.lmode.getD i (if i < 8 then 0 else 1)

/-- Sets the mode of a bank. -/
def Cluster.setBankMode (c : Cluster) (i m : Nat) : Cluster :=
  { c with lmode := c.lmode.put (if i < 8 then 0 else 1) i m }

/-- The cluster has a CACHE-mode bank (R260). -/
def Cluster.hasCache (c : Cluster) : Bool := (natRange 0 48).any (fun i => c.bankMode i == 0)

/-- FIRST and COUNT of a staging region (R301). -/
def stagingFirst (w : Word32) : Nat := (w.extractLsb' 0 6).toNat

/-- COUNT of a staging region (R301). -/
def stagingCount (w : Word32) : Nat := (w.extractLsb' 8 6).toNat

/-- The bank lies in a staging region of the cluster (R301). -/
def Cluster.inRegion (c : Cluster) (i : Nat) : Bool :=
  (decide (stagingFirst c.stgp ≤ i) && decide (i < stagingFirst c.stgp + stagingCount c.stgp)) ||
  (decide (stagingFirst c.stgg ≤ i) && decide (i < stagingFirst c.stgg + stagingCount c.stgg))

/-- The bank that byte `o` of a block's Larder scratch lies in (R259). -/
def Block.bankOf (b : Block) (o : Nat) : Nat := 8 * (b.lparts.getD (o / 512) 0) + (o / 64) % 8

/-- Every bank that `n` bytes from offset `o` on touch is in SCRATCH mode (R162, R241). -/
def scratchBanks (c : Cluster) (b : Block) (o n : Nat) : Bool :=
  (natRange (o / 64) ((o + n + 63) / 64 - o / 64)).all (fun g => c.bankMode (b.bankOf (64 * g)) == 1)

/-- Groups of a block: ⌈T ÷ 8⌉ (R27). -/
def Packet.groups (p : Packet) : Nat := (p.blockt + 7) / 8

/-- Blocks of a launch (R27). -/
def Packet.blocks (p : Packet) : Nat := p.gridx * p.gridy * p.gridz

/-- Bytes of a group's register window (R34). -/
def Packet.window (p : Packet) : Nat :=
  (34 * p.vregs + 17 * p.uregs / 4 + 512 + 255) / 256 * 256

/-- Core-store bytes of a block (R34). -/
def Packet.storeBytes (p : Packet) : Nat := p.groups * p.window + (p.cscr + 255) / 256 * 256

/-- The block's threads may be picked: it runs, or drains to its exit (R288, R318). -/
def Block.runs (b : Block) : Bool := b.st == .running || b.st == .draining

/-- The launch priority of a block (R37). -/
def Block.prio (b : Block) : Nat := b.packet.prio

/-- The coordinates of a block in its grid (R133): x fastest. -/
def Block.x (b : Block) : Nat := b.lin % b.packet.gridx

/-- The y coordinate of a block. -/
def Block.y (b : Block) : Nat := b.lin / b.packet.gridx % b.packet.gridy

/-- The z coordinate of a block. -/
def Block.z (b : Block) : Nat := b.lin / b.packet.gridx / b.packet.gridy

/-- In a COOPERATIVE launch barrier index 2,047 names the launch barrier (R342). -/
def Block.launchBarIdx (b : Block) (n : Nat) : Bool := b.packet.cooperative && n == 2047

end Sys2Proof.Machine
end

