-- ==== Sys2Proof/Machine/Homes.lean ====
section
/-! DEFINITION. The physical layout of device memory (R15, R256): lines, stacks, dies, controllers and home
slices. -/

namespace Sys2Proof.Machine

/-- First address of device memory (R256). -/
def memBase : Nat := 0x010000000000

/-- First address beyond device memory (R256). -/
def memEnd : Nat := 0x016000000000

/-- The line number Ln of a physical address: D[38:7], where D is its offset in device memory (R256). -/
def lineOf (pa : Nat) : Nat := (pa - memBase) / 128 % 2 ^ 32

/-- The stack of a line (R256): one of 8. -/
def homeStack (ln : Nat) : Nat :=
  (ln % 8) ^^^ (ln / 2 ^ 9 % 8) ^^^ (ln / 2 ^ 18 % 8) ^^^ (ln / 2 ^ 27 % 8)

/-- The die that serves a stack: each die has two of the HBM4 controllers (R15, R256). -/
def homeDie (ln : Nat) : Nat := homeStack ln / 2

/-- The controller of the die that serves a line's stack: controller c of die d serves stack 2d + c (R15, R256). -/
def homeController (ln : Nat) : Nat := homeStack ln % 2

/-- The slice of a line within its die (R256): one of 32. -/
def homeSlice (ln : Nat) : Nat := (ln / 2 ^ 3 % 32) ^^^ (ln / 2 ^ 12 % 32) ^^^ (ln / 2 ^ 21 % 32)

/-- The place of a line within its stack (R256): Ln[31:3]. -/
def lineInStack (ln : Nat) : Nat := ln / 8

/-- The global index of a line's home slice (R256). -/
def homeIndex (ln : Nat) : Nat := 32 * homeDie ln + homeSlice ln

end Sys2Proof.Machine
end

