-- ==== Sys2Proof/Machine/Links.lean ====
section
/-! DEFINITION. The sending side of the fabric (R323 to R327): flits and their CRC, the send window of a
port, and the messages that the transaction layer hands to a port. -/

namespace Sys2Proof.Machine

/-! ### Free bytes -/

/-- Free bytes: values that the spec does not give. -/
def State.freeBytes (s : State) (n : Nat) : List Byte :=
  (natRange s.freeCtr n).map (fun i => BitVec.ofNat 8 (Config.free i))

/-! ### Flits (R323) -/

/-- The payload of a flit has 56 bytes (R323). -/
def payloadSize : Nat := 56

/-- Bytes 0 to 59 of a flit (R323). -/
def flitBody (f : Flit) : List Byte :=
  leBytes (f.seq.toNat + 4096 * f.kind.toNat) 2 ++
  leBytes (f.ackseq.toNat + (if f.nak then 4096 else 0) + 8192 * f.vc.toNat + (if f.last then 32768 else 0)) 2 ++
  f.payload

/-- One bit of the CRC with polynomial 0x04C1_1DB7 (R323). -/
def crcBit (r : Word32) (b : Bool) : Word32 :=
  (r <<< 1) ^^^ (if r.getLsbD 31 != b then 0x04C1_1DB7 else 0)

/-- One byte of the CRC; the order of its bits is open (Config). -/
def crcByte (r : Word32) (b : Byte) : Word32 :=
  (natRange 0 8).foldl (fun r i => crcBit r (b.getLsbD (if Config.crcReflect then i else 7 - i))) r

/-- The CRC-32 of a flit, over bytes 0 to 59 (R323). -/
def flitCrc (f : Flit) : Word32 :=
  let r := (flitBody f).foldl crcByte Config.crcInit
  (if Config.crcReflect then r.reverse else r) ^^^ Config.crcXor

/-- A flit with its CRC. -/
def sealFlit (f : Flit) : Flit := { f with crc := flitCrc f }

/-- The CRC of a received flit is good (R324). -/
def flitGood (f : Flit) : Bool := f.crc == flitCrc f

/-! ### The send window (R324) -/

/-- Flits in a send window at most (R324). -/
def windowMax : Nat := 256

/-- An idle flit of a port, with the acknowledgement or the NAK of its reverse direction (R323, R324). -/
def Port.idleFlit (p : Port) (nak : Bool) : Flit :=
  sealFlit ⟨p.nextSeq, 2, p.expSeq - 1, nak, 0, false, List.replicate payloadSize 0, 0⟩

/-- An idle flit goes out. -/
def Port.sendIdle (p : Port) (nak : Bool) : Port := { p with wire := p.wire ++ [p.idleFlit nak] }

/-- A window flit with an uncorrectable error becomes a tombstone: its SEQ, KIND 1 and a zero payload
(R325). -/
def tombstoneOf (f : Flit) : Flit := sealFlit { f with kind := 1, payload := List.replicate payloadSize 0 }

/-- Saturation of the counts of FPSTAT (R329). -/
def statMax : Nat := 65535

/-- A packet flit goes out: it takes the next SEQ and stays in the window (R323, R324); one that stands there with an
uncorrectable error goes out as a tombstone (R325). -/
def Port.emit (p : Port) (bad : Bool) (f : Flit) : Port :=
  let g := sealFlit { f with seq := p.nextSeq, ackseq := p.expSeq - 1, nak := false }
  let x := if bad then tombstoneOf g else g
  { p with
    nextSeq := p.nextSeq + 1
    window := p.window ++ [⟨p.nextSeq, x⟩]
    wire := p.wire ++ [x]
    tomb := if bad then Nat.min statMax (p.tomb + 1) else p.tomb }

/-- Waiting flits go out while the link is up and the window has room (R324); `seed` is the free choice of those that
meet an uncorrectable error (R325). -/
def Port.pump (seed : Nat) : Nat → Port → Port
  | 0, p => p
  | fuel + 1, p =>
    match p.queue with
    | [] => p
    | f :: rest =>
      if p.up && decide (p.window.length < windowMax) then
        Port.pump seed fuel ({ p with queue := rest }.emit (Config.freeAt seed p.nextSeq.toNat % 2 == 1) f)
      else p

/-- Flits are handed to a port. -/
def Port.send (p : Port) (seed : Nat) (fs : List Flit) : Port :=
  let q := { p with queue := p.queue ++ fs }
  q.pump seed q.queue.length

/-- A fabric port. -/
def State.port (s : State) (n : Nat) : Port := s.io.ports.getD n Port.reset

/-- Changes a fabric port. -/
def State.modPort (s : State) (n : Nat) (f : Port → Port) : State :=
  s.modIo (fun io => { io with ports := io.ports.put Port.reset n (f (io.ports.getD n Port.reset)) })

/-! ### Packets as flits (R323) -/

/-- The data flits of a packet; what fills the last one is open. -/
def dataFlits (vc : BitVec 2) (pad : List Byte) : Nat → List Byte → List Flit
  | 0, _ => []
  | fuel + 1, data =>
    if data.isEmpty then []
    else
      let rest := data.drop payloadSize
      ⟨0, 0, 0, false, vc, rest.isEmpty, (data.take payloadSize ++ pad).take payloadSize, 0⟩ ::
        dataFlits vc pad fuel rest

/-- A packet as flits: one header flit, whose layout the spec does not give, and ⌈bytes ÷ 56⌉ data flits
(R323). -/
def packetFlits (vc : BitVec 2) (header pad data : List Byte) : List Flit :=
  ⟨0, 0, 0, false, vc, data.isEmpty, header, 0⟩ :: dataFlits vc pad ((data.length + 55) / 56) data

/-! ### Messages (R323, R326, R327, R333, R334) -/

/-- The device that a message goes to. -/
def FabMsg.dest : FabMsg → Nat
  | .request p => p.dest
  | .ack d _ _ _ => d
  | .getData d _ _ _ => d
  | .retry d _ _ => d

/-- The VC of a packet (R323, R334). -/
def FabPacket.vc (p : FabPacket) : BitVec 2 :=
  match p.body with
  | .ready _ _ => 2
  | .go _ => 2
  | .drop _ => 2
  | .bridge (.msix _ _) => 1
  | _ => 0

/-- The VC of a message (R323). -/
def FabMsg.vc : FabMsg → BitVec 2
  | .request p => FabPacket.vc p
  | _ => 1

/-- The data bytes of a packet. -/
def FabPacket.data (p : FabPacket) : List Byte :=
  match p.body with
  | .put _ d => d
  | .lsend d => d
  | .launch d => d
  | .bridge (.write _ _ d) => d
  | _ => []

/-- The data bytes of a message. -/
def FabMsg.data : FabMsg → List Byte
  | .request p => FabPacket.data p
  | .getData _ _ _ d => d
  | _ => []

/-- The port of the Hall's route to a device; none when the device is absent (R327). -/
def State.routePort (s : State) (d : Nat) : Option Nat :=
  let e := s.io.froute.getD d 0
  if e.getLsbD 31 && d != s.self then some (e.extractLsb' 0 5).toNat else none

/-- The transaction layer sends a message: its flits go to the port of the destination (R323, R327). -/
def State.post (s : State) (m : FabMsg) : State :=
  let s1 := s.modIo (fun io => { io with out := io.out ++ [m] })
  match s.routePort m.dest with
  | none => s1
  | some n =>
    (s1.modPort n (fun p =>
      p.send (s.freeCtr + 112) (packetFlits m.vc (s.freeBytes 56) ((s.freeBytes 112).drop 56) m.data))).drawnN 113

/-! ### Numbered packets (R26, R326) -/

/-- Packets that a source holds for one destination (R326). -/
def heldMax : Nat := 4096

/-- A packet takes its number, is held and goes out (R326). -/
def State.issuePacket (s : State) (h : HeldPkt) : State :=
  let p := { h.packet with src := s.self, num := s.io.pktNum.getD h.packet.dest 0 }
  (s.modIo (fun io =>
    { io with
      pktNum := io.pktNum.put 0 p.dest ((p.num + 1) % 65536)
      held := io.held ++ [{ h with packet := p }] })).post (.request p)

/-- A packet to a device can be issued now: DEVNUM is locked (R26), and fewer than 4,096 of the device are held
(R326). -/
def State.canIssue (s : State) (dest : Nat) : Bool :=
  s.sec.devLock && decide ((s.io.held.filter (fun x => x.packet.dest == dest)).length < heldMax)

/-- A packet is issued, or waits while it cannot be (R26, R326). -/
def State.sendPacket (s : State) (h : HeldPkt) : State :=
  if s.canIssue h.packet.dest then s.issuePacket h
  else s.modIo (fun io => { io with waitPkts := io.waitPkts ++ [h] })

/-- A packet of the Hall's own goes to a device; one that is absent gets none (R327). -/
def State.tellTagged (s : State) (dest tenant : Nat) (body : FabBody) (tag : PktTag) : State :=
  if s.sec.devLock && (s.routePort dest).isNone then s
  else s.sendPacket ⟨⟨dest, s.self, tenant, 0, body⟩, none, 0, tag⟩

/-- A packet of the Hall's own for which nothing waits. -/
def State.tell (s : State) (dest tenant : Nat) (body : FabBody) : State := s.tellTagged dest tenant body .none

/-- A packet of the tag has not ended: it waits to be issued, or for its end-to-end acknowledgement (R326). -/
def State.tagPending (s : State) (tag : PktTag) : Bool :=
  s.io.held.any (fun h => h.tag == tag) || s.io.waitPkts.any (fun h => h.tag == tag)

/-- Packets that wait are issued in their order, each as far as its device takes it (R26, R326). -/
def State.sendWaiting (s : State) : State :=
  s.io.waitPkts.foldl (fun s h =>
    if s.canIssue h.packet.dest then
      (s.modIo (fun io => { io with waitPkts := io.waitPkts.erase h })).issuePacket h
    else s) s

end Sys2Proof.Machine
end

