-- ==== Sys2Proof/Machine/Records.lean ====
section
/-! DEFINITION. Writing device memory at home, interrupts (R334), the Parlour's log, and fault records
(R307, R308, R354). -/

namespace Sys2Proof.Machine

/-! ### Device memory at home (R256, R257) -/

/-- First address of the host window (R333). -/
def hostBase : Nat := 0x0008000000000000

/-- The address lies in the host window: PA 0x0008_0000_0000_0000 + host address below 2^51 (R333). -/
def inHostWindow (pa : Nat) : Bool := decide (hostBase ≤ pa) && decide (pa < hostBase + 2 ^ 51)

/-- The address lies in device memory (R256). -/
def inDeviceMem (pa : Nat) : Bool := decide (memBase ≤ pa) && decide (pa < memEnd)

/-- First address of the places of private slabs: the spec does not say where a tenant's private pool lies, so slabs
have addresses of their own that no translation yields (R263; assumption 98). -/
def poolBase : Nat := 2 ^ 52

/-- The address lies in a private slab. -/
def inPool (pa : Nat) : Bool := decide (poolBase ≤ pa)

/-- Bytes at home. -/
def State.homeRead (s : State) (pa n : Nat) : List Byte := Memory.readBytes s.mem pa n

/-- A byte of the range is poisoned (R16). -/
def State.homePoisoned (s : State) (pa n : Nat) : Bool :=
  s.poison.any (fun a => decide (pa ≤ a) && decide (a < pa + n))

/-- Writes bytes at home; the bytes written lose their poison (R164). A write that lies neither in device memory nor
in a slab is dropped. -/
def State.homeWrite (s : State) (pa : Nat) (bytes : List Byte) : State :=
  if (memBase ≤ pa ∧ pa + bytes.length ≤ memEnd) ∨ poolBase ≤ pa then
    { s with
      mem := Memory.writeBytes s.mem pa bytes
      poison := s.poison.filter (fun a => !(decide (pa ≤ a) && decide (a < pa + bytes.length))) }
  else s

/-- An error in a sector of device memory (R16): the controller of its stack counts one that is corrected, and one that
is not leaves the sector poisoned. -/
def State.memError (s : State) (pa : Nat) (corrected : Bool) : State :=
  if corrected then
    { s with eccCount := s.eccCount.set (homeStack (lineOf pa)) (s.eccCount.getD (homeStack (lineOf pa)) 0 + 1) }
  else { s with poison := s.poison.filter (fun a => a / 32 != pa / 32) ++ natRange (32 * (pa / 32)) 32 }

/-! ### Register halves held or latched (R7) -/

/-- The Parlour, the host through BAR2, and the debugger as requesters. -/
def reqParlour : Nat := 0
/-- The host through BAR2 (R23). -/
def reqHost : Nat := 1
/-- The debugger through the IEEE 1149.1 port (R349). -/
def reqDebug : Nat := 2

/-- The window offset of a register of a tenant's fault block (R306). -/
def faultOffset (t off : Nat) : Nat := 0x3000 + 0x100 * t + off

/-- What a requester holds, but for a register other than the one whose first word is at `o` (R7). -/
def dropOther (m : NMap (Nat × Word32)) (req o : Nat) : NMap (Nat × Word32) :=
  match m.find req with
  | some (x, _) => if x = o then m else m.erase req
  | none => m

/-- An access by a requester to a register discards what the requester holds or has latched of any other
(R7). `o` is the offset of the register's first word. -/
def State.discard (s : State) (req o : Nat) : State :=
  s.modDesk (fun d =>
    { d with
      heldLow := dropOther d.heldLow req o
      latched := dropOther d.latched req o })

/-! ### Interrupts and the log -/

/-- The entry of an interrupt source; MASK is 1 at reset (R335). -/
def State.irt (s : State) (src : Nat) : IrtEnt := s.io.irt.getD src IrtEnt.reset

/-- The tenant that owns an interrupt source (R334): of AQI s for 0 to 7, s − 8 for 8 to 23. -/
def State.sourceTenant (s : State) (src : Nat) : Nat :=
  if src < 8 then (s.io.aqis.getD src Aqi.reset).tenant else src - 8

/-- The PASID is held by a V entry of an AQI of the tenant (R334); tenant 0 owns no AQI (R335). -/
def State.pasidHeld (s : State) (t : Nat) (p : BitVec 20) : Bool :=
  t != 0 && s.io.aqis.any (fun q => q.2.tenant == t && q.2.pas.any (fun e => e.2.1 && e.2.2 == p))

/-- A word of the MSI-X table of BAR4; the mask bit of word 3 is 1 at reset (R330; assumption 127). -/
def State.msixWord (s : State) (vec w : Nat) : Word32 := s.io.msixTable.getD (4 * vec + w) (if w = 3 then 1 else 0)

/-- The bridge sends MSI-X table entry `vec` with a PASID as its prefix (R334), with the address and the data that the
entry holds; while the entry is masked its pending bit is set instead (R330; assumption 127). Nothing leaves while the link
is held down (R348). -/
def State.sendMsix (s : State) (vec : Nat) (pasid : BitVec 20) : State :=
  if s.sec.locked then s
  else if (s.msixWord vec 3).getLsbD 0 then s.modIo (fun io => { io with msixPend := io.msixPend.set vec pasid })
  else s.modIo (fun io => { io with
    msix := io.msix ++ [⟨vec, pasid, s.msixWord vec 1 ++ s.msixWord vec 0, s.msixWord vec 2⟩] })

/-- A message over VC 1 to the bridge: one of a source follows the source's earlier ones, so that it waits until they have
been acknowledged (R334). -/
def State.forwardMessage (s : State) (src vec : Nat) (pasid : BitVec 20) : State :=
  if s.tagPending (.msg src) then s.modIo (fun io => { io with msgs := io.msgs ++ [(src, vec, pasid)] })
  else s.tellTagged s.io.bridgeDev 0 (.bridge (.msix vec pasid)) (.msg src)

/-- The next message of a source that waits for the one before it goes to the bridge (R334). -/
def State.nextMessage (s : State) (src : Nat) : State :=
  match s.io.msgs.find? (fun m => m.1 == src) with
  | some m => (s.modIo (fun io => { io with msgs := io.msgs.erase m })).forwardMessage src m.2.1 m.2.2
  | none => s

/-- Sends one message of a source: MSI-X by the bridge, or over VC 1 to the bridge (R334). -/
def State.sendMessage (s : State) (src : Nat) (e : IrtEnt) : State :=
  if s.sec.bridge then s.sendMsix e.vec.toNat e.pasid else s.forwardMessage src e.vec.toNat e.pasid

/-- Appends to the log without an interrupt. -/
def State.logQuiet (s : State) (l : LogEntry) : State :=
  s.modDesk (fun d => { d with log := d.log ++ [l] })

/-- Whether an event's message is dropped by V or by its PASID (R334). -/
def State.irtRefuses (s : State) (src : Nat) : Bool :=
  !(s.irt src).v ||
  (decide (src < 24) && !s.pasidHeld (s.sourceTenant src) (s.irt src).pasid)

/-- A runner core of the notify queues works (R344). -/
def State.runnerUp (s : State) : Bool := s.io.runners.getD 0 true || s.io.runners.getD 1 true

/-- A runner core of completion records and interrupts works (R344). -/
def State.recorderUp (s : State) : Bool := s.io.runners.getD 4 true || s.io.runners.getD 5 true

/-- A masked source's PEND is set (R334). -/
def State.pendIrt (s : State) (src : Nat) : State :=
  if (s.irt src).mask then s.modIo (fun io => { io with irt := io.irt.set src { s.irt src with pend := true } }) else s

/-- The message of an event is sent, or dropped with PEND set where the source is masked; and whether it was dropped
(R334). -/
def State.message (s : State) (src : Nat) : State × Bool :=
  if (s.irt src).mask || s.irtRefuses src then (s.pendIrt src, true) else (s.sendMessage src (s.irt src), false)

/-- One event of source 24, a log entry (R334). A drop of it is logged and raises nothing further
(assumption 20). -/
def State.raiseLog (s : State) : State :=
  match s.message 24 with
  | (s1, true) => s1.logQuiet (.irtDrop 24)
  | (s1, false) => s1

/-- Work for the runner cores of completion records and interrupts waits (R344). -/
def State.defer (s : State) (j : RunnerJob) : State := s.modIo (fun io => { io with jobs := io.jobs ++ [j] })

/-- The interrupt source that a job ends with a message of. -/
def RunnerJob.source : RunnerJob → Nat
  | .record a _ _ _ _ _ _ => a
  | .interrupt src => src
  | .unmask src _ => src

/-- The runner cores of completion records and interrupts can send a message of a source now: one works (R344), and no
earlier event of the source is still to be announced (R334). -/
def State.sourceFree (s : State) (src : Nat) : Bool := s.recorderUp && !s.io.jobs.any (fun j => j.source == src)

/-- An entry of the Parlour's log, announced by source 24 (R334). -/
def State.log (s : State) (l : LogEntry) : State :=
  if s.sourceFree 24 then (s.logQuiet l).raiseLog else (s.logQuiet l).defer (.interrupt 24)

/-- An event of an interrupt source is handled (R334): a message, or a logged drop. -/
def State.interrupt (s : State) (src : Nat) : State :=
  if src = 24 then s.raiseLog
  else
    match s.message src with
    | (s1, true) => s1.log (.irtDrop src)
    | (s1, false) => s1

/-- An event of an interrupt source (R334), which waits while no runner core handles it (R344), and for the source's
earlier events. -/
def State.raise (s : State) (src : Nat) : State :=
  if s.sourceFree src then s.interrupt src else s.defer (.interrupt src)

/-- The message that PEND held leaves when MASK is cleared (R334). -/
def State.unmask (s : State) (src : Nat) (e : IrtEnt) : State :=
  if s.sourceFree src then s.sendMessage src e else s.defer (.unmask src e)

/-! ### Host memory (R333) -/

/-- A request of a tenant to host memory: the bridge issues it with the tenant's PASID, unless its PCI Express
link is held down (R348), and another device sends it to the bridge; `tag` says what waits for it. -/
def State.hostRequest (s : State) (tenant addr : Nat) (data : Option (List Byte)) (n : Nat) (tag : PktTag) : State :=
  if s.sec.bridge then
    if s.sec.locked then s else s.modIo (fun io => { io with pcieOut := io.pcieOut ++ [match data with
      | some d => .write addr (s.tenant tenant).hpasid d
      | none => .read addr (s.tenant tenant).hpasid n] })
  else
    s.tellTagged s.io.bridgeDev tenant (.bridge (match data with
      | some d => .write tenant addr d
      | none => .read tenant addr n)) tag

/-- The issue slot of operations that no core issues: that of no core cycle. -/
def noSlot : Nat := 384 * 2 ^ 64

/-- A write to the host window that no thread issues: it is posted, and stays under way until the zero-length read that
follows it has completed (R333). -/
def State.hostPost (s : State) (tenant cl addr : Nat) (data : List Byte) : State :=
  let op : MemOp :=
    { id := s.freshId, block := 0, tenant := tenant, cluster := cl, core := 0, members := [], slot := noSlot
      act := .hostFlush addr, deps := [], begun := false }
  ({ s.bumpId with inflight := s.inflight ++ [op] }).hostRequest tenant addr (some data) 0 (.write s.freshId)

/-- The operations under way that another state did not have: those that were put under way since. -/
def State.newOps (s s0 : State) : List Nat := (s.inflight.drop s0.inflight.length).map (·.id)

/-- One of the operations is under way. -/
def State.underway (s : State) (ids : List Nat) : Bool := s.inflight.any (fun o => ids.contains o.id)

/-! ### Fault records -/

/-- The 64 bytes of a record (R307). -/
def FaultRec.bytes (r : FaultRec) : List Byte :=
  leBytes r.kind 1 ++ leBytes (r.acc + 16 * r.cause) 1 ++ leBytes r.ten 1 ++ leBytes r.nmrg 1 ++
  leBytes r.tag 4 ++ leBytes r.addr 8 ++ leBytes r.launch 4 ++ leBytes r.block 4 ++
  leBytes r.group 2 ++ leBytes (r.lane + (if r.set then 128 else 0)) 1 ++ leBytes 0 1 ++
  leBytes r.gtag.toNat 4 ++ leBytes r.pc.toNat 8 ++ leBytes r.handle.toNat 4 ++
  leBytes r.info.toNat 4 ++ leBytes r.info2.toNat 8 ++ leBytes 0 8

/-- A record with every field 0 but its kind and tenant. -/
def FaultRec.blank (kind ten : Nat) : FaultRec :=
  ⟨kind, 0, 0, ten, 1, 0, 0, 0, 0, 0, 0, false, 0, 0, 0, 0, 0⟩

/-- Records written and not consumed, modulo 2^17 (R307). -/
def Tenant.pending (t : Tenant) : Nat := (t.prod + 2 ^ 17 - t.cons) % 2 ^ 17

/-- The queue has room for `n` records and one more (R307). -/
def Tenant.roomAfter (t : Tenant) (n : Nat) : Bool := t.fqen && decide (t.pending + n < 2 ^ t.log2n)

/-- A record can be written now: the queue has room (R307), and the record before it is complete at SYSTEM scope. -/
def Tenant.room (t : Tenant) : Bool := t.writing.isNone && t.roomAfter 0

/-- Records of the tenant that PROD has not yet passed: one being written, and those that wait. -/
def Tenant.ahead (t : Tenant) : Nat := t.waiting.length + t.writing.toList.length

/-- The Hall writes bytes of a tenant at a PA: at home, or in the host window (R333). -/
def State.hallWrite (s : State) (tenant pa : Nat) (data : List Byte) : State :=
  if inHostWindow pa then s.hostPost tenant 0 (pa - hostBase) data else s.homeWrite pa data

/-- The record of a tenant's queue is complete at SYSTEM scope: PROD advances past it, and it is announced (R307). -/
def State.recordDone (s : State) (q : Nat) : State :=
  (s.modTenant q (fun t => { t with prod := (t.prod + 1) % 2 ^ 17, writing := none })).raise (8 + q)

/-- Writes one record at BASE + 64 × (PROD mod 2^LOG2N) (R307): at home it is then complete, and in the host window with
its zero-length read (R333). -/
def State.writeRecord (s : State) (q : Nat) (r : FaultRec) : State :=
  let t := s.tenant q
  let s1 := s.hallWrite q (t.fqbase + 64 * (t.prod % 2 ^ t.log2n)) r.bytes
  match s1.newOps s with
  | [] => s1.recordDone q
  | id :: _ => s1.modTenant q (fun t => { t with writing := some id })

/-- A write to the host window is complete: the record that it wrote is (R307, R333). -/
def State.recordWritten (s : State) (id : Nat) : State :=
  (natRange 0 16).foldl (fun s q => if (s.tenant q).writing = some id then s.recordDone q else s) s

/-- Posts a record to a tenant's queue: it takes the next TAG and is written at once, or waits in its
order, and sets WAITED where the queue has no room for it (R307; assumption 141). -/
def State.postRecord (s : State) (q : Nat) (r : FaultRec) : State :=
  let t := s.tenant q
  let r' := { r with tag := t.recs % 2 ^ 24 }
  let s1 := s.modTenant q (fun t => { t with recs := t.recs + 1 })
  if t.waiting.isEmpty && t.room then s1.writeRecord q r'
  else s1.modTenant q (fun x =>
    { x with waiting := x.waiting ++ [r'], waited := x.waited || !t.roomAfter t.ahead })

/-- The TAG that the next record of a queue takes. -/
def State.nextTag (s : State) (q : Nat) : Nat := (s.tenant q).recs % 2 ^ 24

/-- Posts a record and opens it for an answer (R308). -/
def State.postOpen (s : State) (q : Nat) (r : FaultRec) (region : Nat) (block : Nat)
    (what : Answerable) : State :=
  let o : OpenRec := ⟨q, s.nextTag q, r.kind, r.ten, region, block, what⟩
  (s.modDesk (fun d => { d with open_ := d.open_ ++ [o] })).postRecord q r

/-- The fields of a record that name a block (R354). -/
def State.blockRec (s : State) (kind b : Nat) : FaultRec :=
  match s.blocks.find b with
  | some x =>
    { FaultRec.blank kind x.tenant with launch := x.launch, block := x.lin, set := true }
  | none => FaultRec.blank kind 0

/-- The fields of a record that name a group of a block, as an arrival set (R307). -/
def State.groupRec (s : State) (kind g : Nat) (pc : Word64) : FaultRec :=
  { s.blockRec kind (blockOfGroup g) with
    group := g % 2048
    gtag := match s.groups.find g with
      | some x => x.gtag
      | none => 0
    pc := pc }

/-- The fields of a record that name one thread (R307). -/
def State.threadRec (s : State) (kind k : Nat) (pc : Word64) : FaultRec :=
  { s.groupRec kind (groupOf k) pc with lane := laneOf k, set := false }

end Sys2Proof.Machine
end

