-- ==== Sys2Proof/Machine/Debug.lean ====
section
/-! DEFINITION. Debug: the hazard detector's reports and debug records (R86, R138, R350, R352), and
which thread the debugger names (R349). -/

namespace Sys2Proof.Machine

/-- SECSTAT.DBG: the fuse and HALL.DBGEN (R347). -/
def State.dbgOn (s : State) : Bool := s.sec.fuseDbg && s.sec.dbgen

/-- The resident groups of a core in the order of their slots (R349): ascending group key. -/
def State.coreGroups (s : State) (c : Nat) : List Nat :=
  (s.groups.filter (fun p => p.2.core == c &&
    match s.blocks.find (blockOfGroup p.1) with
    | some b => b.st != .saved
    | none => false)).map (·.1)

/-- The thread that CORE.DBGSEL names, if there is one (R349). -/
def State.namedThread (s : State) (c : Nat) : Option Nat :=
  let sel := (s.core c).dbgsel
  match (s.coreGroups c)[(sel.extractLsb' 3 9).toNat]? with
  | some g => if (s.threads.find (8 * g + (sel.extractLsb' 0 3).toNat)).isSome then
      some (8 * g + (sel.extractLsb' 0 3).toNat) else none
  | none => none

/-- A debug record about a thread, kept in the Parlour's log (R350). The kinds are 1 comparator match,
2 class clamp, 3 partial arrival set, 4 BARG at different units, 5 XLN outside the cohort
(assumption 24). The PC is that of the thread that the debugger names, or the thread's own where it names none
(assumption 108). -/
def State.debugRec (s : State) (b k : Nat) (pc : Word64) (kind : Nat) (arg : List Nat) : State :=
  let r : DebugRec :=
    { kind := kind, core := s.coreOfThread k
      block := match s.blocks.find b with
        | some x => x.lin
        | none => 0
      group := indexOf k / 8, lane := laneOf k
      gtag := match s.groups.find (groupOf k) with
        | some g => g.gtag
        | none => 0
      pc := match s.namedThread (s.coreOfThread k) with
        | some j => (match s.threads.find j with
          | some th => th.pc
          | none => pc)
        | none => pc
      arg := arg }
  s.log (.debug r)

/-- One report of the hazard detector, which is on while SECSTAT.DBG and DMODE are 1 (R349, R352). -/
def State.hazard (s : State) (b k : Nat) (pc : Word64) (kind : Nat) (arg : List Nat) : State :=
  if s.dbgOn && (s.core (s.coreOfThread k)).dmode then s.debugRec b k pc kind arg else s

/-- With STEP = 1 the named thread halts when it has completed a unit (R349, R350). -/
def State.stepHalt (s : State) (k : Nat) : State :=
  let c := s.coreOfThread k
  if s.dbgOn && (s.core c).dstep && s.namedThread c == some k then
    s.modThread k (fun th =>
      match th.st with
      | .ready => { th with st := .parked .debug }
      | .deferred _ => { th with st := .parked .debug }
      | _ => th)
  else s

end Sys2Proof.Machine
end

