-- ==== Sys2Proof/WellFormed.lean ====
section
/-! DEFINITION. Which instructions are well formed: the values of a field that the decoder refuses
whatever the state is (R83, R88, R96 to R101, R129, R133, R159, R161, R182, R207, R208, R213, R219).
What depends on the kernel's `.vregs` and `.uregs`, on a prefix or on the state is checked by the
meanings. An event is well formed whatever it carries. -/

namespace Sys2Proof

/-- A register field that may start a pair (R60, R88). -/
def evenReg {n : Nat} (r : BitVec n) : Bool := !r.getLsbD 0

/-- A register field that may start a quad (R60). -/
def quadReg {n : Nat} (r : BitVec n) : Bool := !r.getLsbD 0 && !r.getLsbD 1

/-- The special registers of R208 that URDSR may name. -/
def specialReadable (n : BitVec 12) : Bool := decide (n.toNat ≤ 0x00D) || n == 0x010

/-- The checks on the fields of an instruction. -/
def Instr.wf : Instr → Bool
  | .mod _ _ _ _ _ _ _ => true
  | .limm _ => true
  | .add tc vd va vb => !(tc == 0 && vd == 0 && va == 0 && vb == 0)
  | .sub _ _ _ _ => true
  | .min _ _ _ _ => true
  | .max _ _ _ _ => true
  | .minu _ _ _ _ => true
  | .maxu _ _ _ _ => true
  | .absd _ _ _ _ => true
  | .addsat _ _ _ _ => true
  | .and _ _ _ _ => true
  | .or _ _ _ _ => true
  | .xor _ _ _ _ => true
  | .andn _ _ _ _ => true
  | .shl _ _ _ _ => true
  | .shr _ _ _ _ => true
  | .sar _ _ _ _ => true
  | .ror _ _ _ _ => true
  | .mul _ _ _ _ => true
  | .mulhi _ _ _ _ => true
  | .mulhiu _ _ _ _ => true
  | .mad _ _ _ _ => true
  | .div _ _ _ _ => true
  | .divu _ _ _ _ => true
  | .rem _ _ _ _ => true
  | .remu _ _ _ _ => true
  | .seq _ _ _ _ => true
  | .sne _ _ _ _ => true
  | .slt _ _ _ _ => true
  | .sltu _ _ _ _ => true
  | .sel _ _ _ _ => true
  | .clz _ _ _ => true
  | .popc _ _ _ => true
  | .brev _ _ _ => true
  | .addi _ _ _ _ => true
  | .shli _ _ _ _ => true
  | .shri _ _ _ _ => true
  | .sari _ _ _ _ => true
  | .rori _ _ _ _ => true
  | .bfx _ _ _ _ => true
  | .bfxu _ _ _ _ => true
  | .bfi _ _ _ _ => true
  | .prmb _ _ _ _ => true
  | .movi _ _ _ => true
  | .movs _ _ _ => true
  | .hget _ _ h => decide (h.toNat ≤ 15)
  | .htake _ _ h => decide (h.toNat ≤ 15)
  | .hput _ _ h => decide (h.toNat ≤ 15)
  | .rdls _ _ n => decide (n.toNat ≤ 10)
  | .xlnIdx _ _ _ _ => true
  | .xlnXor _ _ _ _ => true
  | .xlnUp _ _ _ _ => true
  | .xlnDn _ _ _ _ => true
  | .voteAny _ _ _ => true
  | .voteAll _ _ _ => true
  | .voteBal _ _ _ => true
  | .xred _ _ _ => true
  | .fadd _ _ _ _ => true
  | .fsub _ _ _ _ => true
  | .fmul _ _ _ _ => true
  | .fmin _ _ _ _ => true
  | .fmax _ _ _ _ => true
  | .ffma _ _ _ _ => true
  | .fseq _ _ _ _ => true
  | .fslt _ _ _ _ => true
  | .fsle _ _ _ _ => true
  | .fsun _ _ _ _ => true
  | .hadd2 _ _ _ _ => true
  | .hmul2 _ _ _ _ => true
  | .hfma2 _ _ _ _ => true
  | .hmax2 _ _ _ _ => true
  | .frcp _ _ _ => true
  | .frsq _ _ _ => true
  | .fex2 _ _ _ => true
  | .flg2 _ _ _ => true
  | .fdiv _ _ _ _ => true
  | .fsqrt _ _ _ => true
  | .fscl _ _ _ _ => true
  | .ffrc _ _ _ => true
  | .cvtF32S32 _ _ _ => true
  | .cvtS32F32 _ _ _ => true
  | .cvtF32Bf16 _ _ _ => true
  | .cvtBf16F32 _ _ _ _ => true
  | .cvtE4m3F32 _ _ _ => true
  | .cvtF32E4m3 _ _ _ => true
  | .cvtE5m2F32 _ _ _ => true
  | .cvtF32E5m2 _ _ _ => true
  | .scacc _ _ _ _ => true
  | .scacc2 _ _ _ _ => true
  | .qnt8 _ _ _ _ => true
  | .qnte4 _ _ _ _ => true
  | .dp4 _ _ _ _ => true
  | .dp4u _ _ _ _ => true
  | .dp2h _ _ _ _ => true
  | .trnQ _ _ _ _ => true
  | .trnPk _ _ _ => true
  | .trnUp _ _ _ => true
  | .trnDg _ _ _ _ => true
  | .trnChk4 _ _ _ => true
  | .trnZ4 _ _ _ => true
  | .ldU8 _ _ va ord scope _ => va != 127 && ord != 3 && scope != 5
  | .ldS8 _ _ va ord scope _ => va != 127 && ord != 3 && scope != 5
  | .ldU16 _ _ va ord scope _ => va != 127 && ord != 3 && scope != 5
  | .ldS16 _ _ va ord scope _ => va != 127 && ord != 3 && scope != 5
  | .ldB32 _ _ va ord scope _ => va != 127 && ord != 3 && scope != 5
  | .ldB64 _ vt va ord scope _ => va != 127 && ord != 3 && scope != 5 && evenReg vt
  | .ldB128 _ vt va ord scope _ => va != 127 && ord != 3 && scope != 5 && quadReg vt
  | .stB8 _ _ va ord scope _ => va != 127 && ord != 2 && scope != 5
  | .stB16 _ _ va ord scope _ => va != 127 && ord != 2 && scope != 5
  | .stB32 _ _ va ord scope _ => va != 127 && ord != 2 && scope != 5
  | .stB64 _ vt va ord scope _ => va != 127 && ord != 2 && scope != 5 && evenReg vt
  | .stB128 _ vt va ord scope _ => va != 127 && ord != 2 && scope != 5 && quadReg vt
  | .atom32 _ vd va op scope _ => va != 127 && scope != 5 && scope != 1 && (op != 9 || evenReg vd)
  | .atom64 _ vd va op scope _ => va != 127 && scope != 5 && scope != 1 && decide (op.toNat < 10) && evenReg vd && (op != 9 || quadReg vd)
  | .red _ _ va op scope ord => va != 127 && scope != 5 && scope != 1 && op != 8 && op != 9 && ord != 1 && ord != 3
  | .fence _ kind scope => kind != 0 && scope != 5
  | .ldrowNear _ va vb => va != 127 && vb != 127
  | .ldrowHome _ va vb => va != 127 && vb != 127
  | .strow _ va vb => va != 127 && vb != 127
  | .raddBf16 _ va vb => va != 127 && vb != 127
  | .raddF32 _ va vb => va != 127 && vb != 127
  | .rmaxBf16 _ va vb => va != 127 && vb != 127
  | .prf _ va => va != 127
  | .wbl _ va => va != 127
  | .invl _ va => va != 127
  | .brEqz _ _ _ => true
  | .brNez _ _ _ => true
  | .brLtz _ _ _ => true
  | .brGez _ _ _ => true
  | .brGtz _ _ _ => true
  | .brLez _ _ _ => true
  | .brAlw _ _ => true
  | .call _ vd _ => vd != 127
  | .jmpr _ va => va != 127
  | .callr _ vd va => vd != 127 && va != 127
  | .ret _ va => va != 127
  | .barArv _ _ => true
  | .barWt _ _ => true
  | .barSync _ _ => true
  | .barArvc _ _ _ => true
  | .nop _ => true
  | .barg _ => true
  | .exit _ => true
  | .yield _ => true
  | .trap _ _ => true
  | .rett _ => true
  | .brk _ _ => true
  | .ill _ => true
  -- TEPC and TVAL move a pair of registers, which may begin at an odd one (R112, R182; assumption 120)
  | .rdts _ vd x => decide (x.toNat ≤ 4) && ((x != 0 && x != 2) || vd != 127)
  | .wrts _ vs x => (x == 0 || x == 2 || x == 3) && ((x != 0 && x != 2) || vs != 127)
  | .uadd _ _ _ _ => true
  | .usub _ _ _ _ => true
  | .uand _ _ _ _ => true
  | .uor _ _ _ _ => true
  | .uxor _ _ _ _ => true
  | .umul _ _ _ _ => true
  | .umin _ _ _ _ => true
  | .umax _ _ _ _ => true
  | .uaddi _ _ _ _ => true
  | .ushi _ _ _ _ _ => true
  | .umovi _ _ _ => true
  | .umovh _ _ _ => true
  | .ucmp _ _ cc _ _ => decide (cc.toNat ≤ 5)
  | .ubr _ cond q _ => decide (cond.toNat ≤ 2) && (cond != 0 || q == 0)
  | .urdsr _ sd n => specialReadable n && (decide (2 ≤ n.toNat) || evenReg sd)
  | .uwrsr _ _ n => n == 0x00A
  | .hpois _ _ => true
  | .fattach _ _ => true
  | .fdetach _ _ => true
  | .uhput _ _ _ => true
  | .uhget _ _ _ => true
  | .uhtake _ _ _ => true
  | .unop _ => true
  | .uyield _ => true
  | .uld32 _ _ _ ord scope => ord != 3 && scope != 5
  | .uld64 _ sd _ ord scope => ord != 3 && scope != 5 && evenReg sd
  | .ust32 _ _ _ ord scope => ord != 2 && scope != 5
  | .ust64 _ sa _ ord scope => ord != 2 && scope != 5 && evenReg sa
  | .pan _ sp sr => (sp.extractLsb' 0 4 == 0) && sr != 0
  | .grn _ sp sr => (sp.extractLsb' 0 4 == 0) && sr != 0
  | .cpy _ sp sr => (sp.extractLsb' 0 4 == 0) && sr != 0
  | .gatNear _ sp sr => (sp.extractLsb' 0 4 == 0) && sr != 0
  | .gatHome _ sp sr => (sp.extractLsb' 0 4 == 0) && sr != 0
  | .sct _ sp sr => (sp.extractLsb' 0 4 == 0) && sr != 0
  | .fab _ sp sr => (sp.extractLsb' 0 4 == 0) && sr != 0
  | .waitc _ cls _ => decide (cls.toNat ≤ 5)
  | .lnchSucc _ sa _ => evenReg sa
  | .lnchLmode _ sa mode => evenReg sa && mode != 3
  | .lnchCancel _ _ _ => true
  | .balloc _ _ _ => true
  | .bfree _ _ => true
  | .binitAll _ _ => true
  | .binitCount _ _ _ => true
  | .utrap _ _ => true
  | .upark _ _ _ => true
  | .registerWrite _ _ _ _ => true
  | .launchPacketRead _ => true
  | .launchPop => true
  | .blockExpansion _ => true
  | .innerSluiceMove _ => true
  | .engineItemPush _ => true
  | .coreLeafPop _ => true
  | .panPop _ => true
  | .panStep _ => true
  | .grainerPop _ => true
  | .grainerStep _ => true
  | .copyLeafPop _ => true
  | .segmenterRead _ => true
  | .copySegmentComplete _ => true
  | .engineOpComplete _ => true
  | .successorRelease _ => true
  | .loadComplete _ => true
  | .atomicComplete _ => true
  | .redComplete _ => true
  | .rowReadComplete _ => true
  | .rowWriteApply _ => true
  | .sectorFill _ => true
  | .hatchReadComplete _ => true
  | .lremReadComplete _ => true
  | .lmodeComplete _ => true
  | .translationFault _ => true
  | .registerRead _ _ _ => true
  | .coreCycle _ => true
  | .storePerformed _ => true
  | .powerOnReset _ _ => true
  | .hostRegisterWrite _ _ _ => true
  | .devnumWrite _ => true
  | .classpolWrite _ _ => true
  | .lmodeRegisterWrite _ _ _ => true
  | .stagingRegionWrite _ _ _ => true
  | .panReset _ => true
  | .grainerReset _ => true
  | .engineWatchdog _ _ => true
  | .engineResetEnd _ _ => true
  | .sluiceEnable _ _ => true
  | .sluiceDisable _ _ => true
  | .leafProgWrite _ _ => true
  | .progStoreWrite _ _ _ => true
  | .ndataWrite _ => true
  | .rowEntryValidate _ _ _ => true
  | .rowEntryDeregister _ _ => true
  | .fqansResume _ _ => true
  | .fqansAbort _ _ => true
  | .fqconsWrite _ _ => true
  | .tenantReset _ => true
  | .tenantResetDone _ => true
  | .tlbiPage _ => true
  | .tlbiStage1 _ => true
  | .tlbiAll _ => true
  | .tlbInvalidationDone _ => true
  | .irtUnmask _ => true
  | .attestation => true
  | .attestationDone _ => true
  | .debugRun _ => true
  | .powerWindow _ _ => true
  | .securityAlarm _ => true
  | .readPout _ _ => true
  | .readTemperature1 _ _ => true
  | .readVin _ _ => true
  | .readIout _ _ => true
  | .pmbusLimitRead _ => true
  | .pmbusLimitWrite _ _ => true
  | .idcode => true
  | .bypass _ => true
  | .boundaryScan _ => true
  | .runnerRestart _ => true
  | .aqiLaunch _ => true
  | .aqiCancel _ => true
  | .aqiCopy _ => true
  | .aqiRowreg _ => true
  | .aqiRowdereg _ => true
  | .aqiFqanswer _ => true
  | .aqiFqcons _ => true
  | .hostTransferPop => true
  | .flitReceive _ _ => true
  | .flitNak _ _ _ => true
  | .tombstoneReceive _ _ => true
  | .fabricPacketReceive _ => true
  | .getResponseReceive _ _ _ => true
  | .e2eAckReceive _ _ _ => true
  | .e2eRetryRequest _ _ => true
  | .e2eTimeout _ _ => true
  | .fabricPortPop _ => true
  | .replicatedLaunchReceive _ _ _ => true
  | .readyReceive _ _ _ _ => true
  | .goReceive _ _ _ => true
  | .dropReceive _ _ _ => true
  | .blockSave _ => true
  | .parkedBarrierArrival _ => true
  | .stagingStart _ _ => true
  | .stagingComplete _ _ => true
  | .tailRepush _ _ => true
  | .engineTranslationFault _ => true
  | .cancel _ _ _ => true
  | .starvationOverride _ => true
  | .floorQueueEntry _ => true
  | .uniformFloorQueueEntry _ => true
  | .deferralEnd _ => true
  | .runExpiry _ => true
  | .barrierReleaseArrival _ => true
  | .launchBarrierRelease _ => true
  | .barrierTimeout _ _ => true
  | .bargTimeout _ => true
  | .blockStalled _ => true
  | .nearProbe _ => true
  | .lineEviction _ _ => true
  | .ballocAnswer _ => true
  | .faultRecordDrain _ => true
  | .barrierArrivalReceive _ => true
  | .hostTransferComplete _ => true
  | .bridgeRequestReceive _ => true
  | .linkTraining _ => true

/-- A well-formed instruction. -/
abbrev WellFormed (i : Instr) : Prop := i.wf = true

end Sys2Proof
end

