-- ==== Sys2Proof/Decode.lean ====
section
/-! DEFINITION. The decoder and the encoder of instruction words (R83 to R101), written from the
formats and the opcode maps of 07_encoding.md. The decoder is total: it answers `none` for every
word that R101 refuses. -/

namespace Sys2Proof

/-- `some i` when a reserved field is 0, else no instruction (R101). -/
def onlyIf (c : Bool) (i : Instr) : Option Instr := if c then some i else none

/-- Format LR (R87, R95): the instruction that a major opcode and fn select. -/
def decodeLR (maj fn : Nat) (tc : BitVec 2) (vd va vb : BitVec 7) : Option Instr :=
  match maj with
  | 0x00 => match fn with
    | 0 => some (.add tc vd va vb)
    | 1 => some (.sub tc vd va vb)
    | 2 => some (.min tc vd va vb)
    | 3 => some (.max tc vd va vb)
    | _ => none
  | 0x01 => match fn with
    | 0 => some (.minu tc vd va vb)
    | 1 => some (.maxu tc vd va vb)
    | 2 => some (.absd tc vd va vb)
    | 3 => some (.addsat tc vd va vb)
    | _ => none
  | 0x02 => match fn with
    | 0 => some (.and tc vd va vb)
    | 1 => some (.or tc vd va vb)
    | 2 => some (.xor tc vd va vb)
    | 3 => some (.andn tc vd va vb)
    | _ => none
  | 0x03 => match fn with
    | 0 => some (.shl tc vd va vb)
    | 1 => some (.shr tc vd va vb)
    | 2 => some (.sar tc vd va vb)
    | 3 => some (.ror tc vd va vb)
    | _ => none
  | 0x04 => match fn with
    | 0 => some (.mul tc vd va vb)
    | 1 => some (.mulhi tc vd va vb)
    | 2 => some (.mulhiu tc vd va vb)
    | 3 => some (.mad tc vd va vb)
    | _ => none
  | 0x05 => match fn with
    | 0 => some (.div tc vd va vb)
    | 1 => some (.divu tc vd va vb)
    | 2 => some (.rem tc vd va vb)
    | 3 => some (.remu tc vd va vb)
    | _ => none
  | 0x06 => match fn with
    | 0 => some (.seq tc vd va vb)
    | 1 => some (.sne tc vd va vb)
    | 2 => some (.slt tc vd va vb)
    | 3 => some (.sltu tc vd va vb)
    | _ => none
  | 0x07 => match fn with
    | 0 => some (.sel tc vd va vb)
    | 1 => onlyIf (vb == 0) (.clz tc vd va)
    | 2 => onlyIf (vb == 0) (.popc tc vd va)
    | 3 => onlyIf (vb == 0) (.brev tc vd va)
    | _ => none
  | 0x0A => match fn with
    | 0 => some (.bfx tc vd va vb)
    | 1 => some (.bfxu tc vd va vb)
    | 2 => some (.bfi tc vd va vb)
    | 3 => some (.prmb tc vd va vb)
    | _ => none
  | 0x0E => match fn with
    | 0 => some (.xlnIdx tc vd va vb)
    | 1 => some (.xlnXor tc vd va vb)
    | 2 => some (.xlnUp tc vd va vb)
    | 3 => some (.xlnDn tc vd va vb)
    | _ => none
  | 0x0F => match fn with
    | 0 => onlyIf (vb == 0) (.voteAny tc vd va)
    | 1 => onlyIf (vb == 0) (.voteAll tc vd va)
    | 2 => onlyIf (vb == 0) (.voteBal tc vd va)
    | 3 => onlyIf (vb == 0) (.xred tc vd va)
    | _ => none
  | 0x10 => match fn with
    | 0 => some (.fadd tc vd va vb)
    | 1 => some (.fsub tc vd va vb)
    | 2 => some (.fmul tc vd va vb)
    | 3 => some (.fmin tc vd va vb)
    | _ => none
  | 0x11 => match fn with
    | 0 => some (.fmax tc vd va vb)
    | 1 => some (.ffma tc vd va vb)
    | _ => none
  | 0x12 => match fn with
    | 0 => some (.fseq tc vd va vb)
    | 1 => some (.fslt tc vd va vb)
    | 2 => some (.fsle tc vd va vb)
    | 3 => some (.fsun tc vd va vb)
    | _ => none
  | 0x13 => match fn with
    | 0 => some (.hadd2 tc vd va vb)
    | 1 => some (.hmul2 tc vd va vb)
    | 2 => some (.hfma2 tc vd va vb)
    | 3 => some (.hmax2 tc vd va vb)
    | _ => none
  | 0x14 => match fn with
    | 0 => onlyIf (vb == 0) (.frcp tc vd va)
    | 1 => onlyIf (vb == 0) (.frsq tc vd va)
    | 2 => onlyIf (vb == 0) (.fex2 tc vd va)
    | 3 => onlyIf (vb == 0) (.flg2 tc vd va)
    | _ => none
  | 0x15 => match fn with
    | 0 => some (.fdiv tc vd va vb)
    | 1 => onlyIf (vb == 0) (.fsqrt tc vd va)
    | 2 => some (.fscl tc vd va vb)
    | 3 => onlyIf (vb == 0) (.ffrc tc vd va)
    | _ => none
  | 0x16 => match fn with
    | 0 => onlyIf (vb == 0) (.cvtF32S32 tc vd va)
    | 1 => onlyIf (vb == 0) (.cvtS32F32 tc vd va)
    | 2 => onlyIf (vb == 0) (.cvtF32Bf16 tc vd va)
    | 3 => some (.cvtBf16F32 tc vd va vb)
    | _ => none
  | 0x17 => match fn with
    | 0 => onlyIf (vb == 0) (.cvtE4m3F32 tc vd va)
    | 1 => onlyIf (vb == 0) (.cvtF32E4m3 tc vd va)
    | 2 => onlyIf (vb == 0) (.cvtE5m2F32 tc vd va)
    | 3 => onlyIf (vb == 0) (.cvtF32E5m2 tc vd va)
    | _ => none
  | 0x18 => match fn with
    | 0 => some (.scacc tc vd va vb)
    | 1 => some (.scacc2 tc vd va vb)
    | 2 => some (.qnt8 tc vd va vb)
    | 3 => some (.qnte4 tc vd va vb)
    | _ => none
  | 0x19 => match fn with
    | 0 => some (.dp4 tc vd va vb)
    | 1 => some (.dp4u tc vd va vb)
    | 2 => some (.dp2h tc vd va vb)
    | _ => none
  | 0x1A => match fn with
    | 0 => some (.trnQ tc vd va vb)
    | 1 => onlyIf (vb == 0) (.trnPk tc vd va)
    | 2 => onlyIf (vb == 0) (.trnUp tc vd va)
    | 3 => some (.trnDg tc vd va vb)
    | _ => none
  | 0x1B => match fn with
    | 0 => onlyIf (vb == 0) (.trnChk4 tc vd va)
    | 1 => onlyIf (vb == 0) (.trnZ4 tc vd va)
    | _ => none
  | 0x32 => match fn with
    | 0 => onlyIf (vd == 0 && vb == 0) (.jmpr tc va)
    | 1 => onlyIf (vb == 0) (.callr tc vd va)
    | 2 => onlyIf (vd == 0 && vb == 0) (.ret tc va)
    | _ => none
  | _ => none

/-- Format LM (R87, R158): the loads and stores. -/
def decodeLM (maj : Nat) (tc : BitVec 2) (vt va : BitVec 7) (ord : BitVec 2) (scope : BitVec 3)
    (off4 : BitVec 4) : Option Instr :=
  match maj with
  | 0x20 => some (.ldU8 tc vt va ord scope off4)
  | 0x21 => some (.ldS8 tc vt va ord scope off4)
  | 0x22 => some (.ldU16 tc vt va ord scope off4)
  | 0x23 => some (.ldS16 tc vt va ord scope off4)
  | 0x24 => some (.ldB32 tc vt va ord scope off4)
  | 0x25 => some (.ldB64 tc vt va ord scope off4)
  | 0x26 => some (.ldB128 tc vt va ord scope off4)
  | 0x27 => some (.stB8 tc vt va ord scope off4)
  | 0x28 => some (.stB16 tc vt va ord scope off4)
  | 0x29 => some (.stB32 tc vt va ord scope off4)
  | 0x2A => some (.stB64 tc vt va ord scope off4)
  | 0x2B => some (.stB128 tc vt va ord scope off4)
  | _ => none

/-- MAJ 0x2F (R96, R158): fences, row instructions and cache maintenance. -/
def decodeMemX (tc : BitVec 2) (b : BitVec 23) : Option Instr :=
  let va := b.extractLsb' 12 7
  let vb := b.extractLsb' 5 7
  let lo5 := b.extractLsb' 0 5 == 0
  let lo12 := b.extractLsb' 0 12 == 0
  match (b.extractLsb' 19 4).toNat with
  | 0 => onlyIf (b.extractLsb' 0 14 == 0) (.fence tc (b.extractLsb' 17 2) (b.extractLsb' 14 3))
  | 1 => onlyIf lo5 (.ldrowNear tc va vb)
  | 2 => onlyIf lo5 (.ldrowHome tc va vb)
  | 3 => onlyIf lo5 (.strow tc va vb)
  | 4 => onlyIf lo5 (.raddBf16 tc va vb)
  | 5 => onlyIf lo5 (.raddF32 tc va vb)
  | 6 => onlyIf lo5 (.rmaxBf16 tc va vb)
  | 7 => onlyIf lo12 (.prf tc va)
  | 8 => onlyIf lo12 (.wbl tc va)
  | 9 => onlyIf lo12 (.invl tc va)
  | _ => none

/-- MAJ 0x30 (R87, R96): the branches. -/
def decodeBranch (tc : BitVec 2) (b : BitVec 23) : Option Instr :=
  let va := b.extractLsb' 13 7
  let off := b.extractLsb' 0 13
  match (b.extractLsb' 20 3).toNat with
  | 0 => some (.brEqz tc va off)
  | 1 => some (.brNez tc va off)
  | 2 => some (.brLtz tc va off)
  | 3 => some (.brGez tc va off)
  | 4 => some (.brGtz tc va off)
  | 5 => some (.brLez tc va off)
  | 6 => onlyIf (va == 0) (.brAlw tc off)
  | _ => none

/-- MAJ 0x0D, 0x33, 0x34, 0x38 and 0x39 (R96): hatches and lane special registers, barriers,
thread control, traps and the trap state. -/
def decodeLX (maj : Nat) (tc : BitVec 2) (b : BitVec 23) : Option Instr :=
  let sel := (b.extractLsb' 21 2).toNat
  let reg := b.extractLsb' 14 7
  let idx := b.extractLsb' 0 11
  match maj with
  | 0x0D =>
    let h := b.extractLsb' 0 8
    let v := b.extractLsb' 16 7
    let z := b.extractLsb' 8 6 == 0
    match (b.extractLsb' 14 2).toNat with
    | 0 => onlyIf z (.hget tc v h)
    | 1 => onlyIf z (.htake tc v h)
    | 2 => onlyIf z (.hput tc v h)
    | _ => onlyIf z (.rdls tc v h)
  | 0x33 =>
    let z3 := b.extractLsb' 11 3 == 0
    let z := reg == 0 && z3
    match sel with
    | 0 => onlyIf z (.barArv tc idx)
    | 1 => onlyIf z (.barWt tc idx)
    | 2 => onlyIf z (.barSync tc idx)
    | _ => onlyIf z3 (.barArvc tc reg idx)
  | 0x34 =>
    let z := b.extractLsb' 0 21 == 0
    match sel with
    | 0 => onlyIf z (.nop tc)
    | 1 => onlyIf z (.barg tc)
    | 2 => onlyIf z (.exit tc)
    | _ => onlyIf z (.yield tc)
  | 0x38 =>
    let z5 := b.extractLsb' 16 5 == 0
    let z := b.extractLsb' 0 21 == 0
    let code := b.extractLsb' 0 16
    match sel with
    | 0 => onlyIf z5 (.trap tc code)
    | 1 => onlyIf z (.rett tc)
    | 2 => onlyIf z5 (.brk tc code)
    | _ => onlyIf z (.ill tc)
  | 0x39 =>
    let z := b.extractLsb' 3 11 == 0
    let x := b.extractLsb' 0 3
    match sel with
    | 0 => onlyIf z (.rdts tc reg x)
    | 1 => onlyIf z (.wrts tc reg x)
    | _ => none
  | _ => none

/-- The lane set (R95): TC, the major opcode and bits [22:0] of a word whose bit [31] is 0. -/
def decodeLane (tc : BitVec 2) (maj : Nat) (b : BitVec 23) : Option Instr :=
  let vd := b.extractLsb' 16 7
  let va := b.extractLsb' 9 7
  let imm9 := b.extractLsb' 0 9
  match maj with
  | 0x08 => some (.addi tc vd va imm9)
  | 0x09 =>
    let n := b.extractLsb' 0 5
    let z := b.extractLsb' 7 2 == 0
    match (b.extractLsb' 5 2).toNat with
    | 0 => onlyIf z (.shli tc vd va n)
    | 1 => onlyIf z (.shri tc vd va n)
    | 2 => onlyIf z (.sari tc vd va n)
    | _ => onlyIf z (.rori tc vd va n)
  | 0x0B => some (.movi tc vd (b.extractLsb' 0 16))
  | 0x0C => onlyIf (va == 0 && b.extractLsb' 0 1 == 0) (.movs tc vd (b.extractLsb' 1 8))
  | 0x0D => decodeLX 0x0D tc b
  | 0x2C => some (.atom32 tc vd va (b.extractLsb' 5 4) (b.extractLsb' 2 3) (b.extractLsb' 0 2))
  | 0x2D => some (.atom64 tc vd va (b.extractLsb' 5 4) (b.extractLsb' 2 3) (b.extractLsb' 0 2))
  | 0x2E => some (.red tc vd va (b.extractLsb' 5 4) (b.extractLsb' 2 3) (b.extractLsb' 0 2))
  | 0x2F => decodeMemX tc b
  | 0x30 => decodeBranch tc b
  | 0x31 => some (.call tc vd (b.extractLsb' 0 16))
  | 0x33 => decodeLX 0x33 tc b
  | 0x34 => decodeLX 0x34 tc b
  | 0x38 => decodeLX 0x38 tc b
  | 0x39 => decodeLX 0x39 tc b
  | 0x3C =>
    onlyIf (tc == 0) (.mod vd (b.extractLsb' 15 1) (b.extractLsb' 14 1) (b.extractLsb' 13 1)
      (b.extractLsb' 12 1) (b.extractLsb' 4 8) (b.extractLsb' 0 4))
  | 0x3D => onlyIf (tc == 0) (.limm b)
  | m =>
    if 0x20 ≤ m ∧ m ≤ 0x2B then
      decodeLM m tc vd va (b.extractLsb' 7 2) (b.extractLsb' 4 3) (b.extractLsb' 0 4)
    else
      decodeLR m (b.extractLsb' 0 2).toNat tc vd va (b.extractLsb' 2 7)

/-- MAJ 0x0E of the uniform set (R98, R99, R203): special registers and hatches. HPOIS, FATTACH and
FDETACH are the UWRSR words of special registers 0x00B to 0x00D (R208). -/
def decodeUSys (tc : BitVec 2) (b : BitVec 24) : Option Instr :=
  let r := b.extractLsb' 12 8
  let n := b.extractLsb' 0 12
  let h := b.extractLsb' 0 4
  let z := b.extractLsb' 4 8 == 0
  let z20 := b.extractLsb' 0 20 == 0
  match (b.extractLsb' 20 4).toNat with
  | 0 => some (.urdsr tc r n)
  | 1 =>
    match n.toNat with
    | 0x00B => some (.hpois tc r)
    | 0x00C => some (.fattach tc r)
    | 0x00D => some (.fdetach tc r)
    | _ => some (.uwrsr tc r n)
  | 2 => onlyIf z (.uhput tc r h)
  | 3 => onlyIf z (.uhget tc r h)
  | 4 => onlyIf z (.uhtake tc r h)
  | 5 => onlyIf z20 (.unop tc)
  | 6 => onlyIf z20 (.uyield tc)
  | _ => none

/-- MAJ 0x0F and 0x16 to 0x19 of the uniform set (R98, R99, R203, R219). -/
def decodeUX (maj : Nat) (tc : BitVec 2) (b : BitVec 24) : Option Instr :=
  let sub := (b.extractLsb' 20 4).toNat
  let r := b.extractLsb' 12 8
  let n11 := b.extractLsb' 0 11
  let n12 := b.extractLsb' 0 12
  let b11 := b.extractLsb' 11 1 == 0
  match maj with
  | 0x0F =>
    let p := b.extractLsb' 5 7
    let ord := b.extractLsb' 3 2
    let scope := b.extractLsb' 0 3
    match sub with
    | 0 => some (.uld32 tc r p ord scope)
    | 1 => some (.uld64 tc r p ord scope)
    | 2 => some (.ust32 tc r p ord scope)
    | 3 => some (.ust64 tc r p ord scope)
    | _ => none
  | 0x16 =>
    match sub with
    | 0 => onlyIf (b.extractLsb' 16 1 == 0) (.waitc tc (b.extractLsb' 17 3) (b.extractLsb' 0 16))
    | _ => none
  | 0x17 =>
    match sub with
    | 0 => onlyIf (b.extractLsb' 3 9 == 0) (.lnchSucc tc r (b.extractLsb' 0 3))
    | 1 => onlyIf (b.extractLsb' 2 10 == 0) (.lnchLmode tc r (b.extractLsb' 0 2))
    | 2 => onlyIf (b.extractLsb' 2 10 == 0) (.lnchCancel tc r (b.extractLsb' 0 2))
    | _ => none
  | 0x18 =>
    match sub with
    | 0 => onlyIf b11 (.balloc tc r n11)
    | 1 => onlyIf (b11 && r == 0) (.bfree tc n11)
    | 2 => if b11 then onlyIf (r == 0) (.binitAll tc n11) else some (.binitCount tc r n11)
    | _ => none
  | 0x19 =>
    match sub with
    | 0 => onlyIf (r == 0) (.utrap tc n12)
    | 1 => some (.upark tc r n12)
    | _ => none
  | _ => none

/-- The uniform set (R98): TC, the major opcode and bits [23:0] of a word whose bit [31] is 1. -/
def decodeUniform (tc : BitVec 2) (maj : Nat) (b : BitVec 24) : Option Instr :=
  let d := b.extractLsb' 16 8
  let a := b.extractLsb' 8 8
  let c := b.extractLsb' 0 8
  let i16 := b.extractLsb' 0 16
  let flags0 := c == 0
  match maj with
  | 0x00 => some (.uadd tc d a c)
  | 0x01 => some (.usub tc d a c)
  | 0x02 => some (.uand tc d a c)
  | 0x03 => some (.uor tc d a c)
  | 0x04 => some (.uxor tc d a c)
  | 0x05 => some (.umul tc d a c)
  | 0x06 => some (.umin tc d a c)
  | 0x07 => some (.umax tc d a c)
  | 0x08 => some (.uaddi tc d a c)
  | 0x09 => onlyIf (b.extractLsb' 5 1 == 0) (.ushi tc d a (b.extractLsb' 6 2) (b.extractLsb' 0 5))
  | 0x0A => some (.umovi tc d i16)
  | 0x0B => some (.umovh tc d i16)
  | 0x0C => some (.ucmp tc (b.extractLsb' 21 3) (b.extractLsb' 16 5) a c)
  | 0x0D => some (.ubr tc (b.extractLsb' 21 3) (b.extractLsb' 18 3) (b.extractLsb' 0 18))
  | 0x0E => decodeUSys tc b
  | 0x10 => onlyIf flags0 (.pan tc d a)
  | 0x11 => onlyIf flags0 (.grn tc d a)
  | 0x12 => onlyIf flags0 (.cpy tc d a)
  | 0x13 =>
    match c.toNat with
    | 0 => some (.gatNear tc d a)
    | 1 => some (.gatHome tc d a)
    | _ => none
  | 0x14 => onlyIf flags0 (.sct tc d a)
  | 0x15 => onlyIf flags0 (.fab tc d a)
  | m => decodeUX m tc b

/-- The fields of a word, before the checks on their values. -/
def decodeFields (w : Word32) : Option Instr :=
  if w.getLsbD 31 then
    decodeUniform (w.extractLsb' 29 2) (w.extractLsb' 24 5).toNat (w.extractLsb' 0 24)
  else
    decodeLane (w.extractLsb' 29 2) (w.extractLsb' 23 6).toNat (w.extractLsb' 0 23)

/-- The instruction that a word is, or `none` where R101 refuses it. The words 0x0000_0000 and
0xFFFF_FFFF are refused (R83): the first through `Instr.wf`, the second as a reserved MAJ. -/
def decodeWord (w : Word32) : Option Instr :=
  match decodeFields w with
  | some i => if i.wf then some i else none
  | none => none

/-- A little-endian 32-bit word from its four bytes (R5, R83). -/
def wordOfBytes (b0 b1 b2 b3 : Byte) : Word32 := b3 ++ b2 ++ b1 ++ b0

/-- The instruction in the first four bytes of a list, and what follows them. -/
def decodeBytes : List Byte → Option (Instr × List Byte)
  | b0 :: b1 :: b2 :: b3 :: rest =>
    match decodeWord (wordOfBytes b0 b1 b2 b3) with
    | some i => some (i, rest)
    | none => none
  | _ => none

/-- The little-endian bytes of a word (R5, R83). -/
def bytesOfWord (w : Word32) : List Byte :=
  [w.extractLsb' 0 8, w.extractLsb' 8 8, w.extractLsb' 16 8, w.extractLsb' 24 8]

/-- The instruction of an opcode-table word: every instruction is one 32-bit word, stored
little-endian, and the bits above `nbits` are 0. -/
def decodeTableWord (nbits w : Nat) : Option Instr :=
  match decodeBytes (bytesOfWord (BitVec.ofNat 32 (w % 2 ^ nbits))) with
  | some (i, _) => some i
  | none => none

/-! ### The encoder -/

/-- A lane word from TC, MAJ and bits [22:0] (R83). -/
def laneWord (tc : BitVec 2) (maj : BitVec 6) (b : BitVec 23) : Word32 := 0#1 ++ tc ++ maj ++ b

/-- A uniform word from TC, MAJ and bits [23:0] (R83). -/
def uniformWord (tc : BitVec 2) (maj : BitVec 5) (b : BitVec 24) : Word32 := 1#1 ++ tc ++ maj ++ b

/-- Format LR (R87). -/
def lrWord (tc : BitVec 2) (maj : BitVec 6) (vd va vb : BitVec 7) (fn : BitVec 2) : Word32 :=
  laneWord tc maj (vd ++ va ++ vb ++ fn)

/-- Format LM (R87). -/
def lmWord (tc : BitVec 2) (maj : BitVec 6) (vt va : BitVec 7) (ord : BitVec 2) (scope : BitVec 3)
    (off4 : BitVec 4) : Word32 :=
  laneWord tc maj (vt ++ va ++ ord ++ scope ++ off4)

/-- Format LA (R87). -/
def laWord (tc : BitVec 2) (maj : BitVec 6) (vd va : BitVec 7) (op : BitVec 4) (scope : BitVec 3)
    (ord : BitVec 2) : Word32 :=
  laneWord tc maj (vd ++ va ++ op ++ scope ++ ord)

/-- The immediate shifts of MAJ 0x09 (R96). -/
def shiftWord (tc : BitVec 2) (vd va : BitVec 7) (kind : BitVec 2) (n : BitVec 5) : Word32 :=
  laneWord tc 0x09 (vd ++ va ++ 0#2 ++ kind ++ n)

/-- MAJ 0x0D (R96, R129, R133). -/
def hatchWord (tc : BitVec 2) (v : BitVec 7) (sel : BitVec 2) (h : BitVec 8) : Word32 :=
  laneWord tc 0x0D (v ++ sel ++ 0#6 ++ h)

/-- The row instructions and cache maintenance of MAJ 0x2F (R96). -/
def memXWord (tc : BitVec 2) (sub : BitVec 4) (va vb : BitVec 7) : Word32 :=
  laneWord tc 0x2F (sub ++ va ++ vb ++ 0#5)

/-- Format LB (R87). -/
def lbWord (tc : BitVec 2) (cond : BitVec 3) (va : BitVec 7) (off : BitVec 13) : Word32 :=
  laneWord tc 0x30 (cond ++ va ++ off)

/-- The barriers of MAJ 0x33 (R96). -/
def barWord (tc : BitVec 2) (sel : BitVec 2) (va : BitVec 7) (n : BitVec 11) : Word32 :=
  laneWord tc 0x33 (sel ++ va ++ 0#3 ++ n)

/-- A selector in [22:21] and a 16-bit code: MAJ 0x34 and 0x38 (R96). -/
def selWord (tc : BitVec 2) (maj : BitVec 6) (sel : BitVec 2) (code : BitVec 16) : Word32 :=
  laneWord tc maj (sel ++ 0#5 ++ code)

/-- RDTS and WRTS (R96). -/
def tsWord (tc : BitVec 2) (sel : BitVec 2) (r : BitVec 7) (x : BitVec 3) : Word32 :=
  laneWord tc 0x39 (sel ++ r ++ 0#11 ++ x)

/-- Formats UR, UI and UE (R94). -/
def urWord (tc : BitVec 2) (maj : BitVec 5) (d a c : BitVec 8) : Word32 :=
  uniformWord tc maj (d ++ a ++ c)

/-- Format UL (R94). -/
def ulWord (tc : BitVec 2) (maj : BitVec 5) (d : BitVec 8) (i : BitVec 16) : Word32 :=
  uniformWord tc maj (d ++ i)

/-- Format UX with a register and 12 further bits (R94, R99). -/
def uxWord (tc : BitVec 2) (maj : BitVec 5) (sub : BitVec 4) (r : BitVec 8) (n : BitVec 12) :
    Word32 :=
  uniformWord tc maj (sub ++ r ++ n)

/-- The word of an instruction, written from R87, R90 to R99; `none` for an event, which has no
word. -/
def encode : Instr → Option Word32
  | .mod vc tea teb tec us sidx xmod => some (laneWord 0 0x3C (vc ++ tea ++ teb ++ tec ++ us ++ sidx ++ xmod))
  | .limm imm => some (laneWord 0 0x3D imm)
  | .add tc vd va vb => some (lrWord tc 0x00 vd va vb 0)
  | .sub tc vd va vb => some (lrWord tc 0x00 vd va vb 1)
  | .min tc vd va vb => some (lrWord tc 0x00 vd va vb 2)
  | .max tc vd va vb => some (lrWord tc 0x00 vd va vb 3)
  | .minu tc vd va vb => some (lrWord tc 0x01 vd va vb 0)
  | .maxu tc vd va vb => some (lrWord tc 0x01 vd va vb 1)
  | .absd tc vd va vb => some (lrWord tc 0x01 vd va vb 2)
  | .addsat tc vd va vb => some (lrWord tc 0x01 vd va vb 3)
  | .and tc vd va vb => some (lrWord tc 0x02 vd va vb 0)
  | .or tc vd va vb => some (lrWord tc 0x02 vd va vb 1)
  | .xor tc vd va vb => some (lrWord tc 0x02 vd va vb 2)
  | .andn tc vd va vb => some (lrWord tc 0x02 vd va vb 3)
  | .shl tc vd va vb => some (lrWord tc 0x03 vd va vb 0)
  | .shr tc vd va vb => some (lrWord tc 0x03 vd va vb 1)
  | .sar tc vd va vb => some (lrWord tc 0x03 vd va vb 2)
  | .ror tc vd va vb => some (lrWord tc 0x03 vd va vb 3)
  | .mul tc vd va vb => some (lrWord tc 0x04 vd va vb 0)
  | .mulhi tc vd va vb => some (lrWord tc 0x04 vd va vb 1)
  | .mulhiu tc vd va vb => some (lrWord tc 0x04 vd va vb 2)
  | .mad tc vd va vb => some (lrWord tc 0x04 vd va vb 3)
  | .div tc vd va vb => some (lrWord tc 0x05 vd va vb 0)
  | .divu tc vd va vb => some (lrWord tc 0x05 vd va vb 1)
  | .rem tc vd va vb => some (lrWord tc 0x05 vd va vb 2)
  | .remu tc vd va vb => some (lrWord tc 0x05 vd va vb 3)
  | .seq tc vd va vb => some (lrWord tc 0x06 vd va vb 0)
  | .sne tc vd va vb => some (lrWord tc 0x06 vd va vb 1)
  | .slt tc vd va vb => some (lrWord tc 0x06 vd va vb 2)
  | .sltu tc vd va vb => some (lrWord tc 0x06 vd va vb 3)
  | .sel tc vd va vb => some (lrWord tc 0x07 vd va vb 0)
  | .clz tc vd va => some (lrWord tc 0x07 vd va 0 1)
  | .popc tc vd va => some (lrWord tc 0x07 vd va 0 2)
  | .brev tc vd va => some (lrWord tc 0x07 vd va 0 3)
  | .addi tc vd va imm => some (laneWord tc 0x08 (vd ++ va ++ imm))
  | .shli tc vd va n => some (shiftWord tc vd va 0 n)
  | .shri tc vd va n => some (shiftWord tc vd va 1 n)
  | .sari tc vd va n => some (shiftWord tc vd va 2 n)
  | .rori tc vd va n => some (shiftWord tc vd va 3 n)
  | .bfx tc vd va vb => some (lrWord tc 0x0A vd va vb 0)
  | .bfxu tc vd va vb => some (lrWord tc 0x0A vd va vb 1)
  | .bfi tc vd va vb => some (lrWord tc 0x0A vd va vb 2)
  | .prmb tc vd va vb => some (lrWord tc 0x0A vd va vb 3)
  | .movi tc vd imm => some (laneWord tc 0x0B (vd ++ imm))
  | .movs tc vd sb => some (laneWord tc 0x0C (vd ++ 0#7 ++ sb ++ 0#1))
  | .hget tc vd h => some (hatchWord tc vd 0 h)
  | .htake tc vd h => some (hatchWord tc vd 1 h)
  | .hput tc vs h => some (hatchWord tc vs 2 h)
  | .rdls tc vd n => some (hatchWord tc vd 3 n)
  | .xlnIdx tc vd va vb => some (lrWord tc 0x0E vd va vb 0)
  | .xlnXor tc vd va vb => some (lrWord tc 0x0E vd va vb 1)
  | .xlnUp tc vd va vb => some (lrWord tc 0x0E vd va vb 2)
  | .xlnDn tc vd va vb => some (lrWord tc 0x0E vd va vb 3)
  | .voteAny tc vd va => some (lrWord tc 0x0F vd va 0 0)
  | .voteAll tc vd va => some (lrWord tc 0x0F vd va 0 1)
  | .voteBal tc vd va => some (lrWord tc 0x0F vd va 0 2)
  | .xred tc vd va => some (lrWord tc 0x0F vd va 0 3)
  | .fadd tc vd va vb => some (lrWord tc 0x10 vd va vb 0)
  | .fsub tc vd va vb => some (lrWord tc 0x10 vd va vb 1)
  | .fmul tc vd va vb => some (lrWord tc 0x10 vd va vb 2)
  | .fmin tc vd va vb => some (lrWord tc 0x10 vd va vb 3)
  | .fmax tc vd va vb => some (lrWord tc 0x11 vd va vb 0)
  | .ffma tc vd va vb => some (lrWord tc 0x11 vd va vb 1)
  | .fseq tc vd va vb => some (lrWord tc 0x12 vd va vb 0)
  | .fslt tc vd va vb => some (lrWord tc 0x12 vd va vb 1)
  | .fsle tc vd va vb => some (lrWord tc 0x12 vd va vb 2)
  | .fsun tc vd va vb => some (lrWord tc 0x12 vd va vb 3)
  | .hadd2 tc vd va vb => some (lrWord tc 0x13 vd va vb 0)
  | .hmul2 tc vd va vb => some (lrWord tc 0x13 vd va vb 1)
  | .hfma2 tc vd va vb => some (lrWord tc 0x13 vd va vb 2)
  | .hmax2 tc vd va vb => some (lrWord tc 0x13 vd va vb 3)
  | .frcp tc vd va => some (lrWord tc 0x14 vd va 0 0)
  | .frsq tc vd va => some (lrWord tc 0x14 vd va 0 1)
  | .fex2 tc vd va => some (lrWord tc 0x14 vd va 0 2)
  | .flg2 tc vd va => some (lrWord tc 0x14 vd va 0 3)
  | .fdiv tc vd va vb => some (lrWord tc 0x15 vd va vb 0)
  | .fsqrt tc vd va => some (lrWord tc 0x15 vd va 0 1)
  | .fscl tc vd va vb => some (lrWord tc 0x15 vd va vb 2)
  | .ffrc tc vd va => some (lrWord tc 0x15 vd va 0 3)
  | .cvtF32S32 tc vd va => some (lrWord tc 0x16 vd va 0 0)
  | .cvtS32F32 tc vd va => some (lrWord tc 0x16 vd va 0 1)
  | .cvtF32Bf16 tc vd va => some (lrWord tc 0x16 vd va 0 2)
  | .cvtBf16F32 tc vd va vb => some (lrWord tc 0x16 vd va vb 3)
  | .cvtE4m3F32 tc vd va => some (lrWord tc 0x17 vd va 0 0)
  | .cvtF32E4m3 tc vd va => some (lrWord tc 0x17 vd va 0 1)
  | .cvtE5m2F32 tc vd va => some (lrWord tc 0x17 vd va 0 2)
  | .cvtF32E5m2 tc vd va => some (lrWord tc 0x17 vd va 0 3)
  | .scacc tc vd va vb => some (lrWord tc 0x18 vd va vb 0)
  | .scacc2 tc vd va vb => some (lrWord tc 0x18 vd va vb 1)
  | .qnt8 tc vd va vb => some (lrWord tc 0x18 vd va vb 2)
  | .qnte4 tc vd va vb => some (lrWord tc 0x18 vd va vb 3)
  | .dp4 tc vd va vb => some (lrWord tc 0x19 vd va vb 0)
  | .dp4u tc vd va vb => some (lrWord tc 0x19 vd va vb 1)
  | .dp2h tc vd va vb => some (lrWord tc 0x19 vd va vb 2)
  | .trnQ tc vd va vb => some (lrWord tc 0x1A vd va vb 0)
  | .trnPk tc vd va => some (lrWord tc 0x1A vd va 0 1)
  | .trnUp tc vd va => some (lrWord tc 0x1A vd va 0 2)
  | .trnDg tc vd va vb => some (lrWord tc 0x1A vd va vb 3)
  | .trnChk4 tc vd va => some (lrWord tc 0x1B vd va 0 0)
  | .trnZ4 tc vd va => some (lrWord tc 0x1B vd va 0 1)
  | .ldU8 tc vt va ord scope off4 => some (lmWord tc 0x20 vt va ord scope off4)
  | .ldS8 tc vt va ord scope off4 => some (lmWord tc 0x21 vt va ord scope off4)
  | .ldU16 tc vt va ord scope off4 => some (lmWord tc 0x22 vt va ord scope off4)
  | .ldS16 tc vt va ord scope off4 => some (lmWord tc 0x23 vt va ord scope off4)
  | .ldB32 tc vt va ord scope off4 => some (lmWord tc 0x24 vt va ord scope off4)
  | .ldB64 tc vt va ord scope off4 => some (lmWord tc 0x25 vt va ord scope off4)
  | .ldB128 tc vt va ord scope off4 => some (lmWord tc 0x26 vt va ord scope off4)
  | .stB8 tc vt va ord scope off4 => some (lmWord tc 0x27 vt va ord scope off4)
  | .stB16 tc vt va ord scope off4 => some (lmWord tc 0x28 vt va ord scope off4)
  | .stB32 tc vt va ord scope off4 => some (lmWord tc 0x29 vt va ord scope off4)
  | .stB64 tc vt va ord scope off4 => some (lmWord tc 0x2A vt va ord scope off4)
  | .stB128 tc vt va ord scope off4 => some (lmWord tc 0x2B vt va ord scope off4)
  | .atom32 tc vd va op scope ord => some (laWord tc 0x2C vd va op scope ord)
  | .atom64 tc vd va op scope ord => some (laWord tc 0x2D vd va op scope ord)
  | .red tc vd va op scope ord => some (laWord tc 0x2E vd va op scope ord)
  | .fence tc kind scope => some (laneWord tc 0x2F (0#4 ++ kind ++ scope ++ 0#14))
  | .ldrowNear tc va vb => some (memXWord tc 1 va vb)
  | .ldrowHome tc va vb => some (memXWord tc 2 va vb)
  | .strow tc va vb => some (memXWord tc 3 va vb)
  | .raddBf16 tc va vb => some (memXWord tc 4 va vb)
  | .raddF32 tc va vb => some (memXWord tc 5 va vb)
  | .rmaxBf16 tc va vb => some (memXWord tc 6 va vb)
  | .prf tc va => some (memXWord tc 7 va 0)
  | .wbl tc va => some (memXWord tc 8 va 0)
  | .invl tc va => some (memXWord tc 9 va 0)
  | .brEqz tc va off => some (lbWord tc 0 va off)
  | .brNez tc va off => some (lbWord tc 1 va off)
  | .brLtz tc va off => some (lbWord tc 2 va off)
  | .brGez tc va off => some (lbWord tc 3 va off)
  | .brGtz tc va off => some (lbWord tc 4 va off)
  | .brLez tc va off => some (lbWord tc 5 va off)
  | .brAlw tc off => some (lbWord tc 6 0 off)
  | .call tc vd off => some (laneWord tc 0x31 (vd ++ off))
  | .jmpr tc va => some (lrWord tc 0x32 0 va 0 0)
  | .callr tc vd va => some (lrWord tc 0x32 vd va 0 1)
  | .ret tc va => some (lrWord tc 0x32 0 va 0 2)
  | .barArv tc n => some (barWord tc 0 0 n)
  | .barWt tc n => some (barWord tc 1 0 n)
  | .barSync tc n => some (barWord tc 2 0 n)
  | .barArvc tc va n => some (barWord tc 3 va n)
  | .nop tc => some (selWord tc 0x34 0 0)
  | .barg tc => some (selWord tc 0x34 1 0)
  | .exit tc => some (selWord tc 0x34 2 0)
  | .yield tc => some (selWord tc 0x34 3 0)
  | .trap tc code => some (selWord tc 0x38 0 code)
  | .rett tc => some (selWord tc 0x38 1 0)
  | .brk tc code => some (selWord tc 0x38 2 code)
  | .ill tc => some (selWord tc 0x38 3 0)
  | .rdts tc vd x => some (tsWord tc 0 vd x)
  | .wrts tc vs x => some (tsWord tc 1 vs x)
  | .uadd tc sd sa sb => some (urWord tc 0x00 sd sa sb)
  | .usub tc sd sa sb => some (urWord tc 0x01 sd sa sb)
  | .uand tc sd sa sb => some (urWord tc 0x02 sd sa sb)
  | .uor tc sd sa sb => some (urWord tc 0x03 sd sa sb)
  | .uxor tc sd sa sb => some (urWord tc 0x04 sd sa sb)
  | .umul tc sd sa sb => some (urWord tc 0x05 sd sa sb)
  | .umin tc sd sa sb => some (urWord tc 0x06 sd sa sb)
  | .umax tc sd sa sb => some (urWord tc 0x07 sd sa sb)
  | .uaddi tc sd sa imm => some (urWord tc 0x08 sd sa imm)
  | .ushi tc sd sa kind n => some (uniformWord tc 0x09 (sd ++ sa ++ kind ++ 0#1 ++ n))
  | .umovi tc sd imm => some (ulWord tc 0x0A sd imm)
  | .umovh tc sd imm => some (ulWord tc 0x0B sd imm)
  | .ucmp tc q cc sa sb => some (uniformWord tc 0x0C (q ++ cc ++ sa ++ sb))
  | .ubr tc cond q off => some (uniformWord tc 0x0D (cond ++ q ++ off))
  | .urdsr tc sd n => some (uxWord tc 0x0E 0 sd n)
  | .uwrsr tc sa n => some (uxWord tc 0x0E 1 sa n)
  | .hpois tc sa => some (uxWord tc 0x0E 1 sa 0x00B)
  | .fattach tc sa => some (uxWord tc 0x0E 1 sa 0x00C)
  | .fdetach tc sa => some (uxWord tc 0x0E 1 sa 0x00D)
  | .uhput tc sa h => some (uxWord tc 0x0E 2 sa (0#8 ++ h))
  | .uhget tc sd h => some (uxWord tc 0x0E 3 sd (0#8 ++ h))
  | .uhtake tc sd h => some (uxWord tc 0x0E 4 sd (0#8 ++ h))
  | .unop tc => some (uxWord tc 0x0E 5 0 0)
  | .uyield tc => some (uxWord tc 0x0E 6 0 0)
  | .uld32 tc sd p ord scope => some (uxWord tc 0x0F 0 sd (p ++ ord ++ scope))
  | .uld64 tc sd p ord scope => some (uxWord tc 0x0F 1 sd (p ++ ord ++ scope))
  | .ust32 tc sa p ord scope => some (uxWord tc 0x0F 2 sa (p ++ ord ++ scope))
  | .ust64 tc sa p ord scope => some (uxWord tc 0x0F 3 sa (p ++ ord ++ scope))
  | .pan tc sp sr => some (urWord tc 0x10 sp sr 0)
  | .grn tc sp sr => some (urWord tc 0x11 sp sr 0)
  | .cpy tc sp sr => some (urWord tc 0x12 sp sr 0)
  | .gatNear tc sp sr => some (urWord tc 0x13 sp sr 0)
  | .gatHome tc sp sr => some (urWord tc 0x13 sp sr 1)
  | .sct tc sp sr => some (urWord tc 0x14 sp sr 0)
  | .fab tc sp sr => some (urWord tc 0x15 sp sr 0)
  | .waitc tc cls k => some (uniformWord tc 0x16 (0#4 ++ cls ++ 0#1 ++ k))
  | .lnchSucc tc sa slot => some (uxWord tc 0x17 0 sa (0#9 ++ slot))
  | .lnchLmode tc sa mode => some (uxWord tc 0x17 1 sa (0#10 ++ mode))
  | .lnchCancel tc sa level => some (uxWord tc 0x17 2 sa (0#10 ++ level))
  | .balloc tc sd n => some (uxWord tc 0x18 0 sd (0#1 ++ n))
  | .bfree tc n => some (uxWord tc 0x18 1 0 (0#1 ++ n))
  | .binitAll tc n => some (uxWord tc 0x18 2 0 (0#1 ++ n))
  | .binitCount tc sa n => some (uxWord tc 0x18 2 sa (1#1 ++ n))
  | .utrap tc code => some (uxWord tc 0x19 0 0 code)
  | .upark tc sa code => some (uxWord tc 0x19 1 sa code)
  | .registerWrite _ _ _ _ => none
  | .launchPacketRead _ => none
  | .launchPop => none
  | .blockExpansion _ => none
  | .innerSluiceMove _ => none
  | .engineItemPush _ => none
  | .coreLeafPop _ => none
  | .panPop _ => none
  | .panStep _ => none
  | .grainerPop _ => none
  | .grainerStep _ => none
  | .copyLeafPop _ => none
  | .segmenterRead _ => none
  | .copySegmentComplete _ => none
  | .engineOpComplete _ => none
  | .successorRelease _ => none
  | .loadComplete _ => none
  | .atomicComplete _ => none
  | .redComplete _ => none
  | .rowReadComplete _ => none
  | .rowWriteApply _ => none
  | .sectorFill _ => none
  | .hatchReadComplete _ => none
  | .lremReadComplete _ => none
  | .lmodeComplete _ => none
  | .translationFault _ => none
  | .registerRead _ _ _ => none
  | .coreCycle _ => none
  | .storePerformed _ => none
  | .powerOnReset _ _ => none
  | .hostRegisterWrite _ _ _ => none
  | .devnumWrite _ => none
  | .classpolWrite _ _ => none
  | .lmodeRegisterWrite _ _ _ => none
  | .stagingRegionWrite _ _ _ => none
  | .panReset _ => none
  | .grainerReset _ => none
  | .engineWatchdog _ _ => none
  | .engineResetEnd _ _ => none
  | .sluiceEnable _ _ => none
  | .sluiceDisable _ _ => none
  | .leafProgWrite _ _ => none
  | .progStoreWrite _ _ _ => none
  | .ndataWrite _ => none
  | .rowEntryValidate _ _ _ => none
  | .rowEntryDeregister _ _ => none
  | .fqansResume _ _ => none
  | .fqansAbort _ _ => none
  | .fqconsWrite _ _ => none
  | .tenantReset _ => none
  | .tenantResetDone _ => none
  | .tlbiPage _ => none
  | .tlbiStage1 _ => none
  | .tlbiAll _ => none
  | .tlbInvalidationDone _ => none
  | .irtUnmask _ => none
  | .attestation => none
  | .attestationDone _ => none
  | .debugRun _ => none
  | .powerWindow _ _ => none
  | .securityAlarm _ => none
  | .readPout _ _ => none
  | .readTemperature1 _ _ => none
  | .readVin _ _ => none
  | .readIout _ _ => none
  | .pmbusLimitRead _ => none
  | .pmbusLimitWrite _ _ => none
  | .idcode => none
  | .bypass _ => none
  | .boundaryScan _ => none
  | .runnerRestart _ => none
  | .aqiLaunch _ => none
  | .aqiCancel _ => none
  | .aqiCopy _ => none
  | .aqiRowreg _ => none
  | .aqiRowdereg _ => none
  | .aqiFqanswer _ => none
  | .aqiFqcons _ => none
  | .hostTransferPop => none
  | .flitReceive _ _ => none
  | .flitNak _ _ _ => none
  | .tombstoneReceive _ _ => none
  | .fabricPacketReceive _ => none
  | .getResponseReceive _ _ _ => none
  | .e2eAckReceive _ _ _ => none
  | .e2eRetryRequest _ _ => none
  | .e2eTimeout _ _ => none
  | .fabricPortPop _ => none
  | .replicatedLaunchReceive _ _ _ => none
  | .readyReceive _ _ _ _ => none
  | .goReceive _ _ _ => none
  | .dropReceive _ _ _ => none
  | .blockSave _ => none
  | .parkedBarrierArrival _ => none
  | .stagingStart _ _ => none
  | .stagingComplete _ _ => none
  | .tailRepush _ _ => none
  | .engineTranslationFault _ => none
  | .cancel _ _ _ => none
  | .starvationOverride _ => none
  | .floorQueueEntry _ => none
  | .uniformFloorQueueEntry _ => none
  | .deferralEnd _ => none
  | .runExpiry _ => none
  | .barrierReleaseArrival _ => none
  | .launchBarrierRelease _ => none
  | .barrierTimeout _ _ => none
  | .bargTimeout _ => none
  | .blockStalled _ => none
  | .nearProbe _ => none
  | .lineEviction _ _ => none
  | .ballocAnswer _ => none
  | .faultRecordDrain _ => none
  | .barrierArrivalReceive _ => none
  | .hostTransferComplete _ => none
  | .bridgeRequestReceive _ => none
  | .linkTraining _ => none

end Sys2Proof
end

