-- ==== Sys2Proof/Machine/Flags.lean ====
section
/-! DEFINITION. The flags of this hardware: full/empty and poison bits of registers (R48 to R51), the
predicates of a group (R27, R206), and the conditions of branches and compares (R184, R206, R207). -/

namespace Sys2Proof.Machine

/-- A register written by an instruction: full, poison clear (R119, R202). -/
def Reg.ofVal (v : Word32) : Reg := ⟨v, true, false⟩

/-- A register set empty at the issue of a long-latency producer (R48). -/
def Reg.emptied (r : Reg) : Reg := { r with full := false }

/-- A register whose producer was cancelled or faulted: full with the poison bit set (R51). -/
def Reg.poisoned (r : Reg) : Reg := { r with full := true, poison := true }

/-- A lane register of a thread; one that nothing has changed holds 0, full and clean (R117). -/
def Thread.reg (th : Thread) (i : Nat) : Reg := th.regs.getD i Reg.zero

/-- Writes a lane register. -/
def Thread.setReg (th : Thread) (i : Nat) (r : Reg) : Thread :=
  { th with regs := th.regs.put Reg.zero i r }

/-- A uniform register; s0 reads 0 (R29). -/
def Group.sreg (g : Group) (i : Nat) : Reg := if i = 0 then Reg.zero else g.sregs.getD i Reg.zero

/-- Writes a uniform register; a write to s0 is discarded (R29, R94). -/
def Group.setSreg (g : Group) (i : Nat) (r : Reg) : Group :=
  if i = 0 then g else { g with sregs := g.sregs.put Reg.zero i r }

/-- A hatch of a group. -/
def Group.hatch (g : Group) (i : Nat) : Reg := g.hatches.getD i Reg.zero

/-- Writes a hatch. -/
def Group.setHatch (g : Group) (i : Nat) (r : Reg) : Group :=
  { g with hatches := g.hatches.put Reg.zero i r }

/-- A predicate; q0 reads true (R29). -/
def Group.pred (g : Group) (q : Nat) : Bool := q == 0 || g.preds.getLsbD q

/-- Writes a predicate; a write to q0 is discarded (R94, R202). -/
def Group.setPred (g : Group) (q : Nat) (v : Bool) : Group :=
  if q = 0 then g
  else { g with preds := if v then g.preds ||| BitVec.ofNat 8 (2 ^ q)
                         else g.preds &&& ~~~(BitVec.ofNat 8 (2 ^ q)) }

/-- The group's outstanding counter of a class: ISS − RET (R238). -/
def Group.counter (g : Group) (cls : Nat) : Nat := g.iss.getD cls 0 - g.ret.getD cls 0

/-- The condition of UCMP (R206). -/
def compareHolds (cc : Nat) (a b : Word32) : Bool :=
  match cc with
  | 0 => a == b
  | 1 => a != b
  | 2 => a.slt b
  | 3 => !a.slt b
  | 4 => a.ult b
  | _ => !a.ult b

/-- The condition of BR on va (R184): EQZ, NEZ, LTZ, GEZ, GTZ, LEZ, ALW. -/
def branchHolds (cond : Nat) (x : Word32) : Bool :=
  match cond with
  | 0 => x == 0
  | 1 => x != 0
  | 2 => x.slt 0
  | 3 => !x.slt 0
  | 4 => (0 : Word32).slt x
  | 5 => !(0 : Word32).slt x
  | _ => true

/-- The condition of UBR (R207): always, predicate set, predicate clear. -/
def uniformBranchHolds (cond : Nat) (q : Bool) : Bool :=
  match cond with
  | 0 => true
  | 1 => q
  | _ => !q

/-- The least counter of leading zero bits (R122). -/
def clz32 (v : Word32) : Nat :=
  match (natRange 0 32).find? (fun i => v.getLsbD (31 - i)) with
  | some i => i
  | none => 32

/-- The number of one bits (R122). -/
def popCount (v : Word32) : Nat := ((natRange 0 32).filter (fun i => v.getLsbD i)).length

/-- Bit i moved to bit 31 − i (R122). -/
def reverse32 (v : Word32) : Word32 := v.reverse

/-- 1 for true, 0 for false (R121, R145). -/
def boolWord (b : Bool) : Word32 := if b then 1 else 0

end Sys2Proof.Machine
end

