-- ==== Sys2Proof/Machine/Operands.lean ====
section
/-! DEFINITION. Operand forms: the fields of MOD and what an instruction may carry of them (R90, R91,
R140, R160, R182), the roles of lane sources (R89), and the checks that precede an effect (R29,
R49 to R51). -/

namespace Sys2Proof.Machine

/-- vc of a MOD word (R90). -/
def modVc (m : Word32) : BitVec 7 := m.extractLsb' 16 7
/-- TEa of a MOD word (R90). -/
def modTea (m : Word32) : Bool := m.getLsbD 15
/-- TEb of a MOD word (R90). -/
def modTeb (m : Word32) : Bool := m.getLsbD 14
/-- TEc of a MOD word (R90). -/
def modTec (m : Word32) : Bool := m.getLsbD 13
/-- US of a MOD word (R90). -/
def modUs (m : Word32) : Bool := m.getLsbD 12
/-- sidx of a MOD word (R90). -/
def modSidx (m : Word32) : BitVec 8 := m.extractLsb' 4 8
/-- xmod of a MOD word (R90). -/
def modX (m : Word32) : BitVec 4 := m.extractLsb' 0 4
/-- The high 12 bits of the offset of an LM instruction (R91). -/
def modOff (m : Word32) : BitVec 12 := m.extractLsb' 0 12

/-- The MOD word of a unit, all of whose fields are 0 when there is none (R90, R141). -/
def Issue.modOr0 (u : Issue) : Word32 :=
  match u.modWord with
  | some m => m
  | none => 0

/-- The address that follows the unit's last word (R84). -/
def Issue.next (u : Issue) : Word64 := u.wordAddr + 4

/-- What a lane instruction reads and writes, and what MOD may say about it: lane registers per role
(R89), the destination registers, whether US is legal and vb is 0 as US needs, a uniform register that
the instruction itself reads (MOVS), the legal xmod values, and whether MOD bits [12:0] are the offset
of R91. -/
structure Use where
  a    : List Nat
  b    : List Nat
  c    : Bool
  imp  : List Nat
  dst  : List Nat
  roleB : Bool
  us   : Bool
  sb   : Option Nat
  xm   : Nat → Bool
  lm   : Bool
  la   : Bool
  limm : Bool

/-- Only xmod 0 is assigned (R101). -/
def noXmod (x : Nat) : Bool := x == 0

/-- A lane instruction that reads and writes nothing and takes no MOD field. -/
def Use.plain : Use := ⟨[], [], false, [], [], false, false, none, noXmod, false, false, false⟩

/-- Format LR with sources a and b (R118, R139). -/
def Use.ab (vd va vb : BitVec 7) : Use :=
  { Use.plain with a := [va.toNat], b := [vb.toNat], dst := [vd.toNat], roleB := true, us := vb == 0 }

/-- Format LR with source a alone. -/
def Use.one (vd va : BitVec 7) : Use := { Use.plain with a := [va.toNat], dst := [vd.toNat] }

/-- Also reads vd as an implicit source (R89). -/
def Use.implicit (u : Use) (vd : BitVec 7) : Use := { u with imp := [vd.toNat] }

/-- Also reads role c, from MOD's vc (R90). -/
def Use.withC (u : Use) : Use := { u with c := true }

/-- Also takes some xmod values (R137, R141). -/
def Use.withX (u : Use) (f : Nat → Bool) : Use := { u with xm := f }

/-- The two registers of an address operand (R159, R183). -/
def addrRegs (v : BitVec 7) : List Nat := [v.toNat, v.toNat + 1]

/-- The fields of MOD are legal for the instruction (R90, R91, R101). With US = 1 the vb field is 0. -/
def Use.modOk (use : Use) (m : Word32) (vregs uregs : Nat) : Bool :=
  (if use.c then decide ((modVc m).toNat < vregs) else modVc m == 0) &&
  (!modTea m || !use.a.isEmpty) &&
  (!modTeb m || use.roleB) &&
  (!modTec m || use.c) &&
  (if use.lm then !modUs m
   else if use.la then m.extractLsb' 0 13 == 0
   else
     (if modUs m then use.us && decide ((modSidx m).toNat < uregs) else modSidx m == 0) &&
     use.xm (modX m).toNat)

/-- The unit reads its role-b operand from a uniform register (R90). -/
def Use.readsUs (use : Use) (u : Issue) : Bool := !use.lm && !use.la && modUs u.modOr0

/-- The lane registers of role b that the unit reads. -/
def Use.bRegs (use : Use) (u : Issue) : List Nat := if use.readsUs u then [] else use.b

/-- The lane registers of role c that the unit reads. -/
def Use.cRegs (use : Use) (u : Issue) : List Nat :=
  if use.c then [(modVc u.modOr0).toNat] else []

/-- The uniform register that the unit reads, if any. -/
def Use.uniReg (use : Use) (u : Issue) : Option Nat :=
  match use.sb with
  | some i => some i
  | none => if use.readsUs u then some (modSidx u.modOr0).toNat else none

/-- What becomes of one thread of a lane unit. -/
inductive LaneAct where
  /-- it executes, and stands so afterwards -/
  | run (th : Thread)
  /-- it takes BLOCKED and does not issue (R39) -/
  | wait (w : Wait)
  /-- it takes a precise trap -/
  | trap (cause : Nat) (tval : Word64)
  /-- the decoder refuses the unit (R101): illegal instruction, with the offending word -/
  | refuse (word : Word32)
  /-- it parks -/
  | park (p : Park)
  /-- the debugger halts it before the unit executes (R350) -/
  | halt
  deriving DecidableEq, Repr

/-- The uniform register of a group as it stood at the start of the cycle (R120). -/
def snapSreg (s : State) (k i : Nat) : Reg :=
  match s.cyc with
  | some c =>
    match c.snap.find (groupOf k) with
    | some g => g.sreg i
    | none => Reg.zero
  | none => Reg.zero

/-- The launch packet's `.vregs` and `.uregs` of a thread's block. -/
def State.limits (s : State) (b : Nat) : Nat × Nat :=
  match s.blocks.find b with
  | some x => (x.packet.vregs, x.packet.uregs)
  | none => (0, 0)

/-- Zero-extends a word to TVAL (R197). -/
def tvalWord (w : Word32) : Word64 := w.setWidth 64

/-- The first word of the unit that is illegal for this instruction (R29, R88, R90, R93, R102), if
one is. -/
def Use.illegal (use : Use) (u : Issue) (vregs uregs : Nat) : Option Word32 :=
  if u.limm.isSome && !use.limm then some u.word
  else
    match u.modWord with
    | none =>
      if use.c then some u.word
      else if (use.a ++ use.b ++ use.imp ++ use.dst).all (fun r => decide (r < vregs)) &&
          (match use.sb with
           | some i => decide (i < uregs)
           | none => true) then none
      else some u.word
    | some m =>
      if !use.modOk m vregs uregs then some m
      else if (use.a ++ use.b ++ use.imp ++ use.dst).all (fun r => decide (r < vregs)) &&
          (match use.sb with
           | some i => decide (i < uregs)
           | none => true) then none
      else some u.word

/-- The checks that come before an instruction's own (R49 to R51): illegal instruction, operand empty,
waiting for the destination and the sources to be full, poisoned operand. `none`: the thread executes. An
empty source whose TE bit is 1 traps even where it is the destination as well, since TEb covers all
registers of an LA vd (DEDUCED, assumption 8). -/
def gate (s : State) (use : Use) (u : Issue) (k : Nat) (th : Thread) : Option LaneAct :=
  let lim := s.limits u.block
  match use.illegal u lim.1 lim.2 with
  | some w => some (.refuse w)
  | none =>
    let a := use.a
    let b := use.bRegs u
    let c := use.cRegs u
    let uni := (use.uniReg u).toList
    let lanes := a ++ b ++ c ++ use.imp
    let empty := fun r => !(th.reg r).full
    let uempty := fun r => !(snapSreg s k r).full
    let m := u.modOr0
    if (modTea m && a.any empty) || (modTeb m && (b.any empty || uni.any uempty)) ||
        (modTec m && c.any empty) then some (.trap 6 0)
    else if use.dst.any empty || lanes.any empty || uni.any uempty then
      some (.wait (.regs (use.dst ++ lanes) uni))
    else if lanes.any (fun r => (th.reg r).poison) || uni.any (fun r => (snapSreg s k r).poison) then
      some (.trap 7 0)
    else none

/-- The value of role b: vb, or the uniform register (R90, R120, R126). -/
def bValue (s : State) (use : Use) (u : Issue) (k : Nat) (th : Thread) : Word32 :=
  match use.uniReg u with
  | some i => (snapSreg s k i).val
  | none => (th.reg (use.b.headD 0)).val

/-- The value of role a. -/
def aValue (use : Use) (th : Thread) : Word32 := (th.reg (use.a.headD 0)).val

/-- The value of role c. -/
def cValue (u : Issue) (th : Thread) : Word32 := (th.reg (modVc u.modOr0).toNat).val

/-- A 64-bit value from a register and the next one (R159, R183). -/
def Thread.pair (th : Thread) (r : Nat) : Word64 := (th.reg (r + 1)).val ++ (th.reg r).val

/-- Writes a 64-bit value into a register and the next one. -/
def Thread.setPair (th : Thread) (r : Nat) (v : Word64) : Thread :=
  (th.setReg r (Reg.ofVal (v.extractLsb' 0 32))).setReg (r + 1) (Reg.ofVal (v.extractLsb' 32 32))

/-- The thread has issued and goes on at an address. -/
def Thread.goto (th : Thread) (pc : Word64) : Thread := { th with pc := pc, st := .ready }

/-- The values that an LR instruction computes with: role a, b, c, vd as an implicit source, and
xmod. -/
structure LaneVals where
  a : Word32
  b : Word32
  c : Word32
  d : Word32
  x : Nat
  deriving DecidableEq, Repr

/-- The operand values of a thread. -/
def laneVals (s : State) (use : Use) (u : Issue) (k : Nat) (th : Thread) : LaneVals where
  a := aValue use th
  b := bValue s use u k th
  c := cValue u th
  d := (th.reg (use.imp.headD 0)).val
  x := (modX u.modOr0).toNat

end Sys2Proof.Machine
end

