-- ==== Sys2Proof/Machine/Translate.lean ====
section
/-! DEFINITION. The two-stage translation of a tenant's global addresses (R312 to R315) and the fetch
of instruction words (R84, R85). -/

namespace Sys2Proof.Machine

/-- What an access needs (R313): bits R, W, X. -/
abbrev Perm := BitVec 3

/-- Load, engine read, LDROW data (R313). -/
def permR : Perm := 0b001
/-- Store, engine write (R313). -/
def permW : Perm := 0b010
/-- Atomic, RED, row write (R313). -/
def permRW : Perm := 0b011
/-- Fetch (R313). -/
def permX : Perm := 0b100

/-- A page found by a walk: its input base, its output base, log2 of its size, its permissions. -/
structure Page where
  base : Nat
  out  : Nat
  size : Nat
  perm : Perm
  deriving DecidableEq, Repr

/-- The outcome of one stage: a page, a fault with its cause (R307: 0 no valid entry, 1 permission,
2 bad descriptor), or a stage-2 fault of a walk read with the IPA of the table entry (R312). -/
inductive StageRes where
  | page (p : Page)
  | fault (cause : Nat)
  | walkFault (cause : Nat) (ipa : Nat)
  deriving DecidableEq, Repr

/-- First bit of the index of a level, and the number of index bits (R313). -/
def levelShift : Nat → Nat
  | 0 => 39
  | 1 => 30
  | 2 => 21
  | _ => 16

/-- Entries of a table of a level (R313). -/
def levelEntries : Nat → Nat
  | 0 => 8192
  | 1 => 512
  | 2 => 512
  | _ => 32

/-- Alignment of a table of a level (R313). -/
def tableAlign : Nat → Nat
  | 0 => 65536
  | 1 => 4096
  | 2 => 4096
  | _ => 256

/-- What a table entry says: the next table, a page, or a fault (R313). -/
inductive EntryRes where
  | table (addr : Nat)
  | leaf (addr : Nat) (perm : Perm)
  | bad (cause : Nat)
  deriving DecidableEq, Repr

/-- Reads an 8-byte table entry of a level (R313). -/
def readEntry (level : Nat) (e : Nat) : EntryRes :=
  let v := e.testBit 0
  let t := e.testBit 1
  let addr := e / 256 % 2 ^ 44 * 256
  let perm : Perm := BitVec.ofNat 3 (e / 4 % 8)
  let reserved := e / 2 ^ 52 != 0 || e / 32 % 8 != 0
  if !v then .bad 0
  else if t then
    if reserved || perm != 0 || level == 3 || addr % tableAlign (level + 1) != 0 then .bad 2
    else .table addr
  else
    if reserved || level == 0 || addr % 2 ^ levelShift level != 0 ||
        (perm.getLsbD 1 && !perm.getLsbD 0) then .bad 2
    else .leaf addr perm

/-- The index of an address at a level (R313). -/
def levelIndex (level a : Nat) : Nat := a / 2 ^ levelShift level % levelEntries level

/-- The little-endian value of `n` bytes at a PA: at home, or, in the host window and in a poisoned sector, the free
value `tag`, since the spec does not say what host memory holds (R333) or what a table entry or an instruction word
reads there (assumption 35). -/
def State.freeWord (s : State) (tag pa n : Nat) : Nat :=
  if inHostWindow pa || s.homePoisoned pa n then Config.freeAt tag pa else leNat (Memory.readBytes s.mem pa n)

/-- Walks stage 2 from a table of a level on, on fuel of the levels left: IPA to PA (R312, R313). -/
def State.walk2 (s : State) (ipa tag : Nat) : Nat → Nat → Nat → StageRes
  | 0, _, _ => .fault 2
  | fuel + 1, level, table =>
    match readEntry level (s.freeWord tag (table + 8 * levelIndex level ipa) 8 % 2 ^ 64) with
    | .bad c => .fault c
    | .table t => State.walk2 s ipa tag fuel (level + 1) t
    | .leaf out perm =>
      let size := levelShift level
      if (decide (memBase ≤ out) && decide (out + 2 ^ size ≤ memEnd)) ||
          (inHostWindow out && inHostWindow (out + 2 ^ size - 1)) then
        .page ⟨ipa / 2 ^ size * 2 ^ size, out, size, perm⟩
      else .fault 2

/-- The entries of the TLBs that a cluster's accesses see (R314): its own and its die's. -/
def State.tlbHits (s : State) (cl ten stage a : Nat) : List TlbEnt :=
  s.tlb.filter (fun e => (e.unit == cl || e.unit == 1000 + dieOf cl) && e.tenant == ten &&
    e.stage == stage && decide (e.base ≤ a) && decide (a < e.base + 2 ^ e.size))

/-- The page of a TLB entry. -/
def TlbEnt.page (e : TlbEnt) : Page := ⟨e.base, e.out, e.size, e.perm⟩

/-- What an access uses (R314): the tables as they stand, or, while an entry of a TLB differs from
them, one of the two by choice `n`. -/
def oldOrNew (hits : List TlbEnt) (fresh : StageRes) (n : Nat) : StageRes :=
  if hits.all (fun e => decide (StageRes.page e.page = fresh)) then fresh
  else
    match hits[n % (hits.length + 1)]? with
    | some e => .page e.page
    | none => fresh

/-- Stage 2 of an IPA (R312, R314). -/
def State.stage2 (s : State) (cl ten ipa n : Nat) : StageRes :=
  oldOrNew (s.tlbHits cl ten 2 ipa) (s.walk2 ipa n 4 0 (s.tenant ten).s2root) n

/-- The output address of a page for an input address. -/
def Page.apply (p : Page) (a : Nat) : Nat := p.out + a % 2 ^ p.size

/-- Walks stage 1 from a table of a level on: VA to IPA. Each table entry is read through stage 2,
which needs R and nothing else (R312). -/
def State.walk1 (s : State) (cl ten va n : Nat) : Nat → Nat → Nat → StageRes
  | 0, _, _ => .fault 2
  | fuel + 1, level, table =>
    let ipa := table + 8 * levelIndex level va
    match s.stage2 cl ten ipa n with
    | .fault c => .walkFault c ipa
    | .walkFault c i => .walkFault c i
    | .page p =>
      if !p.perm.getLsbD 0 then .walkFault 1 ipa
      else
        match readEntry level (s.freeWord n (p.apply ipa) 8 % 2 ^ 64) with
        | .bad c => .fault c
        | .table t => State.walk1 s cl ten va n fuel (level + 1) t
        | .leaf out perm =>
          let size := levelShift level
          .page ⟨va / 2 ^ size * 2 ^ size, out, size, perm⟩

/-- Stage 1 of a VA (R312, R314). -/
def State.stage1 (s : State) (cl ten va n : Nat) : StageRes :=
  oldOrNew (s.tlbHits cl ten 1 va) (s.walk1 cl ten va n 4 0 (s.tenant ten).s1root) n

/-- A translation fault: the stage, the address that the failing stage translates, the cause, and
whether a stage-1 walk read failed at stage 2 (R307, R315). -/
structure XFault where
  stage : Nat
  addr  : Nat
  cause : Nat
  walk  : Bool
  deriving DecidableEq, Repr

/-- The outcome of a translation: the PA, the two pages, or a fault. -/
inductive XRes where
  | ok (pa : Nat) (p1 p2 : Page)
  | fault (f : XFault)
  deriving DecidableEq, Repr

/-- The permission is granted. -/
def permits (have_ need : Perm) : Bool := need &&& ~~~have_ == 0

/-- Translates a VA of a tenant through both stages for an access that needs `need` (R312, R313). -/
def State.translate (s : State) (cl ten va : Nat) (need : Perm) (n : Nat) : XRes :=
  match s.stage1 cl ten va n with
  | .fault c => .fault ⟨1, va, c, false⟩
  | .walkFault c ipa => .fault ⟨2, ipa, c, true⟩
  | .page p1 =>
    if !permits p1.perm need then .fault ⟨1, va, 1, false⟩
    else
      let ipa := p1.apply va
      match s.stage2 cl ten ipa (n / 16) with
      | .fault c => .fault ⟨2, ipa, c, false⟩
      | .walkFault c i => .fault ⟨2, i, c, true⟩
      | .page p2 =>
        if !permits p2.perm need then .fault ⟨2, ipa, 1, false⟩
        else .ok (p2.apply ipa) p1 p2

/-- Keeps at most `n` entries of one TLB. -/
def capTlb (unit n : Nat) : List TlbEnt → List TlbEnt
  | [] => []
  | e :: rest =>
    if e.unit = unit then
      match n with
      | 0 => capTlb unit 0 rest
      | n + 1 => e :: capTlb unit n rest
    else e :: capTlb unit n rest

/-- Caches one page in the TLB of a cluster or die: 256 entries for a cluster, 16,384 for a die
(R314). -/
def State.cachePage (s : State) (unit cap ten stage : Nat) (p : Page) : State :=
  let e : TlbEnt := ⟨unit, ten, stage, p.base, p.size, p.out, p.perm⟩
  if e ∈ s.tlb then s else { s with tlb := capTlb unit cap (e :: s.tlb) }

/-- Caches the two pages of a translation in the cluster's and the die's TLB (R314). -/
def State.cacheXlate (s : State) (cl ten : Nat) (p1 p2 : Page) : State :=
  let d := 1000 + dieOf cl
  (((s.cachePage cl 256 ten 1 p1).cachePage cl 256 ten 2 p2).cachePage d 16384 ten 1 p1).cachePage d
    16384 ten 2 p2

/-- The VA lies in the global window: ea[63:48] is 0x0000 to 0x000F (R162). -/
def inGlobal (ea size : Nat) : Bool := decide (ea + size ≤ 2 ^ 52)

/-- The outcome of fetching one word (R84, R85, R183). -/
inductive FetchRes where
  | word (w : Word32)
  /-- access fault, or misalignment for an address that is not a multiple of 4 -/
  | trap (cause : Nat)
  | fault (f : XFault)
  deriving DecidableEq, Repr

/-- Fetches the word at a VA for a block of a cluster. Where the cluster holds a fetch copy, the word
is the copy or the word at home, by choice `seed` (R85). -/
def State.fetch (s : State) (cl ten : Nat) (va : Nat) (seed : Nat) : FetchRes :=
  if va % 4 ≠ 0 then .trap 3
  else if !inGlobal va 4 then .trap 4
  else
    match s.translate cl ten va permX (Config.free seed) with
    | .fault f => .fault f
    | .ok pa _ _ =>
      let home : Word32 := BitVec.ofNat 32 (s.freeWord (Config.free seed) pa 4)
      match (s.cluster cl).icopy.find pa with
      | none => .word home
      | some old =>
        if old = home then .word home
        else if (Config.free seed).testBit (pa / 4 % 64) then .word old else .word home

/-- A cluster's instruction fetch copies a word ahead of its use (R85, R180): INVL drops such copies. -/
def State.copyWord (s : State) (cl pa : Nat) : State :=
  s.modCluster cl (fun c =>
    { c with icopy := c.icopy.set pa (BitVec.ofNat 32 (s.freeWord s.choice pa 4)) })

/-- Records what a fetch leaves behind: the cluster's fetch copy of the word, and the TLB entries. -/
def State.noteFetch (s : State) (cl ten va seed : Nat) (w : Word32) : State :=
  match s.translate cl ten va permX (Config.free seed) with
  | .fault _ => s
  | .ok pa p1 p2 =>
    (s.modCluster cl (fun c => { c with icopy := c.icopy.set pa w })).cacheXlate cl ten p1 p2

end Sys2Proof.Machine
end

