-- ==== Sys2Proof/Machine/Ops.lean ====
section
/-! DEFINITION. The shared operations over threads, groups and memory operations: taking a trap and
returning from one (R197, R200), executing a lane unit and a uniform word over their members (R12,
R39, R102, R202), and putting a memory operation under way with what it must follow (R165, R169,
R170). -/

namespace Sys2Proof.Machine

/-! ### Traps -/

/-- HANDLER of a block; 0 for none (R115, R197). -/
def State.handlerOf (s : State) (b : Nat) : Word64 :=
  match s.blocks.find b with
  | some x => BitVec.ofNat 64 x.packet.handler
  | none => 0

/-- TCAUSE of a trap entered: H and the cause code (R197, R198). -/
def tcauseOf (cause : Nat) : Word32 := 0x8000_0000 ||| BitVec.ofNat 32 cause

/-- The record of an unhandled trap (R197, R308): kind 5, with the cause and the H bit in INFO and
what TVAL would have received in INFO2. -/
def State.trapRec (s : State) (k : Nat) (th : Thread) (cause : Nat) (tepc tval : Word64) : FaultRec :=
  { s.threadRec 5 k tepc with
    info := BitVec.ofNat 32 cause ||| (if th.inHandler then 0x8000_0000 else 0)
    info2 := tval }

/-- A trap is taken (R197): TEPC, TCAUSE with H = 1 and TVAL are written and the thread goes on at
HANDLER; while H = 1, or with no handler, the thread parks, no trap state is written, and one record
of kind 5 is posted. -/
def State.takeTrap (s : State) (k : Nat) (cause : Nat) (tepc tval : Word64) : State :=
  match s.threads.find k with
  | none => s
  | some th =>
    if th.inHandler || s.handlerOf (blockOf k) == 0 then
      ((s.bumpId.setThread k { th with st := .parked (.trap s.freshId) }).postOpen
        (s.tenantOfBlock (blockOf k)) (s.trapRec k th cause tepc tval) 0 (blockOf k)
        (.block (blockOf k)))
    else
      s.setThread k { th with
        tepc := tepc &&& ~~~3
        tcause := tcauseOf cause
        tval := tval
        pc := s.handlerOf (blockOf k)
        st := .ready }

/-- A thread after RETT (R200): PC ← TEPC, H ← 0. -/
def Thread.afterRett (th : Thread) : Thread :=
  { th with pc := th.tepc, tcause := th.tcause &&& 0x7FFF_FFFF, st := .ready }

/-- Traps every thread of a list, each for itself (R102, R202). -/
def State.trapAll (s : State) (ks : List Nat) (cause : Nat) (tepc tval : Word64) : State :=
  match ks with
  | [] => s
  | k :: rest => State.trapAll (s.takeTrap k cause tepc tval) rest cause tepc tval

/-! ### Units -/

/-- The unit that the current core cycle executes next. -/
def State.unit (s : State) : Option Issue :=
  match s.cyc with
  | some c => c.todo.head?
  | none => none

/-- Changes every thread of a list. -/
def State.modThreads (s : State) (ks : List Nat) (f : Thread → Thread) : State :=
  match ks with
  | [] => s
  | k :: rest => State.modThreads (s.modThread k f) rest f

/-- Takes the unit off the cycle's list. `ks` are the threads that issued: a unit none of whose
threads issues does not enter X1 (R39, R246); `cls` is its class. -/
def Cyc.finish (c : Cyc) (u : Issue) (ks : List Nat) (cls : Nat) : Cyc :=
  if u.port = 2 then { c with todo := c.todo.tail, uissued := c.uissued ++ ks }
  else
    { c with
      todo := c.todo.tail
      issued := c.issued ++ ks
      classes := if ks.isEmpty then c.classes else c.classes ++ [cls] }

/-- Takes the unit off the list of the cycle under way. -/
def State.finishAs (s : State) (u : Issue) (ks : List Nat) (cls : Nat) : State :=
  s.modCyc (fun c => c.finish u ks cls)

/-- The report of the hazard detector for a unit whose class was raised (R86, R352): the operand holds
the requested class and, times 4, the effective one, and the unit's address. -/
def State.clampReport (s : State) (u : Issue) (ks : List Nat) : State :=
  match ks with
  | [] => s
  | k :: _ =>
    if u.port ≠ 2 && decide (requestedClass u.word < u.cls) then
      s.hazard u.block k u.pc 2 [requestedClass u.word + 4 * u.cls, u.pc.toNat]
    else s

/-- Takes a unit that the decoder accepted off the list. -/
def State.finish (s : State) (u : Issue) (ks : List Nat) : State :=
  (s.clampReport u ks).finishAs u ks u.cls

/-- The thread issues: everything but a wait or a halt (R39, R350). -/
def LaneAct.issues : LaneAct → Bool
  | .wait _ => false
  | .halt => false
  | _ => true

/-- The decoder refuses the unit (R101). -/
def LaneAct.refused : LaneAct → Bool
  | .refuse _ => true
  | _ => false

/-- One thread's part of a lane unit takes effect. -/
def applyAct (u : Issue) (s : State) (p : Nat × LaneAct) : State :=
  match p.2 with
  | .run th => s.setThread p.1 th
  | .wait w => s.modThread p.1 (fun th => { th with st := .blocked w })
  | .trap c v => s.takeTrap p.1 c u.pc v
  | .refuse w => s.takeTrap p.1 1 u.pc (tvalWord w)
  | .park p' => s.modThread p.1 (fun th => { th with st := .parked p' })
  | .halt => s.modThread p.1 (fun th => { th with st := .parked .debug })

/-- Takes a unit off the list after its threads' parts: class C0 when the decoder refused it (R246). -/
def State.finishActs (s : State) (u : Issue) (acts : List (Nat × LaneAct)) : State :=
  let ks := (acts.filter (fun p => p.2.issues)).map (·.1)
  if acts.any (fun p => p.2.refused) then s.finishAs u ks 0 else s.finish u ks

/-- What each thread of a unit does, read from the state before any of them (R12). -/
def laneActs (s : State) (u : Issue) (f : Nat → Thread → LaneAct) : List (Nat × LaneAct) :=
  u.lanes.filterMap (fun k => (s.threads.find k).map (fun th => (k, f k th)))

/-- Executes the current unit as a lane instruction that acts on its threads alone. -/
def laneUnit (s : State) (f : Issue → Nat → Thread → LaneAct) : State :=
  match s.unit with
  | none => s
  | some u =>
    let acts := laneActs s u (f u)
    (acts.foldl (applyAct u) s).finishActs u acts

/-- A lane instruction with its common checks: what a thread that passes them does. -/
def gated (s : State) (use : Use) (act : Issue → Nat → Thread → LaneAct) : State :=
  laneUnit s (fun u k th =>
    match gate s use u k th with
    | some a => a
    | none => act u k th)

/-- An LR instruction that writes one register with a value of its operands. -/
def lrUnit (s : State) (use : Use) (vd : BitVec 7) (f : LaneVals → Word32) : State :=
  gated s use (fun u k th =>
    .run ((th.setReg vd.toNat (Reg.ofVal (f (laneVals s use u k th)))).goto u.next))

/-- A lane unit whose threads act one after another in lane-number order (R169): each one's action may
also change the rest of the state. -/
def laneSeq (s : State) (act : Issue → Nat → Thread → State → State × LaneAct) : State :=
  match s.unit with
  | none => s
  | some u =>
    let step := fun (p : State × List (Nat × LaneAct)) (k : Nat) =>
      match p.1.threads.find k with
      | none => p
      | some th =>
        let r := act u k th p.1
        (applyAct u r.1 (k, r.2), p.2 ++ [(k, r.2)])
    let r := u.lanes.foldl step (s, [])
    r.1.finishActs u r.2

/-! ### Uniform words -/

/-- What becomes of the arrival set of a uniform word. -/
inductive UniRes where
  /-- it executes; every member goes on at the address -/
  | run (s : State) (pc : Word64)
  /-- the members take BLOCKED (R46, R49) -/
  | stay (s : State) (w : Wait)
  /-- every member takes a precise trap (R202) -/
  | trap (cause : Nat) (tval : Word64)
  /-- the same, after something that has been recorded (R350) -/
  | trapIn (s : State) (cause : Nat) (tval : Word64)
  /-- the members have issued and have been dealt with: parked, deferred or killed -/
  | gone (s : State)
  /-- nothing issues: the word is picked again -/
  | hold (s : State)

/-- Why a uniform word does not execute: its members wait, or trap. -/
inductive UniStop where
  | wait (w : Wait)
  | trap (cause : Nat) (tval : Word64)
  deriving DecidableEq, Repr

/-- The checks that come before a uniform word's own effect (R29, R46, R49, R51, R88, R202): its
sources, its destinations and an encoding limit of its own. -/
def uniGate (u : Issue) (g : Group) (uregs : Nat) (srcs dsts : List Nat) (bad : Bool) :
    Option UniStop :=
  let dsts := dsts.filter (· != 0)
  if u.port ≠ 2 || bad || (srcs ++ dsts).any (fun r => decide (uregs ≤ r)) then
    some (.trap 1 (tvalWord u.word))
  else if (dsts ++ srcs).any (fun r => !(g.sreg r).full) then some (.wait (.regs [] (dsts ++ srcs)))
  else if srcs.any (fun r => (g.sreg r).poison) then some (.trap 7 0)
  else none

/-- The group of the unit's members. -/
def Issue.group (u : Issue) : Nat := groupOf (u.lanes.headD 0)

/-- The report of the hazard detector for an arrival set smaller than the group's threads that have
not exited (R45, R352). -/
def State.partialReport (s : State) (u : Issue) : State :=
  let live := s.threads.filter (fun p => groupOf p.1 == u.group && !p.2.exited)
  if u.lanes.length < live.length then s.hazard u.block (u.lanes.headD 0) u.pc 3 [u.lanes.length, u.pc.toNat] else s

/-- Takes a uniform word off the list; one that a lane port meets is refused (R93, R246). -/
def State.finishUni (s : State) (u : Issue) (ks : List Nat) : State := s.finishAs u ks 0

/-- The members of the unit take the outcome. -/
def applyUni (s : State) (u : Issue) : UniRes → State
  | .run s' pc =>
    ((s'.modThreads u.lanes (fun th => th.goto pc)).partialReport u).finishUni u u.lanes
  | .stay s' w => (s'.modThreads u.lanes (fun th => { th with st := .blocked w })).finishUni u []
  | .trap c v => (s.trapAll u.lanes c u.pc v).finishUni u u.lanes
  | .trapIn s' c v => (s'.trapAll u.lanes c u.pc v).finishUni u u.lanes
  | .gone s' => (s'.partialReport u).finishUni u u.lanes
  | .hold s' => s'.finishUni u []

/-- Executes the current unit as a uniform word, once for its arrival set (R44, R45, R202). -/
def uniUnit (s : State) (srcs dsts : List Nat) (bad : Block → Bool)
    (act : Issue → Nat → Group → UniRes) : State :=
  match s.unit with
  | none => s
  | some u =>
    match s.groups.find u.group, s.blocks.find u.block with
    | some g, some b =>
      match uniGate u g b.packet.uregs srcs dsts (bad b) with
      | some (.trap c v) => applyUni s u (.trap c v)
      | some (.wait w) => applyUni s u (.stay s w)
      | none => applyUni s u (act u u.group g)
    | _, _ => s.finishUni u []

/-- A uniform word that writes one register with a value of its group (R204, R205). -/
def uniWrite (s : State) (srcs : List Nat) (sd : BitVec 8) (f : Group → Word32) : State :=
  uniUnit s srcs [sd.toNat] (fun _ => false) (fun u gk g =>
    .run (s.setGroup gk (g.setSreg sd.toNat (Reg.ofVal (f g)))) u.next)

/-! ### Memory operations under way -/

/-- Where an operation's bytes lie: a space (0 device memory with the private slabs, 1 Larder scratch, 2 core scratch,
4 host window), a range, and whether it writes. -/
structure Touch where
  space : Nat
  lo    : Nat
  n     : Nat
  write : Bool
  deriving DecidableEq, Repr

/-- The space of a site. -/
def Site.space : Site → Nat
  | .larder => 0
  | .home => 0
  | .fabricUnit => 0
  | .larderScratch => 1
  | .coreScratch => 2
  | .hostWindow => 4

/-- The local bytes of a row instruction as a range. -/
def LocRef.touch (l : LocRef) (k : Nat) (write : Bool) : Touch :=
  ⟨if l.core then 2 else 1, l.off, 2 ^ k, write⟩

/-- The parts of an atomic's bytes: in a private slab the two words of 64 bits lie 32 bytes apart (R263). -/
def atomParts (a : Nat) (wide : Bool) : List (Nat × Nat) :=
  if !wide then [(a, 4)] else if inPool a then [(a, 4), (a + 32, 4)] else [(a, 8)]

/-- What an operation touches: bytes, and for a row instruction also its row (space 5), so that a
thread's row instructions on one row keep their order (R177). -/
def MemAct.touches : MemAct → List Touch
  | .load site a n _ _ _ => [⟨site.space, a, n, false⟩]
  | .store site a d => [⟨site.space, a, d.length, true⟩]
  | .atom site a wide _ _ _ _ =>
    (atomParts a wide).map (fun p => ⟨site.space, p.1, p.2, true⟩)
  | .hallAtom a wide _ _ _ _ _ _ => (atomParts a wide).map (fun p => ⟨0, p.1, p.2, true⟩)
  | .rowRead _ row loc => [loc.touch row.k true, ⟨5, row.pa, 1, true⟩]
  | .rowWrite _ row loc => [loc.touch row.k false, ⟨5, row.pa, 1, true⟩]
  | .rowData _ row _ => [⟨5, row.pa, 1, true⟩]
  | .hostFlush a => [⟨4, a, 1, true⟩]
  | .hostWait a => [⟨4, a, 1, true⟩]
  | .writeBack l => [⟨0, l, 128, true⟩]
  | .invalidate l => [⟨0, l, 128, true⟩]
  | _ => []

/-- Two ranges share a byte and one of them is written. -/
def Touch.clash (x y : Touch) : Bool :=
  x.space == y.space && decide (x.lo < y.lo + y.n) && decide (y.lo < x.lo + x.n) &&
  (x.write || y.write)

/-- The operation is a load, a value-returning atomic or a row load (R170). -/
def MemAct.isLoad : MemAct → Bool
  | .load .. => true
  | .atom _ _ _ _ _ _ ret => ret.isSome
  | .hallAtom _ _ _ _ _ ret _ _ => ret.isSome
  | .rowRead .. => true
  | _ => false

/-- The operation is a write to the host window (R333). -/
def MemAct.isHostWrite : MemAct → Bool
  | .store .hostWindow _ _ => true
  | .hostFlush _ => true
  | .hostWait _ => true
  | _ => false

/-- The operation is an access of the host window (R333). -/
def MemAct.isHost : MemAct → Bool
  | .load .hostWindow _ _ _ _ _ => true
  | act => act.isHostWrite

/-- The operation is an access, atomic, row instruction or cache operation of its thread (R170). -/
def MemAct.isAccess : MemAct → Bool
  | .load .. => true
  | .store .. => true
  | .atom .. => true
  | .rowRead .. => true
  | .rowWrite .. => true
  | .rowData .. => true
  | .hallAtom .. => true
  | .hostFlush _ => true
  | .hostWait _ => true
  | .writeBack _ => true
  | .invalidate _ => true
  | _ => false

/-- The operation is a fence. -/
def MemAct.isFence : MemAct → Bool
  | .fence .. => true
  | _ => false

/-- SYSTEM scope (R108). -/
def scopeSystem : Nat := 7

/-- The operation is a fence that orders host-window accesses: one at SYSTEM scope (R333). -/
def MemAct.isSystemFence : MemAct → Bool
  | .fence _ scope => decide (scopeSystem ≤ scope)
  | _ => false

/-- The two lists share a member. -/
def meets (xs ys : List Nat) : Bool := xs.any (fun x => ys.contains x)

/-- An earlier operation that a new one must follow: a fence of one of its members (R170), or, for a
member's own accesses and for those of one issue slot, one that touches the same bytes (R165, R169,
R214). A fence follows its members' accesses: all of them for rel and full, the loads for acq. Only fences at SYSTEM
scope order accesses of the host window (R333); of rel and full at that scope every write to it under way is one that the
members may have observed (R266, R268; assumption 132). -/
def mustFollow (block : Nat) (members : List Nat) (slot : Nat) (act : MemAct) (q : MemOp) : Bool :=
  let mine := meets members q.members
  match act with
  | .fence kind _ =>
    (mine && (q.act.isFence || ((if kind = 1 then q.act.isLoad else q.act.isAccess) &&
      (!q.act.isHost || act.isSystemFence)))) ||
    (kind != 1 && act.isSystemFence && q.act.isHostWrite)
  | _ =>
    (mine && (if act.isHost then q.act.isSystemFence else q.act.isFence)) ||
    ((mine || q.slot == slot) &&
      act.touches.any (fun x => q.act.touches.any (fun y =>
        x.clash y && (x.space == 0 || decide (4 ≤ x.space) || q.block == block))))

/-- The operations that a new one must follow. -/
def State.depsOf (s : State) (block : Nat) (members : List Nat) (slot : Nat) (act : MemAct) :
    List Nat :=
  (s.inflight.filter (mustFollow block members slot act)).map (·.id)

/-- Puts an operation of a block's threads under way, after what it must follow and after `extra`. -/
def State.issueOp (s : State) (block : Nat) (members : List Nat) (act : MemAct)
    (extra : List Nat) : State :=
  let core := s.coreOfThread (members.headD 0)
  let slot := 384 * (s.core core).cycle.toNat + core
  let op : MemOp :=
    { id := s.freshId, block := block, tenant := s.tenantOfBlock block
      cluster := s.clusterOfBlock block, core := core, members := members, slot := slot, act := act
      deps := s.depsOf block members slot act ++ extra, begun := false }
  { s.bumpId with inflight := s.inflight ++ [op] }

/-- An operation under way. -/
def State.opById (s : State) (id : Nat) : Option MemOp := s.inflight.find? (fun o => o.id == id)

/-- A predecessor still holds an operation back: it is under way. A posted write of the host window that its zero-length
read has not yet completed holds back only fences (R333). -/
def MemOp.awaits (o q : MemOp) : Bool :=
  match q.act with
  | .hostFlush _ => o.act.isFence
  | .hostWait _ => o.act.isFence
  | _ => true

/-- The operation's predecessors are all done. -/
def State.opReady (s : State) (o : MemOp) : Bool :=
  o.deps.all (fun d => !s.inflight.any (fun q => q.id == d && o.awaits q))

/-- What an operation does changes; it stays under way. -/
def State.turnOp (s : State) (id : Nat) (act : MemAct) : State :=
  { s with inflight := s.inflight.map (fun o => if o.id == id then { o with act := act } else o) }

/-- Takes an operation off the list. -/
def State.retireOp (s : State) (id : Nat) : State :=
  { s with inflight := s.inflight.filter (fun o => o.id != id) }

/-- A thread of the list has an access under way, but for those of the host window, which no release below SYSTEM scope
orders (R333): the release of R220 is not yet complete. -/
def State.hasAccess (s : State) (ks : List Nat) : Bool :=
  s.inflight.any (fun o => meets ks o.members && (o.act.isAccess || o.act.isFence) && !o.act.isHost)

/-- Some write to the host window is not yet complete at SYSTEM scope (R333). -/
def State.hostWrites (s : State) : Bool := s.inflight.any (fun o => o.act.isHostWrite)

/-- The effect of a fence of the threads (R170): an operation that follows their earlier accesses and
that their later ones follow. -/
def State.fenceOp (s : State) (block : Nat) (members : List Nat) (kind scope : Nat)
    (extra : List Nat) : State :=
  s.issueOp block members (.fence kind scope) extra

/-! ### Destinations of long-latency producers (R48) -/

/-- Changes `n` lane registers from `r` on. -/
def Thread.modRegs (th : Thread) (r : Nat) (f : Nat → Reg → Reg) : Nat → Thread
  | 0 => th
  | n + 1 => (Thread.modRegs th r f n).setReg (r + n) (f n ((Thread.modRegs th r f n).reg (r + n)))

/-- Changes `n` uniform registers from `r` on. -/
def Group.modSregs (g : Group) (r : Nat) (f : Nat → Reg → Reg) : Nat → Group
  | 0 => g
  | n + 1 => (Group.modSregs g r f n).setSreg (r + n) (f n ((Group.modSregs g r f n).sreg (r + n)))

/-- Changes the registers that an operation will fill. -/
def State.modDest (s : State) (d : Dest) (f : Nat → Reg → Reg) : State :=
  match d with
  | .lanes k r n => s.modThread k (fun th => th.modRegs r f n)
  | .unis g r n => s.modGroup g (fun x => x.modSregs r f n)

/-- Sets the destination empty at issue (R48). -/
def State.emptyDest (s : State) (d : Dest) : State := s.modDest d (fun _ r => r.emptied)

/-- Writes the destination at completion: full, with poison when the data was poisoned (R48, R164). -/
def State.fillDest (s : State) (d : Dest) (poisoned : Bool) (words : List Word32) : State :=
  s.modDest d (fun i _ => ⟨words.getD i 0, true, poisoned⟩)

/-- The 32-bit words of little-endian bytes. -/
def wordsOf : List Byte → List Word32
  | a :: b :: c :: d :: rest => (d ++ c ++ b ++ a) :: wordsOf rest
  | _ => []

end Sys2Proof.Machine
end

