-- ==== Sys2Proof/Machine/Barriers.lean ====
section
/-! DEFINITION. Barrier objects and BARG: arrivals, waits, exits, completion and timers, for blocks on
one core, for spanning blocks and for the launch barrier (R187 to R194, R310, R342, R343). -/

namespace Sys2Proof.Machine

/-- The codes of the scopes that the model names (R108): GROUP, BLOCK, CLUSTER, DEVICE. -/
def scopeGroup : Nat := 1
/-- Scope BLOCK (R108). -/
def scopeBlock : Nat := 2
/-- Scope CLUSTER (R108). -/
def scopeCluster : Nat := 3
/-- Scope DEVICE (R108). -/
def scopeDevice : Nat := 4

/-! ### Finding an object -/

/-- Index `i` of a block names the launch barrier (R342). -/
def State.isLaunchBar (s : State) (b i : Nat) : Bool :=
  match s.blocks.find b with
  | some x => x.launchBarIdx i
  | none => false

/-- The object is held outside the block's core: in the cluster unit for a spanning block (R192), in the
Hall for the launch barrier (R342). -/
def State.barRemote (s : State) (b i : Nat) : Bool :=
  match s.blocks.find b with
  | some x => x.core.isNone || x.launchBarIdx i
  | none => false

/-- A barrier object of a block (R187). -/
def State.barObj (s : State) (b i : Nat) : Option BarObj :=
  match s.blocks.find b with
  | some x => x.objs.find i
  | none => none

/-- The completion-table index of a block's launch. -/
def State.launchOf (s : State) (b : Nat) : Nat :=
  match s.blocks.find b with
  | some x => x.launch
  | none => 0

/-- The launch barrier of a launch (R342). -/
def State.launchBar (s : State) (l : Nat) : Option LaunchBar :=
  match s.entry l with
  | some e => e.barrier
  | none => none

/-- The block holds an object of the index (R182). -/
def State.barHeld (s : State) (b i : Nat) : Bool :=
  if s.isLaunchBar b i then (s.launchBar (s.launchOf b)).isSome else (s.barObj b i).isSome

/-- PHASE of the object that an index of a block names. -/
def State.barPhase (s : State) (b i : Nat) : Bool :=
  if s.isLaunchBar b i then
    match s.launchBar (s.launchOf b) with
    | some x => x.phase
    | none => false
  else
    match s.barObj b i with
    | some x => x.phase
    | none => false

/-- Changes an object, if it is there. -/
def State.modBar (s : State) (b i : Nat) (f : BarObj → BarObj) : State :=
  s.modBlock b (fun x =>
    match x.objs.find i with
    | some o => { x with objs := x.objs.set i (f o) }
    | none => x)

/-- Changes the launch barrier of a launch, if there is one. -/
def State.modLaunchBar (s : State) (l : Nat) (f : LaunchBar → LaunchBar) : State :=
  s.modEntry l (fun e => { e with barrier := e.barrier.map f })

/-- The block's threads that are not EXITED. -/
def State.liveThreads (s : State) (b : Nat) : Nat :=
  (s.threads.filter (fun p => blockOf p.1 == b && !p.2.exited)).length

/-- A barrier object at creation (R187). -/
def State.newBar (s : State) (b : Nat) : BarObj := ⟨false, s.liveThreads b, 0, false, none, [], []⟩

/-- Arrivals counted at most in a block's object (R188) and in a launch barrier (R342). -/
def barMax : Nat := 16384
/-- Arrivals counted at most in a launch barrier (R342). -/
def launchBarMax : Nat := 2 ^ 48 - 1

/-! ### Waits and releases -/

/-- The thread waits, at its object, for a completion of the index in a phase (R189). -/
def Thread.waitsBar (th : Thread) (i : Nat) (phase : Bool) : Bool :=
  match th.st with
  | .blocked (.barrier j p true _ _) => j == i && p == phase
  | _ => false

/-- A thread goes on from a barrier (R189): READY at its next unit, its token emptied, whichever index it names
(assumption 138). -/
def Thread.passBar (th : Thread) : Thread :=
  match th.st with
  | .blocked (.barrier _ _ _ next _) => { th with pc := next, st := .ready, token := none, tokenOp := 0 }
  | _ => th

/-- Releases threads from a barrier: each then has the effect of FENCE.acq at BLOCK scope, which comes
after the fences of the arrivals (R191). -/
def State.passThreads (s : State) (ks rel : List Nat) : State :=
  ks.foldl (fun s k =>
    ((s.modThread k Thread.passBar).fenceOp (blockOf k) [k] 1 scopeBlock rel).stepHalt k) s

/-- A release of a thread is on its way (R192). -/
def State.releaseSent (s : State) (k i : Nat) : Bool :=
  s.inflight.any (fun o => o.members.contains k &&
    match o.act with
    | .release j => j == i
    | _ => false)

/-- The block's threads that wait on an index in a phase, but for those whose release is on its way (R192). -/
def State.barWaiters (s : State) (b i : Nat) (phase : Bool) : List Nat :=
  (s.threads.filter (fun p => blockOf p.1 == b && p.2.waitsBar i phase && !s.releaseSent p.1 i)).map (·.1)

/-- The launch's threads that wait on its barrier in a phase, but for those whose release is on its way (R343). -/
def State.launchWaiters (s : State) (l : Nat) (phase : Bool) : List Nat :=
  (s.threads.filter (fun p => s.launchOf (blockOf p.1) == l && s.isLaunchBar (blockOf p.1) 2047 &&
    p.2.waitsBar 2047 phase && !s.releaseSent p.1 2047)).map (·.1)

/-- The block of the first thread that waits at a launch's barrier: a record about the barrier names it (R310, R354;
assumption 40). -/
def State.launchHead (s : State) (l : Nat) : Option Nat :=
  match s.launchBar l with
  | some x => (s.launchWaiters l x.phase).head?.map blockOf
  | none => none

/-- Sends a release to the cores of some threads, one message for each core (R192). -/
def State.sendRelease (s : State) (i : Nat) (ks : List Nat) : State :=
  let cores := (ks.map s.coreOfThread).eraseDups
  cores.foldl (fun s' c =>
    let mine := ks.filter (fun k => s.coreOfThread k == c)
    s'.issueOp (blockOf (mine.headD 0)) mine (.release i) []) s

/-- The identifiers of operations that are still under way. -/
def State.pendingIds (s : State) (ids : List Nat) : List Nat :=
  ids.filter (fun i => s.inflight.any (fun o => o.id == i))

/-- The end of a cycle of the place that holds an object (R190): when A ≥ E the phase completes, and
the waiting threads are released: at once, or, where `far` says so, by messages to their cores. -/
def State.completeBar (s : State) (b i : Nat) (far : Bool) : State :=
  match s.barObj b i with
  | none => s
  | some o =>
    if o.e ≤ o.a then
      let rel := s.pendingIds (o.rel ++ o.arr)
      let ks := s.barWaiters b i o.phase
      let s1 := s.modBar b i (fun o =>
        { o with phase := !o.phase, a := 0, timer := none, arr := [], rel := rel })
      if far then
        (if ks.isEmpty then s1 else s1.sendRelease i ks)
      else s1.passThreads ks rel
    else s

/-- The end of a cycle of the place that holds an object: the cluster unit's releases travel (R190, R192). -/
def State.settleBar (s : State) (b i : Nat) : State := s.completeBar b i (s.barRemote b i)

/-- Every object of a block at the end of a cycle of its holder. -/
def State.settleBars (s : State) (b : Nat) : State :=
  match s.blocks.find b with
  | none => s
  | some x => x.objs.foldl (fun s p => s.settleBar b p.1) s

/-- The clusters in the order S, S + 1, …, modulo 96 (R343). -/
def clusterOrder (start : Nat) : List Nat := (natRange 0 96).map (fun i => (start + i) % 96)

/-- The Hall takes up a completion of a launch barrier (R343): START moves on by 7, and the clusters
that hold waiters stand in the order of S; the first interval begins in the next Hall cycle, after the last interval of
the release before it. -/
def State.takeCompletion (s : State) (l : Nat) (phase : Bool) : State :=
  let start := s.sec.slew
  let holders := (s.launchWaiters l phase).map (fun k => s.clusterOfBlock (blockOf k))
  let order := (clusterOrder start).filter (fun c => holders.contains c)
  let first := Nat.max (s.tree.cycle + 1) s.tree.sendFree
  (s.modSec (fun x => { x with slew := (start + 7) % 96 })).modLaunchBar l (fun x =>
    { x with sending := order, sendPhase := phase, next := first })

/-- A release is on its way to its clusters (R343). -/
def State.releasing (s : State) : Bool :=
  s.tree.entries.any (fun p =>
    match p.2.barrier with
    | some x => !x.sending.isEmpty
    | none => false)

/-- The completions that wait are taken up in their order, while no release is on its way (R343). -/
def State.takeCompletions (s : State) : State :=
  s.tree.completions.foldl (fun s c =>
    if s.releasing then s
    else (s.modTree (fun t => { t with completions := t.completions.drop 1 })).takeCompletion c.1 c.2) s

/-- The end of a Hall cycle for a launch barrier (R190, R342, R343). -/
def State.settleLaunch (s : State) (l : Nat) : State :=
  match s.launchBar l with
  | none => s
  | some x =>
    if x.e ≤ x.a && !x.spent then
      ((s.modLaunchBar l (fun x =>
        { x with
          phase := !x.phase
          a := 0
          timer := none
          spent := x.e == 0 })).modTree (fun t =>
        { t with completions := t.completions ++ [(l, x.phase)] })).takeCompletions
    else s.takeCompletions

/-- The first 8 clusters of a release are sent, and the next interval begins 64 ns later (R343). -/
def State.sendInterval (s : State) (l : Nat) : State :=
  match s.launchBar l with
  | none => s
  | some x =>
    if x.sending.isEmpty || decide (s.tree.cycle < x.next) then s
    else
      let now := x.sending.take 8
      let ks := (s.launchWaiters l x.sendPhase).filter (fun k =>
        now.contains (s.clusterOfBlock (blockOf k)))
      ((s.modLaunchBar l (fun x => { x with sending := x.sending.drop 8, next := x.next + 64 })).modTree (fun t =>
        { t with sendFree := x.next + 64 })).sendRelease 2047 ks

/-! ### Arrivals and waits -/

/-- An arrival is counted in its object (R188); `fence` is the fence that precedes it (R191). -/
def State.countArrival (s : State) (b i n : Nat) (fence : List Nat) : State :=
  if s.isLaunchBar b i then
    s.modLaunchBar (s.launchOf b) (fun x => { x with a := Nat.min launchBarMax (x.a + n) })
  else s.modBar b i (fun o => { o with a := Nat.min barMax (o.a + n), arr := o.arr ++ fence })

/-- The phase that a wait of a thread waits for (R189): its token's, or PHASE as it stood at issue. -/
def Thread.waitPhase (th : Thread) (i : Nat) (phase : Bool) : Bool :=
  match th.token with
  | some (j, p) => if j = i then p else phase
  | none => phase

/-- PHASE as it stood at the issue of a wait that is on its way (R189). -/
def Thread.issuePhase (th : Thread) : Bool :=
  match th.st with
  | .blocked (.barrier _ p _ _ _) => p
  | _ => false

/-- A wait begins at an object: its timer runs (R310). -/
def State.startTimer (s : State) (b i : Nat) : State :=
  if s.isLaunchBar b i then
    s.modLaunchBar (s.launchOf b) (fun x => { x with timer := some (x.timer.getD 0) })
  else s.modBar b i (fun o => { o with timer := some (o.timer.getD 0) })

/-- The pending messages of a thread to barrier holders, whose order a later one keeps. -/
def State.barMsgs (s : State) (k : Nat) : List Nat :=
  (s.inflight.filter (fun o => o.members.contains k &&
    match o.act with
    | .arrival .. => true
    | _ => false)).map (·.id)

/-- A barrier instruction of one thread (R188, R189): an arrival of `n` if there is one, whether it sets
the token, and whether the thread then waits. -/
def State.barAct (s : State) (u : Issue) (k : Nat) (th : Thread) (i : Nat) (arrive : Option Nat)
    (token wait : Bool) : State × LaneAct :=
  let b := blockOf k
  let fid := s.freshId
  let s1 := match arrive with
    | some _ => s.fenceOp b [k] 2 scopeBlock []
    | none => s
  let fence := match arrive with
    | some _ => [fid]
    | none => []
  if s.barRemote b i then
    let s2 := s1.issueOp b [k] (.arrival i (arrive.getD 0) token wait) (fence ++ s1.barMsgs k)
    let th1 := if token then { th with token := none, tokenOp := s1.freshId } else th
    if wait then
      (s2, .run { th1 with st := .blocked (.barrier i (s.barPhase b i) false u.next u.word) })
    else (s2, .run (th1.goto u.next))
  else
    let s2 := match arrive with
      | some n => s1.countArrival b i n fence
      | none => s1
    let th1 := if token then { th with token := some (i, s.barPhase b i), tokenOp := 0 } else th
    if wait then
      let ph := th1.waitPhase i (s.barPhase b i)
      if s.barPhase b i = ph then
        (s2.startTimer b i, .run { th1 with st := .blocked (.barrier i ph true u.next u.word) })
      else
        let rel := match s2.barObj b i with
          | some o => s2.pendingIds o.rel
          | none => []
        (s2.fenceOp b [k] 1 scopeBlock rel, .run ({ th1 with token := none, tokenOp := 0 }.goto u.next))
    else (s2, .run (th1.goto u.next))

/-- A waiter on an object that has been freed traps (R193, R216): illegal instruction, with its
barrier unit's address and word. -/
def State.trapWaiter (s : State) (k : Nat) : State :=
  match s.threads.find k with
  | some th =>
    match th.st with
    | .blocked (.barrier _ _ _ _ w) => s.takeTrap k 1 th.pc (tvalWord w)
    | _ => s
  | none => s

/-- Exits on their way to the cluster unit no longer concern an object that does not count their threads: one that is
new or gone, or whose E has been set from the live threads (R193, R215, R216). -/
def State.forgetLeaves (s : State) (b i : Nat) : State :=
  { s with inflight := s.inflight.map (fun o =>
      match o.act with
      | .leave false objs =>
        if o.block = b then { o with act := .leave false (objs.filter (· != i)) } else o
      | _ => o) }

/-- An object is removed (R216): its waiters trap and the tokens that name it are emptied. -/
def State.freeBar (s : State) (b i : Nat) : State :=
  let ks := (s.threads.filter (fun p => blockOf p.1 == b && !s.releaseSent p.1 i &&
    (match p.2.st with
     | .blocked (.barrier j _ true _ _) => j == i
     | _ => false))).map (·.1)
  let s1 := (s.forgetLeaves b i).modBlock b (fun x => { x with objs := x.objs.erase i })
  let s2 := s1.modThreads (s.blockThreads b) (fun th =>
    match th.token with
    | some (j, _) => if j = i then { th with token := none } else th
    | none => th)
  ks.foldl State.trapWaiter s2

/-- The block is saved: what its threads had sent to its own objects acts on the parked ones (R320). -/
def State.isSaved (s : State) (b : Nat) : Bool :=
  match s.blocks.find b with
  | some x => x.st == .saved
  | none => false

/-- An arrival, with its wait, reaches the holder of a remote object (R192): it sets the token if no later arrival or
wait of the thread has done so (R188). `id` names the message. -/
def State.receiveArrival (s : State) (id k i n : Nat) (token wait : Bool) : State :=
  let b := blockOf k
  if !s.barHeld b i then (if wait then s.trapWaiter k else s)
  else
    let s1 := s.countArrival b i n []
    let s2 := if token then
        s1.modThread k (fun th =>
          if th.exited || th.tokenOp != id then th else { th with token := some (i, s.barPhase b i), tokenOp := 0 })
      else s1
    match wait, s2.threads.find k with
    | true, some th =>
      let ph := th.waitPhase i th.issuePhase
      let s3 := s2.modThread k (fun th =>
        match th.st with
        | .blocked (.barrier j _ _ next w) => { th with st := .blocked (.barrier j ph true next w) }
        | _ => th)
      if s2.barPhase b i = ph then s3.startTimer b i
      else if s.isSaved b then s3.passThreads [k] [] else s3.sendRelease i [k]
    | _, _ => s2

/-! ### Exits -/

/-- E of the ALL-mode objects of a block that count a thread falls by its exit (R193). -/
def State.reduceBars (s : State) (b : Nat) (counts : Nat → Bool) : State :=
  s.modBlock b (fun x => { x with objs := x.objs.mapVals (fun i o =>
    if o.count || !counts i then o else { o with e := o.e - 1 }) })

/-- E of a launch barrier falls by some exits (R342). -/
def State.reduceLaunch (s : State) (l n : Nat) : State :=
  s.modLaunchBar l (fun x => { x with e := x.e - n })

/-- The barriers learn of one thread's exit (R193): at once in a core, by a message elsewhere. -/
def State.exitBars (s : State) (k : Nat) : State :=
  let b := blockOf k
  match s.blocks.find b with
  | none => s
  | some x =>
    let s1 := if x.core.isSome then s.reduceBars b (fun _ => true)
      else s.issueOp b [k] (.leave false (x.objs.map (·.1))) []
    if x.packet.cooperative then s1.issueOp b [k] (.leave true []) [] else s1

/-! ### Timers -/

/-- The tenant's BARTMO; 0 disables (R306, R310). -/
def State.barTmo (s : State) (b : Nat) : Nat := (s.tenant (s.tenantOfBlock b)).bartmo.toNat

/-- A barrier timer that has reached BARTMO writes a record of kind 6 and starts again (R310, R354). -/
def State.barTimeout (s : State) (b i : Nat) : State :=
  match s.barObj b i with
  | none => s
  | some o =>
    match o.timer with
    | none => s
    | some n =>
      if s.barTmo b = 0 ∨ n < s.barTmo b then s
      else
        let r := { s.blockRec 6 b with
          info := BitVec.ofNat 32 i
          info2 := if o.phase then 1 else 0 }
        (s.modBar b i (fun o => { o with timer := some 0 })).postOpen (s.tenantOfBlock b) r 0 b (.block b)

/-- The launch barrier's timer (R310, R342), reported for a block that holds a waiter. -/
def State.launchTimeout (s : State) (b : Nat) : State :=
  match s.launchBar (s.launchOf b) with
  | none => s
  | some x =>
    match x.timer with
    | none => s
    | some n =>
      if s.barTmo b = 0 ∨ n < s.barTmo b then s
      else
        let r := { s.blockRec 6 b with info := 2047, info2 := if x.phase then 1 else 0 }
        (s.modLaunchBar (s.launchOf b) (fun x => { x with timer := some 0 })).postOpen
          (s.tenantOfBlock b) r 0 b (.block b)

/-- The timers of those of a block's objects that a test names run for one cycle of their holder (R310). -/
def State.tickBarsOf (s : State) (b : Nat) (ok : Nat → Bool) : State :=
  let s1 := s.modBlock b (fun x => { x with objs := x.objs.mapVals (fun i o =>
    if ok i then { o with timer := o.timer.map (· + 1) } else o) })
  match s1.blocks.find b with
  | none => s1
  | some x => x.objs.foldl (fun s p => if ok p.1 then s.barTimeout b p.1 else s) s1

/-- The timers of a block's objects run for one cycle of their holder (R310). -/
def State.tickBars (s : State) (b : Nat) : State := s.tickBarsOf b (fun _ => true)

/-- The timers of a saved block's objects in the parked table of a cluster unit run for one cycle of that unit (R310,
R320); those in the save pool stand in no unit (assumption 134). -/
def State.tickParked (s : State) (b : Nat) : State :=
  match s.blocks.find b with
  | some x => s.tickBarsOf b x.parkedTab.contains
  | none => s

/-! ### BARG -/

/-- The thread waits at a BARG (R194). -/
def Thread.atBarg (th : Thread) : Bool :=
  match th.st with
  | .blocked (.barg _) => true
  | _ => false

/-- A thread leaves its BARG (R194). -/
def Thread.passBarg (th : Thread) : Thread :=
  match th.st with
  | .blocked (.barg next) => { th with pc := next, st := .ready }
  | _ => th

/-- The end of a core cycle for the BARG of a group (R194): when every thread that is not EXITED waits
at a BARG, all go on, each from its own unit, with the effect of FENCE.acq at GROUP scope. -/
def State.settleBarg (s : State) (g : Nat) : State :=
  let live := s.threads.filter (fun p => groupOf p.1 == g && !p.2.exited)
  if live.isEmpty || live.any (fun p => !p.2.atBarg) then s
  else
    let ks := live.map (·.1)
    let pcs := (live.map (fun p => p.2.pc)).eraseDups
    let first := ks.headD 0
    let s1 := if pcs.length ≤ 1 then s
      else s.hazard (blockOf first) first (pcs.headD 0) 4 (pcs.map (·.toNat))
    let rel := (s1.inflight.filter (fun o => o.act.isFence && meets ks o.members)).map (·.id)
    let s2 := ks.foldl (fun s k =>
      ((s.modThread k Thread.passBarg).fenceOp (blockOf k) [k] 1 scopeGroup rel).stepHalt k) s1
    s2.modGroup g (fun x => { x with bargTmr := none })

/-- A BARG timer that has reached BARTMO writes a record of kind 6 (R310, R354). -/
def State.bargTimeoutOf (s : State) (g : Nat) : State :=
  match s.groups.find g with
  | none => s
  | some x =>
    match x.bargTmr with
    | none => s
    | some (n, pc) =>
      let b := blockOfGroup g
      if s.barTmo b = 0 ∨ n < s.barTmo b then s
      else
        let r := { s.groupRec 6 g pc with info := 0xFFFF_FFFF }
        (s.modGroup g (fun x => { x with bargTmr := some (0, pc) })).postOpen (s.tenantOfBlock b) r 0 b
          (.block b)

/-- The BARG timer of a group runs for one cycle of its core, from the first waiting thread on
(R310). -/
def State.tickBarg (s : State) (g : Nat) : State :=
  let first := (s.threads.find? (fun p => groupOf p.1 == g && p.2.atBarg)).map (fun p => p.2.pc)
  (s.modGroup g (fun x => { x with bargTmr := first.map (fun pc =>
    match x.bargTmr with
    | some (n, pc0) => (n + 1, pc0)
    | none => (1, pc)) })).bargTimeoutOf g

end Sys2Proof.Machine
end

