-- ==== Sys2Proof/Machine/Pick.lean ====
section
/-! DEFINITION. The pickers of a core (R40 to R46, R54, R56, R252 to R254): which gang and which
uniform instruction a core cycle executes, and the start of that cycle. -/

namespace Sys2Proof.Machine

/-! ### Orders -/

/-- Inserts into a list before the first element that it precedes. -/
def insertBy {α : Type} (before : α → α → Bool) (x : α) : List α → List α
  | [] => [x]
  | y :: rest => if before x y then x :: y :: rest else y :: insertBy before x rest

/-- Sorts a list; elements that do not precede each other keep their order. -/
def sortBy {α : Type} (before : α → α → Bool) : List α → List α
  | [] => []
  | x :: rest => insertBy before x (sortBy before rest)

/-- The least element of a list in an order, the first of several. -/
def leastBy {α : Type} (before : α → α → Bool) : List α → Option α
  | [] => none
  | x :: rest =>
    match leastBy before rest with
    | none => some x
    | some y => if before y x then some y else some x

/-! ### What the pickers see -/

/-- The lane registers that a lane instruction reads, and the uniform register i as 256 + i; `m` is its MOD word (R89,
R90, R118 to R201, R254). -/
def laneReads (i : Instr) (m : Option Word32) : List Nat :=
  let mw := m.getD 0
  let roleB := fun (vb : BitVec 7) => if modUs mw then 256 + (modSidx mw).toNat else vb.toNat
  let pair := fun (v : BitVec 7) => [v.toNat, v.toNat + 1]
  match i with
  | .add _ _ a b | .sub _ _ a b | .min _ _ a b | .max _ _ a b | .minu _ _ a b | .maxu _ _ a b
  | .absd _ _ a b | .addsat _ _ a b | .and _ _ a b | .or _ _ a b | .xor _ _ a b | .andn _ _ a b
  | .shl _ _ a b | .shr _ _ a b | .sar _ _ a b | .ror _ _ a b | .mul _ _ a b | .mulhi _ _ a b
  | .mulhiu _ _ a b | .div _ _ a b | .divu _ _ a b | .rem _ _ a b | .remu _ _ a b | .seq _ _ a b
  | .sne _ _ a b | .slt _ _ a b | .sltu _ _ a b | .bfx _ _ a b | .bfxu _ _ a b | .xlnIdx _ _ a b
  | .xlnXor _ _ a b | .xlnUp _ _ a b | .xlnDn _ _ a b | .fadd _ _ a b | .fsub _ _ a b | .fmul _ _ a b
  | .fmin _ _ a b | .fmax _ _ a b | .fseq _ _ a b | .fslt _ _ a b | .fsle _ _ a b | .fsun _ _ a b
  | .hadd2 _ _ a b | .hmul2 _ _ a b | .hmax2 _ _ a b | .fdiv _ _ a b | .fscl _ _ a b | .cvtBf16F32 _ _ a b
  | .trnDg _ _ a b => [a.toNat, roleB b]
  | .bfi _ d a b | .scacc _ d a b | .qnt8 _ d a b | .qnte4 _ d a b | .dp4 _ d a b | .dp4u _ d a b
  | .dp2h _ d a b | .trnQ _ d a b =>
    [a.toNat, roleB b, d.toNat]
  | .mad _ _ a b | .sel _ _ a b | .prmb _ _ a b | .ffma _ _ a b | .hfma2 _ _ a b => [a.toNat, roleB b, (modVc mw).toNat]
  | .scacc2 _ d a b => [a.toNat, roleB b, (modVc mw).toNat, d.toNat]
  | .clz _ _ a | .popc _ _ a | .brev _ _ a | .voteAny _ _ a | .voteAll _ _ a | .voteBal _ _ a
  | .xred _ _ a | .frcp _ _ a | .frsq _ _ a | .fex2 _ _ a | .flg2 _ _ a | .fsqrt _ _ a
  | .ffrc _ _ a | .cvtF32S32 _ _ a | .cvtS32F32 _ _ a | .cvtF32Bf16 _ _ a | .cvtF32E4m3 _ _ a | .cvtF32E5m2 _ _ a
  | .trnPk _ _ a | .trnUp _ _ a | .trnChk4 _ _ a | .trnZ4 _ _ a => [a.toNat]
  | .cvtE4m3F32 _ d a | .cvtE5m2F32 _ d a => [a.toNat, d.toNat]
  | .addi _ _ a _ | .shli _ _ a _ | .shri _ _ a _ | .sari _ _ a _ | .rori _ _ a _ => [a.toNat]
  | .movs _ _ b => [256 + b.toNat]
  | .hput _ v _ => [v.toNat]
  | .ldU8 _ _ a _ _ _ | .ldS8 _ _ a _ _ _ | .ldU16 _ _ a _ _ _ | .ldS16 _ _ a _ _ _ | .ldB32 _ _ a _ _ _ | .ldB64 _ _ a _ _ _
  | .ldB128 _ _ a _ _ _ => pair a
  | .stB8 _ v a _ _ _ | .stB16 _ v a _ _ _ | .stB32 _ v a _ _ _ => v.toNat :: pair a
  | .stB64 _ v a _ _ _ => natRange v.toNat 2 ++ pair a
  | .stB128 _ v a _ _ _ => natRange v.toNat 4 ++ pair a
  | .atom32 _ d a op _ _ | .red _ d a op _ _ => natRange d.toNat (if op = 9 then 2 else 1) ++ pair a
  | .atom64 _ d a op _ _ => natRange d.toNat (if op = 9 then 4 else 2) ++ pair a
  | .ldrowNear _ a b | .ldrowHome _ a b | .strow _ a b | .raddBf16 _ a b | .raddF32 _ a b | .rmaxBf16 _ a b =>
    pair a ++ pair b
  | .prf _ a | .wbl _ a | .invl _ a | .jmpr _ a | .ret _ a => pair a
  | .callr _ _ a => pair a
  | .brEqz _ a _ | .brNez _ a _ | .brLtz _ a _ | .brGez _ a _ | .brGtz _ a _ | .brLez _ a _ => [a.toNat]
  | .barArvc _ a _ => [a.toNat]
  | .wrts _ v x => if x = 0 ∨ x = 2 then pair v else [v.toNat]
  | _ => []

/-- The next unit of a thread: whether it is a uniform word, the uniform registers it reads, the registers that a lane
unit gathers, its class and its number of words. A unit that cannot be fetched or decoded takes the side of its first word, or
the lane side, and class C0 (R93, R246; assumption 30). -/
structure Peek where
  uniform : Bool
  srcs    : List Nat
  reads   : List Nat
  cls     : Nat
  words   : Nat
  deriving DecidableEq, Repr

/-- The rest of a unit after a prefix word; `m` is its MOD word, if it has one. -/
def State.peekRest (s : State) (cl ten pc seed : Nat) (m : Option Word32) : Nat → Peek
  | 0 => ⟨false, [], [], 0, 1⟩
  | fuel + 1 =>
    match s.fetch cl ten pc seed with
    | .word w =>
      match decodeWord w with
      | some (.limm _) =>
        let p := State.peekRest s cl ten (pc + 4) seed m fuel
        { p with words := p.words + 1 }
      | some i => ⟨false, [], laneReads i m, if w.getLsbD 31 then 0 else effClass i w, 1⟩
      | none => ⟨false, [], [], 0, 1⟩
    | _ => ⟨false, [], [], 0, 1⟩

/-- The unit at a PC (R40, R84, R251). -/
def State.peek (s : State) (cl ten pc seed : Nat) : Peek :=
  match s.fetch cl ten pc seed with
  | .word w =>
    match decodeWord w with
    | some (.mod _ _ _ _ _ _ _) =>
      let p := s.peekRest cl ten (pc + 4) seed (some w) 2
      { p with words := p.words + 1 }
    | some (.limm _) =>
      let p := s.peekRest cl ten (pc + 4) seed none 1
      { p with words := p.words + 1 }
    | some i => ⟨w.getLsbD 31, if w.getLsbD 31 then uniSources i else [], if w.getLsbD 31 then [] else laneReads i none,
        effClass i w, 1⟩
    | none => ⟨w.getLsbD 31, [], [], 0, 1⟩
  | _ => ⟨false, [], [], 0, 1⟩

/-- A thread as the pickers see it. -/
structure Cand where
  key      : Nat
  block    : Nat
  prio     : Nat
  age      : Nat
  pc       : Word64
  peek     : Peek
  /-- every uniform source is full (R44, R46) -/
  full     : Bool
  wait     : Nat
  deferred : Bool
  deriving DecidableEq, Repr

/-- The thread is DEFERRED (R56). -/
def Thread.deferred (th : Thread) : Bool :=
  match th.st with
  | .deferred _ => true
  | _ => false

/-- The thread stands BLOCKED, PARKED or DEFERRED. -/
def Thread.stopped (th : Thread) : Bool :=
  match th.st with
  | .blocked _ => true
  | .parked _ => true
  | .deferred _ => true
  | _ => false

/-- A thread as a candidate, if it is READY, UNSTARTED or DEFERRED in a block that runs on the core
(R38, R41, R318). -/
def State.cand (s : State) (c seed : Nat) (k : Nat) (th : Thread) : Option Cand :=
  match s.groups.find (groupOf k), s.blocks.find (blockOf k) with
  | some g, some b =>
    if g.core == c && b.runs && (th.pickable || th.deferred) then
      let p := s.peek b.cluster b.tenant th.pc.toNat seed
      some ⟨k, blockOf k, b.prio, b.age, th.pc, p, p.srcs.all (fun r => (g.sreg r).full), th.wait,
        th.deferred⟩
    else none
  | _, _ => none

/-- The candidates of a core. -/
def State.cands (s : State) (c seed : Nat) : List Cand :=
  s.threads.filterMap (fun p => s.cand c seed p.1 p.2)

/-- Longest wait first, then lower group index, then lower lane index (R42, R43). -/
def Cand.longer (x y : Cand) : Bool :=
  decide (y.wait < x.wait) || (x.wait == y.wait && decide (x.key < y.key))

/-- Block priority, then block age with the older first (R37, R41, R44). -/
def Cand.blockFirst (x y : Cand) : Bool :=
  decide (x.prio < y.prio) || (x.prio == y.prio && decide (x.age < y.age))

/-- The lowest PC of a list of candidates that satisfies a test. -/
def lowestPc (cs : List Cand) (ok : Word64 → Bool) : Option Word64 :=
  leastBy (fun (x y : Word64) => x.ult y) ((cs.map (·.pc)).filter ok)

/-! ### The lane picker -/

/-- The class policy of one cycle (R252): K and the run count after steps 1 to 3. -/
def Core.policy (x : Core) (classes : List Nat) : Core :=
  if !x.mode || classes.isEmpty then x
  else
    let top := classes.foldl Nat.max 0
    let least := classes.foldl Nat.min 3
    let x := if x.runLen ≤ x.run then { x with k := top, run := 0 } else x
    if x.k < least then { x with k := least, run := 0 } else x

/-- The class is not excluded (R252, step 4). -/
def Core.admits (x : Core) (cls : Nat) : Bool := !x.mode || decide (cls ≤ x.k)

/-- A gang: its block, P1, port B's PC, the threads of each port with their lane numbers, whether the
slot is an override slot, and the threads that were eligible. -/
structure Gang where
  block    : Nat
  pc1      : Word64
  pc2      : Option Word64
  laneA    : List Nat
  laneB    : List Nat
  override : Bool
  eligible : List Nat
  deriving DecidableEq, Repr

/-- Places one more thread: in its own lane position, in the lowest free slot (R43). Places are lane
numbers 8 × slot + position. -/
def placeOne (taken : List (Nat × Nat)) (k : Nat) : List (Nat × Nat) :=
  let n := (taken.filter (fun p => p.1 % 8 == laneOf k)).length
  if n < 4 then taken ++ [(8 * n + laneOf k, k)] else taken

/-- The threads of a port in lane-number order (R169). -/
def inLaneOrder (ps : List (Nat × Nat)) : List Nat :=
  (sortBy (fun (x y : Nat × Nat) => decide (x.1 ≤ y.1)) ps).map (·.2)

/-- Fills a gang (R43): the first thread, then port A's, then port B's, each in the order of waits. -/
def fillGang (block : Nat) (pc1 : Word64) (pc2 : Option Word64) (first : Option Cand)
    (as bs : List Cand) (override : Bool) (eligible : List Nat) : Gang :=
  let rest := fun (l : List Cand) => (sortBy Cand.longer l).filter (fun x => some x.key != first.map (·.key))
  let order := first.toList ++ rest as ++ rest bs
  let places := (order.map (·.key)).foldl placeOne []
  let at1 := fun (p : Nat × Nat) => order.any (fun x => x.key == p.2 && x.pc == pc1)
  ⟨block, pc1, pc2, inLaneOrder (places.filter at1), inLaneOrder (places.filter (fun p => !at1 p)),
    override, eligible⟩

/-- Keys of candidates that are eligible: those that pass the class policy, and those at the overriding PC (R253). -/
def eligibleKeys (ok atPc : List Cand) : List Nat := ((ok ++ atPc).map (·.key)).eraseDups

/-- The gang of a floor slot (R54, R253): the head of the floor queue first, its PC on port A. -/
def floorGang (x : Core) (head : Cand) (e : List Cand) : Gang :=
  let mine := e.filter (fun y => y.block == head.block)
  let ok := mine.filter (fun y => x.admits y.peek.cls)
  let pc2 := lowestPc ok (fun p => p != head.pc)
  fillGang head.block head.pc pc2 (some head) (mine.filter (fun y => y.pc == head.pc))
    (ok.filter (fun y => some y.pc == pc2)) false (eligibleKeys ok (mine.filter (fun y => y.pc == head.pc)))

/-- The gang that the vote forms (R41 to R43, R252, R253); `slots` are the issue slots of a block so
far. -/
def voteGang (x : Core) (slots : Nat → Nat) (e : List Cand) : Option Gang :=
  let ok := e.filter (fun y => x.admits y.peek.cls)
  match leastBy Cand.blockFirst ok with
  | none => none
  | some b =>
    let mine := e.filter (fun y => y.block == b.block)
    let able := ok.filter (fun y => y.block == b.block)
    match lowestPc able (fun _ => true) with
    | none => none
    | some p1 =>
      let p2 := lowestPc able (fun p => p != p1)
      let keys := able.map (·.key)
      if (slots b.block + 1) % 64 = 0 then
        match leastBy Cand.longer mine with
        | none => none
        | some w =>
          let keys := eligibleKeys able (mine.filter (fun y => y.pc == w.pc))
          if w.pc = p1 then
            some (fillGang b.block p1 p2 (some w) (mine.filter (fun y => y.pc == p1))
              (able.filter (fun y => some y.pc == p2)) true keys)
          else
            some (fillGang b.block p1 (some w.pc) (some w) (able.filter (fun y => y.pc == p1))
              (mine.filter (fun y => y.pc == w.pc)) true keys)
      else
        some (fillGang b.block p1 p2 none (able.filter (fun y => y.pc == p1))
          (able.filter (fun y => some y.pc == p2)) false keys)

/-- The block's issue slots on a core (R42). -/
def State.blockSlots (s : State) (c b : Nat) : Nat :=
  match s.blocks.find b with
  | some x => x.slots.getD c 0
  | none => 0

/-- The first entry of a floor queue that stands among the candidates (R54). -/
def queueHead (q : List Nat) (cs : List Cand) : Option Cand :=
  (q.filterMap (fun k => cs.find? (fun x => x.key == k))).head?

/-- The lane picker's choice (R41, R54): none while no thread is eligible (R252, step 1). A floor slot takes no override,
though it be its block's 64th (assumption 114), and the head of the floor queue is placed though it be DEFERRED (assumption
115). -/
def State.pickGang (s : State) (c : Nat) (x : Core) (cs : List Cand) : Option Gang :=
  let lanes := cs.filter (fun y => !y.peek.uniform)
  let e := lanes.filter (fun y => !y.deferred)
  if e.isEmpty then none
  else
    match queueHead x.floorQ lanes with
    | some h => some (floorGang x h e)
    | none => voteGang x (s.blockSlots c) e

/-! ### The uniform picker -/

/-- The uniform picker's choice (R44, R54): the arrival set, at one PC of one group. -/
def pickUniform (x : Core) (cs : List Cand) : Option (Nat × Word64 × List Nat) :=
  let unis := cs.filter (fun y => y.peek.uniform && y.full)
  let e := unis.filter (fun y => !y.deferred)
  let head := match queueHead x.ufloorQ unis with
    | some h => some h
    | none =>
      let first := fun (a b : Cand) => a.blockFirst b ||
        (!b.blockFirst a && (decide (b.wait < a.wait) ||
          (a.wait == b.wait && decide (groupOf a.key < groupOf b.key))))
      match leastBy first e with
      | none => none
      | some g => leastBy (fun (a b : Cand) => a.pc.ult b.pc)
          (e.filter (fun y => groupOf y.key == groupOf g.key))
  match head with
  | none => none
  | some h => some (h.block, h.pc, (unis.filter (fun y =>
      groupOf y.key == groupOf h.key && y.pc == h.pc && (!y.deferred || y.key == h.key))).map (·.key))

/-! ### Debug comparators -/

/-- A comparator of a core matches an access of a thread that is of some kinds (R349, R350): 0 fetch, 1 load, 2 store;
KIND 3 matches any of them. -/
def State.comparatorHit (s : State) (c k : Nat) (kinds : List Nat) (lo n : Nat) : Option Nat :=
  let x := s.core c
  if !s.dbgOn then none
  else (natRange 0 8).find? (fun i =>
    let ctl := x.cmpCtl.getD i 0
    let kd := (ctl.extractLsb' 29 2).toNat
    let a := (x.cmpAddr.getD i 0).toNat
    ctl.getLsbD 31 && (kd == 3 || kinds.contains kd) && (ctl.getLsbD 28 || s.namedThread c == some k) &&
      decide (lo ≤ a) && decide (a < lo + n))

/-- What a match does: the named thread halts; a match of another thread leaves a debug record
(R350). -/
def State.comparatorHalts (s : State) (c k : Nat) (kinds : List Nat) (lo n : Nat) : Bool :=
  (s.comparatorHit c k kinds lo n).isSome && s.namedThread c == some k

/-- The record of a match by a thread that the debugger does not name (R350). -/
def State.comparatorRecord (s : State) (c b k : Nat) (pc : Word64) (kinds : List Nat) (lo n : Nat) : State :=
  match s.comparatorHit c k kinds lo n with
  | some _ => if s.namedThread c == some k then s else s.debugRec b k pc 1 [lo]
  | none => s

/-- Threads that a fetch comparator halts before their unit, and the records of the others. -/
def State.fetchCompare (s : State) (c : Nat) (cs : List Cand) (ks : List Nat) : State × List Nat :=
  ks.foldl (fun p k =>
    match cs.find? (fun x => x.key == k) with
    | none => p
    | some x =>
      let lo := x.pc.toNat
      let n := 4 * x.peek.words
      if p.1.comparatorHalts c k [0] lo n then
        (p.1.modThread k (fun th => { th with st := .parked .debug }), p.2)
      else (p.1.comparatorRecord c x.block k x.pc [0] lo n, p.2 ++ [k])) (s, [])

/-! ### The start of a core cycle -/

/-- A unit to execute, from its first word on. -/
def Issue.start (port block : Nat) (pc : Word64) (lanes : List Nat) : Issue :=
  ⟨port, block, pc, pc, lanes, 0, none, none, 0⟩

/-- Threads at a uniform word with an empty source take BLOCKED (R46). -/
def State.blockUniform (s : State) (cs : List Cand) : State :=
  cs.foldl (fun s x =>
    if x.peek.uniform && !x.full && !x.deferred then
      s.modThread x.key (fun th => { th with st := .blocked (.regs [] x.peek.srcs) })
    else s) s

/-- The distinct pairs of group and register among the sources of some threads' units, at most six for each group
(R254). -/
def gangReads (cs : List Cand) (lanes : List Nat) : Nat :=
  Nat.min (6 * ((lanes.map groupOf).eraseDups).length) ((lanes.flatMap (fun k =>
    match cs.find? (fun x => x.key == k) with
    | some x => x.peek.reads.map (fun r => (groupOf k, r))
    | none => [])).eraseDups).length

/-- The words of the unit of the first of some threads, by address, as far as they can be fetched (R84, R85). -/
def State.unitWords (s : State) (cs : List Cand) (seed : Nat) (lanes : List Nat) : List (Word64 × Word32) :=
  match cs.find? (fun x => some x.key == lanes.head?) with
  | none => []
  | some x =>
    match s.blocks.find x.block with
    | none => []
    | some b => (natRange 0 x.peek.words).filterMap (fun i =>
        let a := x.pc + BitVec.ofNat 64 (4 * i)
        match s.fetch b.cluster b.tenant a.toNat seed with
        | .word w => some (a, w)
        | _ => none)

/-- What the fetches of some words leave behind. -/
def State.noteWords (s : State) (b : Nat) (seed : Nat) (ws : List (Word64 × Word32)) : State :=
  match s.blocks.find b with
  | none => s
  | some x => ws.foldl (fun s p => s.noteFetch x.cluster x.tenant p.1.toNat seed p.2) s

/-- Threads of a port that may still issue the unit at its PC that was fetched when their gang was formed: where it could
not be fetched then, those whose unit is not a uniform word now. -/
def heldLanes (cs : List Cand) (ws : List (Word64 × Word32)) (pc : Option Word64) (ks : List Nat) : List Nat :=
  ks.filter (fun k => cs.any (fun x =>
    x.key == k && some x.pc == pc && (!x.peek.uniform || ws.any (fun p => p.1 == x.pc))))

/-- A gang's gathering cycles (R254): ⌈b ÷ GRANT⌉ − 1, where b, which the register cache decides, is any number up to
the distinct pairs of group and register among the gang's sources, by free choice. -/
def gatherCycles (grant choice reads : Nat) : Nat := choice % Nat.max 1 ((reads + grant - 1) / grant)

/-- The threads of a list that may still be picked. -/
def State.stillReady (s : State) (ks : List Nat) : List Nat :=
  ks.filter (fun k =>
    match s.threads.find k with
    | some th => (th.pickable || th.deferred) &&
        (match s.blocks.find (blockOf k) with
         | some b => b.runs
         | none => false)
    | none => false)

/-- What the start of a cycle sees of its core's threads: those whose wait counts run at lane and at uniform
instructions (R47), those at a uniform instruction with full sources (R54), those that stand stopped (R351), and those
that the lane picker has taken (R57). -/
structure Seen where
  lanes   : List Nat
  unis    : List Nat
  uniFull : List Nat
  stopped : List Nat
  taken   : List Nat
  deriving DecidableEq, Repr

/-- Puts the units of a cycle in order: the uniform instruction, port A, port B (R169, R214); `words` are those of a gang
that has gathered its operands. -/
def State.openCycle (s : State) (c seed : Nat) (seen : Seen)
    (uni : Option (Nat × Word64 × List Nat)) (gang : Option Gang) (words : List (Word64 × Word32)) : State :=
  let us := match uni with
    | some (b, pc, ks) => if ks.isEmpty then [] else [Issue.start 2 b pc ks]
    | none => []
  let gs := match gang with
    | none => []
    | some g =>
      (if g.laneA.isEmpty then [] else [Issue.start 0 g.block g.pc1 g.laneA]) ++
      (match g.pc2 with
       | some p => if g.laneB.isEmpty then [] else [Issue.start 1 g.block p g.laneB]
       | none => [])
  let cyc : Cyc :=
    { core := c
      todo := us ++ gs
      snap := s.groups.filter (fun p => p.2.core == c)
      hops := []
      issued := []
      uissued := []
      exiting := []
      classes := []
      block := gang.map (fun g => g.block)
      eligible := match gang with
        | some g => g.eligible
        | none => []
      pc1 := match gang with
        | some g => g.pc1
        | none => 0
      override := match gang with
        | some g => g.override
        | none => false
      laneWait := seen.lanes
      uniWait := seen.unis
      picked := us.flatMap (·.lanes) ++ seen.taken
      placed := gs.flatMap (·.lanes)
      stopped := seen.stopped
      uniFull := seen.uniFull
      late := []
      words := words
      seed := seed }
  { s with cyc := some cyc }

/-- The core's threads that stand BLOCKED, PARKED or DEFERRED. -/
def State.stoppedOn (s : State) (c : Nat) : List Nat :=
  (s.threads.filter (fun p => p.2.stopped && s.coreOfThread p.1 == c)).map (·.1)

/-- A core cycle begins: the pickers choose, and the chosen units stand to be executed (R39 to R46,
R54, R252 to R254). While a gang is held, the cycle forms no other, and steps 1 to 3 of R252 are taken all the same. A
gang's words are fetched, and GRANT is read, when it is formed (R85, R254; assumptions 10 and 113). -/
def State.beginCycle (s0 : State) (c : Nat) : State :=
  let seed := s0.freeCtr
  let s := s0.drawn
  let cs := s.cands c seed
  let seen : Seen :=
    ⟨(cs.filter (fun y => !y.peek.uniform)).map (·.key), (cs.filter (fun y => y.peek.uniform)).map (·.key),
      (cs.filter (fun y => y.peek.uniform && y.full)).map (·.key), s.stoppedOn c, []⟩
  let s := s.blockUniform cs
  let uni := pickUniform (s.core c) cs
  let (s, uks) := match uni with
    | some (_, _, ks) => s.fetchCompare c cs ks
    | none => (s, [])
  let uni := uni.map (fun p => (p.1, p.2.1, uks))
  let e := cs.filter (fun y => !y.peek.uniform && !y.deferred)
  let s := s.modCore c (fun x => x.policy (e.map (·.peek.cls)))
  match (s.core c).held with
  | some h =>
    if h.left = 0 then
      let s := s.modCore c (fun x => { x with held := none })
      s.openCycle c seed seen uni (some ⟨h.block, h.pc1, h.pc2, heldLanes cs h.words (some h.pc1) (s.stillReady h.laneA),
        heldLanes cs h.words h.pc2 (s.stillReady h.laneB), h.override, h.eligible⟩) h.words
    else
      (s.modCore c (fun x => { x with held := some { h with left := h.left - 1 } })).openCycle c seed
        seen uni none []
  | none =>
    match s.pickGang c (s.core c) cs with
    | none => s.openCycle c seed seen uni none []
    | some g =>
      let (s, ka) := s.fetchCompare c cs g.laneA
      let (s, kb) := s.fetchCompare c cs g.laneB
      let n := gatherCycles (s.core c).grant s.choice (gangReads cs (ka ++ kb))
      let s := s.drawn
      let seen := { seen with taken := ka ++ kb }
      if n = 0 then s.openCycle c seed seen uni (some { g with laneA := ka, laneB := kb }) []
      else
        let ws := s.unitWords cs seed ka ++ s.unitWords cs seed kb
        ((s.noteWords g.block seed ws).modCore c (fun x =>
          { x with held := some ⟨g.block, g.pc1, g.pc2, ka, kb, g.override, g.eligible, n - 1, ws⟩ })).openCycle
          c seed seen uni none []

end Sys2Proof.Machine
end

