-- ==== Sys2Proof/Machine/Reach.lean ====
section
/-! DEFINITION. Where an access goes and how it may fail (R162, R163, R166, R168, R171, R213), the range
scoreboard (R179, R237, R264), and how loads, stores and fills come under way (R165 to R167, R260). -/

namespace Sys2Proof.Machine

/-! ### Translation faults on their way to the Hall -/

/-- Access codes of a record (R307): load, store, atomic or row write, fetch, engine read, engine
write. -/
def accLoad : Nat := 0
/-- Access code of a store (R307). -/
def accStore : Nat := 1
/-- Access code of an atomic or row write (R307). -/
def accAtomic : Nat := 2
/-- Access code of a fetch (R307). -/
def accFetch : Nat := 3
/-- Access code of an engine read (R307). -/
def accEngRead : Nat := 4
/-- Access code of an engine write (R307). -/
def accEngWrite : Nat := 5

/-- Fills the fields that a translation fault gives a record (R307, R308): kind 1 or 3 for stage 1,
kind 2 for stage 2, the access and the cause, the address, and WALK. -/
def FaultRec.ofFault (r : FaultRec) (acc : Nat) (f : XFault) : FaultRec :=
  { r with
    kind := if f.stage = 2 then 2 else r.kind
    acc := acc
    cause := f.cause
    addr := f.addr
    info := if f.walk then 1 else 0 }

/-- A translation fault of a thread or arrival set is sent to the Hall (R163, R213, R315); `set` names
an arrival set. -/
def State.sendFault (s : State) (k : Nat) (pc : Word64) (acc : Nat) (f : XFault) (set : Bool) : State :=
  let r := if set then s.groupRec 1 (groupOf k) pc else s.threadRec 1 k pc
  let m : FaultMsg := ⟨s.freshId, r.ofFault acc f, f.stage, none, blockOf k⟩
  s.bumpId.modDesk (fun d => { d with msgs := d.msgs ++ [m] })

/-! ### Windows -/

/-- The windows of R162. -/
inductive Window where
  | global
  | priv
  | larder
  | core
  | fifo
  | absent
  deriving DecidableEq, Repr

/-- The window that ea[63:48] selects (R162). -/
def windowOf (ea : Word64) : Window :=
  let h := (ea.extractLsb' 48 16).toNat
  if h ≤ 0xF then .global
  else if h = 0xFFF0 then .priv
  else if h = 0xFFF1 then .larder
  else if h = 0xFFF2 then .core
  else if h = 0xFFF3 then .fifo
  else .absent

/-- o: ea with bits [63:48] cleared (R162). -/
def windowOffset (ea : Word64) : Nat := (ea.extractLsb' 0 48).toNat

/-- Where a checked access goes, or why it does not. -/
inductive Reach where
  | mem (site : Site) (addr : Nat) (readOnly : Bool)
  | priv (o : Nat)
  | fifo (bank : Nat)
  | trap (cause : Nat)
  | fault (f : XFault)
  deriving DecidableEq, Repr

/-- The FIFO that an address names, if it names one (R168). -/
def fifoBank (c : Cluster) (o : Nat) : Option Nat :=
  if o % 256 = 0 ∧ o / 256 < 48 ∧ c.bankMode (o / 256) = 2 then some (o / 256) else none

/-- The checks of an access in the order of R163 and its place by R166 and R171: `stacklim` is the
limit of the private window for a thread and absent for the uniform side (R213); `home` asks for the
home slice; `fifo` says that the FIFO window is legal for the instruction, and `host` that the host
window is (R333). -/
def State.reach (s : State) (b : Nat) (stacklim : Option Word32) (ea : Word64) (size : Nat)
    (need : Perm) (place : Site) (fifo host : Bool) : State × Reach :=
  match s.blocks.find b with
  | none => (s, .trap 4)
  | some x =>
    let o := windowOffset ea
    if ea.toNat % size ≠ 0 then (s, .trap 3)
    else
      match windowOf ea with
      | .absent => (s, .trap 4)
      | .priv =>
        match stacklim with
        | none => (s, .trap 4)
        | some lim => if o + size ≤ lim.toNat then (s, .priv o) else (s, .trap 2)
      | .larder =>
        if decide (o + size ≤ x.packet.lscr) && scratchBanks (s.cluster x.cluster) x o size then
          (s, .mem .larderScratch o false)
        else (s, .trap 4)
      | .core =>
        if o + size ≤ x.packet.cscr then (s, .mem .coreScratch o false) else (s, .trap 4)
      | .fifo =>
        if fifo then
          match fifoBank (s.cluster x.cluster) o with
          | some i => (s, .fifo i)
          | none => (s, .trap 4)
        else (s, .trap 4)
      | .global =>
        if !inGlobal ea.toNat size then (s, .trap 4)
        else
          match s.translate x.cluster x.tenant ea.toNat need s.choice with
          | .fault f => (s.drawn, .fault f)
          | .ok pa p1 p2 =>
            let s1 := s.drawn.cacheXlate x.cluster x.tenant p1 p2
            if inHostWindow pa then
              (if host then (s1, .mem .hostWindow (pa - hostBase) false) else (s1, .trap 4))
            else
              let site := if place == .larder && !(s.cluster x.cluster).hasCache then .home else place
              (s1, .mem site pa (!p1.perm.getLsbD 1 && !p2.perm.getLsbD 1))

/-- Where a load or store asks to be performed (R166): at home for an ordered access at DEVICE scope or
wider. -/
def accessPlace (ord scope : Nat) : Site := if ord ≠ 0 ∧ 4 ≤ scope then .home else .larder

/-- Where an atomic on global data asks to be performed (R171). -/
def atomicPlace (scope : Nat) : Site :=
  if scope < 4 then .larder else if scope = 4 then .home else .fabricUnit

/-- Where private data and plain global data are performed: in the Larder, or at home when the cluster has no
CACHE-mode bank (R166, R171, R260). -/
def larderPlace (c : Cluster) : Site := if c.hasCache then .larder else .home

/-- The offset in the group's slab of byte `o` of the private window of a lane (R263). -/
def slabOffset (o lane : Nat) : Nat := (o / 4 * 8 + lane) * 4 + o % 4

/-- The place of byte `o` of the private window of a thread: in its group's slab (R263; assumption 98). -/
def slabPlace (k o : Nat) : Nat := poolBase + 2 ^ 40 * groupOf k + slabOffset o (laneOf k)

/-- The address lies in the slab of one of the groups. -/
def inSlabs (gs : List Nat) (pa : Nat) : Bool := inPool pa && gs.contains ((pa - poolBase) / 2 ^ 40)

/-! ### The range scoreboard -/

/-- An access of a block waits for an entry that it overlaps: any access for a write range, a write for
a read range (R179, R237, R264). `mine` is the access's own entry, which it does not wait for. -/
def RsbEnt.holds (e : RsbEnt) (b : Nat) (core : Bool) (lo hi : Nat) (write : Bool) : Bool :=
  e.block == b && e.core == core && decide (lo ≤ e.hi) && decide (e.lo ≤ hi) && (e.write || write)

/-- An access to a block's scratch must wait (R179, R237). -/
def State.rangeHeld (s : State) (b : Nat) (core : Bool) (lo hi : Nat) (write : Bool) : Bool :=
  (s.cluster (s.clusterOfBlock b)).rsb.any (fun e => e.holds b core lo hi write)

/-- Installs an entry (R179, R237). -/
def State.addRange (s : State) (e : RsbEnt) : State :=
  s.modCluster (s.clusterOfBlock e.block) (fun c => { c with rsb := c.rsb ++ [e] })

/-- Releases the entries of a memory operation (R179). -/
def State.dropRange (s : State) (cl id : Nat) : State :=
  s.modCluster cl (fun c => { c with rsb := c.rsb.filter (fun e => e.memOp != some id) })

/-- What an access to a site waits for in the scoreboard, if anything (R179). -/
def State.rangeWait (s : State) (b : Nat) (site : Site) (lo n : Nat) (write : Bool) : Option Wait :=
  match site with
  | .larderScratch =>
    if s.rangeHeld b false lo (lo + n - 1) write then some (.range false lo (lo + n - 1) write) else none
  | .coreScratch =>
    if s.rangeHeld b true lo (lo + n - 1) write then some (.range true lo (lo + n - 1) write) else none
  | _ => none

/-! ### The Larder's copies -/

/-- The byte stands in the Larder (R260). -/
def Cluster.holdsByte (c : Cluster) (pa : Nat) : Bool := (c.cache.find pa).isSome

/-- Every byte of a range stands in the Larder. -/
def Cluster.holdsAll (c : Cluster) (pa n : Nat) : Bool := (natRange pa n).all c.holdsByte

/-- A fill of the sector is under way for the cluster (R262). -/
def State.fillPending (s : State) (cl sector : Nat) : Bool :=
  s.inflight.any (fun o => o.cluster == cl &&
    match o.act with
    | .fill x _ => x == sector
    | .response x _ _ _ _ => x == sector
    | _ => false)

/-- Puts a fill of a sector under way, unless one is (R260). -/
def State.requestFill (s : State) (cl ten sector : Nat) (readOnly : Bool) : State :=
  if s.fillPending cl sector then s
  else
    let op : MemOp := ⟨s.freshId, 0, ten, cl, 0, [], 0, .fill sector readOnly, [], false⟩
    { s.bumpId with inflight := s.inflight ++ [op] }

/-- Requests the sectors of a range of which some byte is not in the Larder (R260). -/
def State.requestFills (s : State) (cl ten pa n : Nat) (readOnly : Bool) : State :=
  (natRange (pa / 32) ((pa + n + 31) / 32 - pa / 32)).foldl (fun s i =>
    let lo := Nat.max pa (32 * i)
    let hi := Nat.min (pa + n) (32 * i + 32)
    if (s.cluster cl).holdsAll lo (hi - lo) then s else s.requestFill cl ten (32 * i) readOnly) s

/-- Requests the line of an atomic of the cluster unit when the Larder holds no byte of it, and otherwise the sectors
that it lacks (R171, R260). -/
def State.requestLine (s : State) (cl ten pa n : Nat) (readOnly : Bool) : State :=
  if (natRange (pa / 128 * 128) 128).any (s.cluster cl).holdsByte then s.requestFills cl ten pa n readOnly
  else s.requestFills cl ten (pa / 128 * 128) 128 readOnly

/-- Requests the sectors of several parts of a range. -/
def State.requestParts (s : State) (cl ten : Nat) (readOnly : Bool) (ps : List (Nat × Nat)) : State :=
  ps.foldl (fun s p => s.requestFills cl ten p.1 p.2 readOnly) s

/-- Requests what an atomic of a Larder place still lacks: of private data its sectors (R260), of global data the line
when no byte of it is held (R171). -/
def State.requestAtomic (s : State) (cl ten a : Nat) (wide readOnly : Bool) : State :=
  if inPool a then s.requestParts cl ten readOnly (atomParts a wide)
  else s.requestLine cl ten a (if wide then 8 else 4) readOnly

/-- Home's response to a fill may no longer be used where a cluster has seen newer bytes of its sector (R165, R268,
R338): the cluster's own fill is read again, and its later reads do not join the responses to others. -/
def MemAct.stale (act : MemAct) (own : Bool) (cl : Nat) (ok : Nat → Bool) : MemAct :=
  match act with
  | .response sector ro data bad barred =>
    if (natRange sector 32).any ok then
      (if own then .fill sector ro else .response sector ro data bad (cl :: barred))
    else act
  | _ => act

/-- A cluster has seen newer bytes of the sectors that satisfy a test. -/
def State.staleFills (s : State) (cl : Nat) (ok : Nat → Bool) : State :=
  { s with inflight := s.inflight.map (fun o => { o with act := o.act.stale (o.cluster == cl) cl ok }) }

/-! ### Accesses come under way -/

/-- The parts of an access that are each performed whole (R167): address and size. A plain access may
come apart at 4-byte boundaries, an ordered one of 16 bytes at its 8-byte boundary. -/
def pieces (addr n : Nat) (ordered : Bool) : List (Nat × Nat) :=
  let w := if ordered then 8 else 4
  if n ≤ w then [(addr, n)] else (natRange 0 (n / w)).map (fun i => (addr + w * i, w))

/-- The parts of a private access (R263): words 32 bytes apart in the slab. -/
def slabPieces (k o n : Nat) : List (Nat × Nat) :=
  if n ≤ 4 then [(slabPlace k o, n)]
  else (natRange 0 (n / 4)).map (fun i => (slabPlace k (o + 4 * i), 4))

/-- The destination of a part: `i` registers further on. -/
def Dest.part (d : Dest) (i n : Nat) : Dest :=
  match d with
  | .lanes k r _ => .lanes k (r + i) n
  | .unis g r _ => .unis g (r + i) n

/-- Puts the parts of a load under way; `i` is the first register of the next part. -/
def State.issueLoads (s : State) (b : Nat) (members : List Nat) (site : Site) (signed : Bool)
    (d : Dest) (ro : Bool) (i : Nat) : List (Nat × Nat) → State
  | [] => s
  | (a, n) :: rest =>
    let w := (n + 3) / 4
    State.issueLoads (s.issueOp b members (.load site a n signed (d.part i w) ro) []) b members site signed
      d ro (i + w) rest

/-- Puts the parts of a store under way. -/
def State.issueStores (s : State) (b : Nat) (members : List Nat) (site : Site) (data : List Byte) :
    List (Nat × Nat) → State
  | [] => s
  | (a, n) :: rest =>
    State.issueStores (s.issueOp b members (.store site a (data.take n)) []) b members site
      (data.drop n) rest

/-- A load of a checked access: its destination empties, its parts come under way, and missing sectors
are requested (R48, R165, R260); an acquire then has the effect of FENCE.acq (R166). -/
def State.beginLoad (s : State) (b : Nat) (members : List Nat) (site : Site) (ps : List (Nat × Nat))
    (signed : Bool) (d : Dest) (readOnly : Bool) (ord scope : Nat) : State :=
  let s1 := (s.emptyDest d).issueLoads b members site signed d readOnly 0 ps
  let s2 := match site with
    | .larder => s1.requestParts (s.clusterOfBlock b) (s.tenantOfBlock b) readOnly ps
    | _ => s1
  if ord = 2 then s2.fenceOp b members 1 scope [] else s2

/-- A store of a checked access; a release first has the effect of FENCE.rel (R166). -/
def State.beginStore (s : State) (b : Nat) (members : List Nat) (site : Site) (ps : List (Nat × Nat))
    (data : List Byte) (ord scope : Nat) : State :=
  (if ord = 3 then s.fenceOp b members 2 scope [] else s).issueStores b members site data ps

/-! ### The Larder FIFOs -/

/-- A fence of one of the threads is under way. -/
def State.fencePending (s : State) (ks : List Nat) : Bool :=
  s.inflight.any (fun o => o.act.isFence && meets ks o.members)

/-- A FIFO holds at most 32,768 elements (R168). -/
def fifoMax : Nat := 32768

/-- The elements of a FIFO. -/
def State.fifo (s : State) (cl i : Nat) : List Word32 := (s.cluster cl).fifo.getD i []

/-- Sets the elements of a FIFO. -/
def State.setFifo (s : State) (cl i : Nat) (l : List Word32) : State :=
  s.modCluster cl (fun c => { c with fifo := c.fifo.put [] i l })

/-- A pop by a thread or arrival set (R53, R168): the element, or a wait, or the trap dead FIFO. -/
def State.popFifo (s : State) (cl i : Nat) (ks : List Nat) (ea : Word64) : Except LaneAct (State × Word32) :=
  if s.fencePending ks then .error (.wait .engine)
  else
    match s.fifo cl i with
    | v :: rest => .ok (s.setFifo cl i rest, v)
    | [] =>
      if (s.cluster cl).attached.getD i 0 = 0 then .error (.trap 9 ea) else .error (.wait (.fifoPop i ea))

/-- A push by a thread or arrival set (R168): a release waits until what it follows is complete, at SYSTEM scope
writes to the host window too (R333). -/
def State.pushFifo (s : State) (cl i : Nat) (ks : List Nat) (v : Word32) (release : Bool) (scope : Nat) :
    Except LaneAct State :=
  if s.fencePending ks || (release && s.hasAccess ks) then .error (.wait .engine)
  else if release && decide (scopeSystem ≤ scope) && s.hostWrites then .error (.wait .system)
  else if fifoMax ≤ (s.fifo cl i).length then .error (.wait (.fifoPush i))
  else .ok (s.setFifo cl i (s.fifo cl i ++ [v]))

/-! ### Writing back -/

/-- Bytes reach home: each is written there and loses its poison (R164, R260). -/
def State.writeHome (s : State) (bs : List (Nat × Byte)) : State :=
  bs.foldl (fun s p => s.homeWrite p.1 [p.2]) s

/-- The dirty bytes of a Larder that satisfy a test. -/
def Cluster.dirtyBytes (c : Cluster) (ok : Nat → Bool) : List (Nat × Byte) :=
  (c.cache.filter (fun p => p.2.2 && ok p.1)).map (fun p => (p.1, p.2.1))

/-- Marks bytes of a Larder clean. -/
def Cluster.clean (c : Cluster) (ok : Nat → Bool) : Cluster :=
  { c with cache := c.cache.map (fun p => if ok p.1 then (p.1, p.2.1, false) else p) }

/-- Writes back a Larder's dirty bytes that satisfy a test and keeps clean copies (R170, R180, R260). -/
def State.writeBack (s : State) (cl : Nat) (ok : Nat → Bool) : State :=
  ((s.writeHome ((s.cluster cl).dirtyBytes ok)).modCluster cl (fun c => c.clean ok)).staleFills cl ok

/-- Writes back a Larder's dirty bytes of global lines, with clean copies kept (R170). -/
def State.writeBackGlobal (s : State) (cl : Nat) : State := s.writeBack cl (fun x => !inPool x)

/-- Drops a Larder's bytes that satisfy a test. -/
def State.dropBytes (s : State) (cl : Nat) (ok : Nat → Bool) : State :=
  s.modCluster cl (fun c => { c with cache := c.cache.filter (fun p => !ok p.1) })

/-- The addresses of a 128-byte line. -/
def inLine (line a : Nat) : Bool := a / 128 == line / 128

end Sys2Proof.Machine
end

