-- ==== Sys2Proof/Machine/Memory.lean ====
section
/-! DEFINITION. Lane major opcodes 0x20 to 0x2F and the prefix words (R90 to R93, R158 to R180): loads,
stores, atomics, fences, row instructions and cache maintenance. A meaning here puts the access under
way; the completion events perform it. -/

namespace Sys2Proof.Machine

/-! ### Prefix words -/

/-- A prefix word joins the unit (R84, R93): `ok` says that the sequence so far allows it. -/
def prefixUnit (s : State) (ok : Issue → Bool) (f : Issue → Issue) : State :=
  match s.unit with
  | none => s
  | some u =>
    if u.port ≠ 2 ∧ ok u then
      s.modCyc (fun c => { c with todo := { f u with wordAddr := u.wordAddr + 4 } :: c.todo.tail })
    else (s.trapAll u.lanes 1 u.pc (tvalWord u.word)).finishAs u u.lanes 0

/-- MOD (R90): it stands first in its unit (R93). -/
def execMod (vc : BitVec 7) (tea teb tec us : BitVec 1) (sidx : BitVec 8) (xmod : BitVec 4) (s : State) :
    Host.Outcome State Fault Refusal :=
  .next (prefixUnit s (fun u => u.modWord.isNone && u.limm.isNone)
    (fun u => { u with modWord := some (laneWord 0 0x3C (vc ++ tea ++ teb ++ tec ++ us ++ sidx ++ xmod)) }))

/-- LIMM (R92): at most one in a unit (R93). -/
def execLimm (imm : BitVec 23) (s : State) : Host.Outcome State Fault Refusal :=
  .next (prefixUnit s (fun u => u.limm.isNone) (fun u => { u with limm := some imm }))

/-! ### Addresses -/

/-- The byte offset of an LM instruction (R91). -/
def lmOffset (u : Issue) (off4 : BitVec 4) (size : Nat) : Word64 :=
  (match u.modWord with
   | some m => ((modOff m ++ off4).signExtend 64)
   | none => off4.setWidth 64) * BitVec.ofNat 64 size

/-- ea of an LM instruction (R162). -/
def lmAddress (u : Issue) (th : Thread) (va : BitVec 7) (off4 : BitVec 4) (size : Nat) : Word64 :=
  th.pair va.toNat + lmOffset u off4 size

/-- Consecutive registers. -/
def regRun (r : BitVec 7) (n : Nat) : List Nat := natRange r.toNat n

/-- The bytes of consecutive registers, lowest first. -/
def Thread.bytes (th : Thread) (r n : Nat) : List Byte :=
  (natRange r ((n + 3) / 4)).flatMap (fun i => leBytes (th.reg i).val.toNat 4) |>.take n

/-- What an access comes to for one thread: what happens to the state, and to the thread. -/
abbrev LaneStep := State × LaneAct

/-- The thread parks with a translation fault (R163). -/
def parkFault (s : State) (u : Issue) (k : Nat) (acc : Nat) (f : XFault) (ea : Word64) : LaneStep :=
  (s.sendFault k u.pc acc f false, .park (.xlate s.freshId ea false))

/-- A debug comparator that a data access meets halts the named thread, or leaves a record when the access does not wait
(R350). -/
def dataCompare (s : State) (u : Issue) (k : Nat) (kinds : List Nat) (ea : Word64) (n : Nat)
    (go : State → LaneStep) : LaneStep :=
  let c := s.coreOfThread k
  if s.comparatorHalts c k kinds ea.toNat n then (s, .halt)
  else
    let r := go s
    match r.2 with
    | .wait _ => r
    | act => (r.1.comparatorRecord c u.block k u.pc kinds ea.toNat n, act)

/-! ### Loads and stores -/

/-- A load of `n` bytes (R165); a FIFO pop has the fence effects of its order at the scope that it encodes (R168;
assumption 137). -/
def loadUnit (s : State) (n : Nat) (signed : Bool) (vt va : BitVec 7) (ord : BitVec 2)
    (scope : BitVec 3) (off4 : BitVec 4) : State :=
  let regs := (n + 3) / 4
  let use := { Use.plain with a := addrRegs va, dst := regRun vt regs, lm := true }
  laneSeq s (fun u k th s0 =>
    match gate s use u k th with
    | some a => (s0, a)
    | none =>
      let b := u.block
      let cl := s0.clusterOfBlock b
      let ea := lmAddress u th va off4 n
      let d : Dest := .lanes k vt.toNat regs
      let o := ord.toNat
      let sc := scope.toNat
      let done := fun (s' : State) => (s', match s'.threads.find k with
        | some t => LaneAct.run (t.goto u.next)
        | none => .run (th.goto u.next))
      dataCompare s0 u k [1] ea n (fun s0 =>
        match s0.reach b (some th.stacklim) ea n permR (accessPlace o sc) (n == 4) true with
        | (s1, .trap c) => (s1, .trap c ea)
        | (s1, .fault f) => parkFault s1 u k accLoad f ea
        | (s1, .priv a) =>
          done (s1.beginLoad b [k] (larderPlace (s1.cluster cl)) (slabPieces k a n) signed d false o sc)
        | (s1, .fifo i) =>
          match s1.popFifo cl i [k] ea with
          | .error a => (s1, a)
          | .ok (s2, v) =>
            let s3 := (s2.emptyDest d).issueOp b [k] (.captured d v) []
            done (if o = 2 then s3.fenceOp b [k] 1 sc [] else s3)
        | (s1, .mem site a ro) =>
          match s1.rangeWait b site a n false with
          | some w => (s1, .wait w)
          | none => done (s1.beginLoad b [k] site (pieces a n (decide (o ≠ 0))) signed d ro o sc)))

/-- A store of `n` bytes (R165); a FIFO push has the fence effects of its order at the scope that it encodes (R168;
assumption 137). -/
def storeUnit (s : State) (n : Nat) (vt va : BitVec 7) (ord : BitVec 2) (scope : BitVec 3)
    (off4 : BitVec 4) : State :=
  let regs := (n + 3) / 4
  let use := { Use.plain with a := addrRegs va, b := regRun vt regs, roleB := true, lm := true }
  laneSeq s (fun u k th s0 =>
    match gate s use u k th with
    | some a => (s0, a)
    | none =>
      let b := u.block
      let cl := s0.clusterOfBlock b
      let ea := lmAddress u th va off4 n
      let data := th.bytes vt.toNat n
      let o := ord.toNat
      let sc := scope.toNat
      let act := LaneAct.run (th.goto u.next)
      dataCompare s0 u k [2] ea n (fun s0 =>
        match s0.reach b (some th.stacklim) ea n permW (accessPlace o sc) (n == 4) true with
        | (s1, .trap c) => (s1, .trap c ea)
        | (s1, .fault f) => parkFault s1 u k accStore f ea
        | (s1, .priv a) => (s1.beginStore b [k] (larderPlace (s1.cluster cl)) (slabPieces k a n) data o sc, act)
        | (s1, .fifo i) =>
          match s1.pushFifo cl i [k] (BitVec.ofNat 32 (leNat data)) (o == 3) sc with
          | .error a => (s1, a)
          | .ok s2 => (if o = 3 ∧ scopeCluster ≤ sc then s2.writeBackGlobal cl else s2, act)
        | (s1, .mem site a _) =>
          match s1.rangeWait b site a n true with
          | some w => (s1, .wait w)
          | none => (s1.beginStore b [k] site (pieces a n (decide (o ≠ 0))) data o sc, act)))

/-- LD.U8: zero-extended (R165). -/
def execLdU8 (_tc : BitVec 2) (vt va : BitVec 7) (ord : BitVec 2) (scope : BitVec 3) (off4 : BitVec 4) (s : State) :
    Host.Outcome State Fault Refusal :=
  .next (loadUnit s 1 false vt va ord scope off4)

/-- LD.S8: sign-extended (R165). -/
def execLdS8 (_tc : BitVec 2) (vt va : BitVec 7) (ord : BitVec 2) (scope : BitVec 3) (off4 : BitVec 4) (s : State) :
    Host.Outcome State Fault Refusal :=
  .next (loadUnit s 1 true vt va ord scope off4)

/-- LD.U16: zero-extended (R165). -/
def execLdU16 (_tc : BitVec 2) (vt va : BitVec 7) (ord : BitVec 2) (scope : BitVec 3) (off4 : BitVec 4) (s : State) :
    Host.Outcome State Fault Refusal :=
  .next (loadUnit s 2 false vt va ord scope off4)

/-- LD.S16: sign-extended (R165). -/
def execLdS16 (_tc : BitVec 2) (vt va : BitVec 7) (ord : BitVec 2) (scope : BitVec 3) (off4 : BitVec 4) (s : State) :
    Host.Outcome State Fault Refusal :=
  .next (loadUnit s 2 true vt va ord scope off4)

/-- LD.B32; in the FIFO window, a pop (R165). -/
def execLdB32 (_tc : BitVec 2) (vt va : BitVec 7) (ord : BitVec 2) (scope : BitVec 3) (off4 : BitVec 4) (s : State) :
    Host.Outcome State Fault Refusal :=
  .next (loadUnit s 4 false vt va ord scope off4)

/-- LD.B64: a pair (R165). -/
def execLdB64 (_tc : BitVec 2) (vt va : BitVec 7) (ord : BitVec 2) (scope : BitVec 3) (off4 : BitVec 4) (s : State) :
    Host.Outcome State Fault Refusal :=
  .next (loadUnit s 8 false vt va ord scope off4)

/-- LD.B128: a quad (R165). -/
def execLdB128 (_tc : BitVec 2) (vt va : BitVec 7) (ord : BitVec 2) (scope : BitVec 3) (off4 : BitVec 4) (s : State) :
    Host.Outcome State Fault Refusal :=
  .next (loadUnit s 16 false vt va ord scope off4)

/-- ST.B8 (R165). -/
def execStB8 (_tc : BitVec 2) (vt va : BitVec 7) (ord : BitVec 2) (scope : BitVec 3) (off4 : BitVec 4) (s : State) :
    Host.Outcome State Fault Refusal :=
  .next (storeUnit s 1 vt va ord scope off4)

/-- ST.B16 (R165). -/
def execStB16 (_tc : BitVec 2) (vt va : BitVec 7) (ord : BitVec 2) (scope : BitVec 3) (off4 : BitVec 4) (s : State) :
    Host.Outcome State Fault Refusal :=
  .next (storeUnit s 2 vt va ord scope off4)

/-- ST.B32; in the FIFO window, a push (R165). -/
def execStB32 (_tc : BitVec 2) (vt va : BitVec 7) (ord : BitVec 2) (scope : BitVec 3) (off4 : BitVec 4) (s : State) :
    Host.Outcome State Fault Refusal :=
  .next (storeUnit s 4 vt va ord scope off4)

/-- ST.B64: a pair (R165). -/
def execStB64 (_tc : BitVec 2) (vt va : BitVec 7) (ord : BitVec 2) (scope : BitVec 3) (off4 : BitVec 4) (s : State) :
    Host.Outcome State Fault Refusal :=
  .next (storeUnit s 8 vt va ord scope off4)

/-- ST.B128: a quad (R165). -/
def execStB128 (_tc : BitVec 2) (vt va : BitVec 7) (ord : BitVec 2) (scope : BitVec 3) (off4 : BitVec 4) (s : State) :
    Host.Outcome State Fault Refusal :=
  .next (storeUnit s 16 vt va ord scope off4)

/-! ### Atomics -/

/-- An atomic or RED (R171 to R174): `wide` for 64 bits, `ret` for one that returns old. CAS also reads
n from the registers after c (R173). -/
def atomicUnit (s : State) (wide ret : Bool) (vd va : BitVec 7) (op : BitVec 4) (scope : BitVec 3)
    (ord : BitVec 2) : State :=
  let w := if wide then 2 else 1
  let cas := op == 9
  let use := { Use.plain with
    a := addrRegs va, b := regRun vd (if cas then 2 * w else w)
    dst := if ret then regRun vd w else [], roleB := true, la := true }
  laneSeq s (fun u k th s0 =>
    match gate s use u k th with
    | some a => (s0, a)
    | none =>
      let b := u.block
      let n := 4 * w
      let ea := th.pair va.toNat
      let sc := scope.toNat
      let value := fun (r : Nat) => if wide then th.pair r else (th.reg r).val.setWidth 64
      let x := value vd.toNat
      let y := if cas then value (vd.toNat + w) else 0
      let d : Option Dest := if ret then some (.lanes k vd.toNat w) else none
      let go := fun (s1 : State) (site : Site) (a : Nat) (ro : Bool) =>
        let s2 := match d with
          | some d => s1.emptyDest d
          | none => s1
        let s3 := if ord.getLsbD 1 then s2.fenceOp b [k] 2 sc [] else s2
        let s4 := s3.issueOp b [k] (.atom site a wide op.toNat x y d) []
        let s5 := if site == .larder then s4.requestAtomic (s4.clusterOfBlock b) (s4.tenantOfBlock b) a wide ro else s4
        let s6 := if ord.getLsbD 0 then s5.fenceOp b [k] 1 sc [] else s5
        (s6, match s6.threads.find k with
          | some t => LaneAct.run (t.goto u.next)
          | none => .run (th.goto u.next))
      dataCompare s0 u k [1, 2] ea n (fun s0 =>
        match s0.reach b (some th.stacklim) ea n permRW (atomicPlace sc) false false with
        | (s1, .trap c) => (s1, .trap c ea)
        | (s1, .fault f) => parkFault s1 u k accAtomic f ea
        | (s1, .fifo _) => (s1, .trap 4 ea)
        | (s1, .priv a) => go s1 (larderPlace (s1.cluster (s1.clusterOfBlock b))) (slabPlace k a) false
        | (s1, .mem site a ro) =>
          match s1.rangeWait b site a n true with
          | some w => (s1, .wait w)
          | none => go s1 site a ro))

/-- ATOM.32 (R171 to R173). -/
def execAtom32 (_tc : BitVec 2) (vd va : BitVec 7) (op : BitVec 4) (scope : BitVec 3) (ord : BitVec 2) (s : State) :
    Host.Outcome State Fault Refusal :=
  .next (atomicUnit s false true vd va op scope ord)

/-- ATOM.64 (R171 to R173). -/
def execAtom64 (_tc : BitVec 2) (vd va : BitVec 7) (op : BitVec 4) (scope : BitVec 3) (ord : BitVec 2) (s : State) :
    Host.Outcome State Fault Refusal :=
  .next (atomicUnit s true true vd va op scope ord)

/-- RED (R174). -/
def execRed (_tc : BitVec 2) (vd va : BitVec 7) (op : BitVec 4) (scope : BitVec 3) (ord : BitVec 2) (s : State) :
    Host.Outcome State Fault Refusal :=
  .next (atomicUnit s false false vd va op scope ord)

/-! ### Fences -/

/-- FENCE (R170). -/
def execFence (_tc : BitVec 2) (kind : BitVec 2) (scope : BitVec 3) (s : State) :
    Host.Outcome State Fault Refusal :=
  .next (laneSeq s (fun u k th s0 =>
    match gate s Use.plain u k th with
    | some a => (s0, a)
    | none => (s0.fenceOp u.block [k] kind.toNat scope.toNat [], .run (th.goto u.next))))

/-! ### Row instructions -/

/-- The entry of a tenant's row table that covers a row address: lowest index first (R175). -/
def Tenant.rowEntry (t : Tenant) (ga : Nat) : Option (Nat × RowEntry) :=
  t.rows.find? (fun p => p.2.valid && decide (p.2.base ≤ ga) && decide (ga < p.2.limit))

/-- The outcome of finding a row (R175): the row, a row fault, an access fault, or a translation fault
with the address that failed. -/
inductive RowRes where
  | row (r : RowRef)
  | noRow
  | refused
  | fault (f : XFault) (addr : Nat)
  deriving DecidableEq, Repr

/-- Finds the row at a global address in a tenant's table and translates its page and that of its
version word (R175). Rows in the host window are refused (R333). -/
def State.findRow (s : State) (cl ten ga : Nat) (need : Perm) : State × RowRes :=
  match (s.tenant ten).rowEntry ga with
  | none => (s, .noRow)
  | some (i, e) =>
    if (ga - e.base) % 2 ^ e.k ≠ 0 then (s, .noRow)
    else
      let va := e.verBase + 4 * ((ga - e.base) / 2 ^ e.k)
      match s.translate cl ten ga need s.choice with
      | .fault f => (s.drawn, .fault f ga)
      | .ok pa p1 p2 =>
        let s1 := s.drawn.cacheXlate cl ten p1 p2
        match s1.translate cl ten va need s1.choice with
        | .fault f => (s1.drawn, .fault f va)
        | .ok vp q1 q2 =>
          let s2 := s1.drawn.cacheXlate cl ten q1 q2
          if inHostWindow pa || inHostWindow vp then (s2, .refused) else (s2, .row ⟨pa, vp, e.k, ten, i⟩)

/-- The bytes that the local operand of a row instruction names (R175): L of the entry found, or 64
when the row is not there. -/
def State.rowBytes (s : State) (ten ga : Nat) : Nat :=
  match (s.tenant ten).rowEntry ga with
  | some (_, e) => if (ga - e.base) % 2 ^ e.k = 0 then 2 ^ e.k else 64
  | none => 64

/-- The local operand of a row instruction: its place in scratch, or a trap (R162, R175). -/
def State.rowLocal (s : State) (b : Nat) (la : Word64) (n : Nat) : Except Nat LocRef :=
  match s.blocks.find b with
  | none => .error 4
  | some x =>
    let o := windowOffset la
    if la.toNat % 64 ≠ 0 then .error 3
    else
      match windowOf la with
      | .larder =>
        if decide (o + n ≤ x.packet.lscr) && scratchBanks (s.cluster x.cluster) x o n then
          .ok ⟨b, false, o⟩
        else .error 4
      | .core => if o + n ≤ x.packet.cscr then .ok ⟨b, true, o⟩ else .error 4
      | _ => .error 4

/-- Entries of a cluster's range scoreboard (R264). -/
def rsbMax : Nat := 64

/-- A cluster's range scoreboard has no free entry, those that the cycle under way is about to install included (R220,
R264). -/
def State.rsbFull (s : State) (cl : Nat) : Bool :=
  let due := match s.cyc with
    | some c => (c.late.filter (fun o => match o with
        | .range e => s.clusterOfBlock e.block == cl
        | _ => false)).length
    | none => 0
  decide (rsbMax ≤ (s.cluster cl).rsb.length + due)

/-- A cluster drops its copies of a row (R177). -/
def State.dropRow (s : State) (cl pa : Nat) : State :=
  s.modCluster cl (fun c => { c with rows := c.rows.filter (fun r => r.row.pa != pa) })

/-- A row instruction of one thread (R175, R176, R179): `write` for a row write. The scoreboard holds no row
instruction back (R237). -/
def rowUnit (s : State) (va vb : BitVec 7) (write : Bool) (act : RowRef → LocRef → MemAct) : State :=
  let use := { Use.plain with a := addrRegs va, b := addrRegs vb, roleB := true, la := true }
  laneSeq s (fun u k th s0 =>
    match gate s use u k th with
    | some a => (s0, a)
    | none =>
      let b := u.block
      let cl := s0.clusterOfBlock b
      let ten := s0.tenantOfBlock b
      let ga := th.pair va.toNat
      let la := th.pair vb.toNat
      let n := s0.rowBytes ten ga.toNat
      dataCompare s0 u k [if write then 2 else 1] ga n (fun s0 =>
        match s0.rowLocal b la n with
        | .error c => (s0, .trap c la)
        | .ok loc =>
          match s0.findRow cl ten ga.toNat (if write then permRW else permR) with
          | (s1, .noRow) => (s1, .trap 10 ga)
          | (s1, .refused) => (s1, .trap 4 ga)
          | (s1, .fault f a) =>
            parkFault s1 u k (if write then accAtomic else accLoad) f (BitVec.ofNat 64 a)
          | (s1, .row r) =>
            if s1.rsbFull cl then (s1, .wait .entry)
            else
              let id := s1.freshId
              let s2 := s1.issueOp b [k] (act r loc) []
              let s3 := s2.addRange ⟨b, loc.core, loc.off, loc.off + n - 1, !write, some id, none⟩
              (if write then s3.dropRow cl r.pa else s3, .run (th.goto u.next))))

/-- LDROW.NEAR (R176 to R178). -/
def execLdrowNear (_tc : BitVec 2) (va vb : BitVec 7) (s : State) :
    Host.Outcome State Fault Refusal :=
  .next (rowUnit s va vb false (fun r l => .rowRead true r l))

/-- LDROW.HOME (R176). -/
def execLdrowHome (_tc : BitVec 2) (va vb : BitVec 7) (s : State) :
    Host.Outcome State Fault Refusal :=
  .next (rowUnit s va vb false (fun r l => .rowRead false r l))

/-- STROW (R176). -/
def execStrow (_tc : BitVec 2) (va vb : BitVec 7) (s : State) :
    Host.Outcome State Fault Refusal :=
  .next (rowUnit s va vb true (.rowWrite 0))

/-- RADD.BF16 (R176). -/
def execRaddBf16 (_tc : BitVec 2) (va vb : BitVec 7) (s : State) :
    Host.Outcome State Fault Refusal :=
  .next (rowUnit s va vb true (.rowWrite 1))

/-- RADD.F32 (R176). -/
def execRaddF32 (_tc : BitVec 2) (va vb : BitVec 7) (s : State) :
    Host.Outcome State Fault Refusal :=
  .next (rowUnit s va vb true (.rowWrite 2))

/-- RMAX.BF16 (R176). -/
def execRmaxBf16 (_tc : BitVec 2) (va vb : BitVec 7) (s : State) :
    Host.Outcome State Fault Refusal :=
  .next (rowUnit s va vb true (.rowWrite 3))

/-! ### Cache maintenance -/

/-- The use of PRF, WBL and INVL (R160). -/
def lineUse (va : BitVec 7) : Use := { Use.plain with a := addrRegs va, la := true }

/-- PRF: the line's sectors are requested; a failed translation drops the request (R180). -/
def execPrf (_tc : BitVec 2) (va : BitVec 7) (s : State) :
    Host.Outcome State Fault Refusal :=
  .next (laneSeq s (fun u k th s0 =>
    match gate s (lineUse va) u k th with
    | some a => (s0, a)
    | none =>
      let cl := s0.clusterOfBlock u.block
      let ten := s0.tenantOfBlock u.block
      let ea := th.pair va.toNat
      let act := LaneAct.run (th.goto u.next)
      if windowOf ea != .global || !(s0.cluster cl).hasCache then (s0, act)
      else
        match s0.translate cl ten ea.toNat permR s0.choice with
        | .fault _ => (s0.drawn, act)
        | .ok pa p1 p2 =>
          if inHostWindow pa then (s0.drawn, act)
          else
            ((s0.drawn.cacheXlate cl ten p1 p2).requestFills cl ten (pa / 128 * 128) 128
              (!p1.perm.getLsbD 1 && !p2.perm.getLsbD 1), act)))

/-- WBL and INVL on a global line: a translation fault as of a load, and no other fault (R180). `ready` says whether
the thread may issue it, and `note` is what issuing it does to the state. -/
def lineUnit (s : State) (va : BitVec 7) (ready : State → Nat → Bool) (note : State → Nat → Nat → State)
    (act : Nat → MemAct) : State :=
  laneSeq s (fun u k th s0 =>
    match gate s (lineUse va) u k th with
    | some a => (s0, a)
    | none =>
      let cl := s0.clusterOfBlock u.block
      let ten := s0.tenantOfBlock u.block
      let ea := th.pair va.toNat
      let go := LaneAct.run (th.goto u.next)
      if windowOf ea != .global then (s0, go)
      else if !ready s0 k then (s0, .wait .engine)
      else
        match s0.translate cl ten ea.toNat permR s0.choice with
        | .fault f => parkFault s0.drawn u k accLoad f ea
        | .ok pa p1 p2 =>
          ((note (s0.drawn.cacheXlate cl ten p1 p2) cl (pa / 128 * 128)).issueOp u.block [k]
            (act (pa / 128 * 128)) [], go))

/-- WBL (R180). -/
def execWbl (_tc : BitVec 2) (va : BitVec 7) (s : State) :
    Host.Outcome State Fault Refusal :=
  .next (lineUnit s va (fun _ _ => true) (fun s _ _ => s) .writeBack)

/-- A full fence of the thread at DEVICE scope or wider is under way. -/
def State.fullFencePending (s : State) (k : Nat) : Bool :=
  s.inflight.any (fun o => o.members.contains k &&
    match o.act with
    | .fence kind scope => decide (kind = 3 ∧ 4 ≤ scope)
    | _ => false)

/-- A cluster drops its instruction-fetch copies of a line (R180). -/
def State.dropFetched (s : State) (cl line : Nat) : State :=
  s.modCluster cl (fun c => { c with icopy := c.icopy.filter (fun p => !inLine line p.1) })

/-- INVL (R180). It waits for the thread's earlier full fences at DEVICE scope or wider, and its fetch copies go when it
issues, so that what the cluster fetches afterwards is what the fence has made visible (R85; assumption 99). -/
def execInvl (_tc : BitVec 2) (va : BitVec 7) (s : State) :
    Host.Outcome State Fault Refusal :=
  .next (lineUnit s va (fun s k => !s.fullFencePending k) State.dropFetched .invalidate)

end Sys2Proof.Machine
end

