-- ==== Sys2Proof/Machine/HallMem.lean ====
section
/-! DEFINITION. Reads and writes that the Hall makes at a tenant's addresses (R312, R353), and the completion
records of AQI requests (R332). -/

namespace Sys2Proof.Machine

/-! ### Reads by the Hall (R312, R353) -/

/-- The Hall's own translations use no cluster's or die's TLB (R314). -/
def hallUnit : Nat := 9999

/-- Bytes at a tenant's VA, read at home one page after another; nothing when a page does not translate or a
byte is poisoned (R353). -/
def State.readVa (s : State) (ten va n : Nat) : Nat → Option (List Byte)
  | 0 => if n = 0 then some [] else none
  | fuel + 1 =>
    if n = 0 then some []
    else
      let k := Nat.min n (65536 - va % 65536)
      if !inGlobal va k then none
      else
        match s.translate hallUnit ten va permR s.choice with
        | .fault _ => none
        | .ok pa _ _ =>
          if s.homePoisoned pa k then none
          else
            let data := if inHostWindow pa then
                (natRange pa k).map (fun a => BitVec.ofNat 8 (Config.freeAt s.freeCtr a))
              else s.homeRead pa k
            match State.readVa s ten (va + k) (n - k) fuel with
            | some rest => some (data ++ rest)
            | none => none

/-- The requests to host memory that a reading of bytes at a tenant's VA makes (R333). -/
def State.readRequests (s : State) (ten va n : Nat) : Nat → State
  | 0 => s
  | fuel + 1 =>
    if n = 0 then s
    else
      let k := Nat.min n (65536 - va % 65536)
      match s.translate hallUnit ten va permR s.choice with
      | .ok pa _ _ =>
        State.readRequests (if inHostWindow pa then s.hostRequest ten (pa - hostBase) none k .none else s) ten (va + k)
          (n - k) fuel
      | .fault _ => s

/-- Writes bytes at a tenant's VA, one page after another, at SYSTEM scope; false when a page does not
translate. -/
def State.writeVa (s : State) (ten va : Nat) (data : List Byte) : Nat → State × Bool
  | 0 => (s, data.isEmpty)
  | fuel + 1 =>
    if data.isEmpty then (s, true)
    else
      let k := Nat.min data.length (65536 - va % 65536)
      if !inGlobal va k then (s, false)
      else
        match s.translate hallUnit ten va permW s.choice with
        | .fault _ => (s, false)
        | .ok pa _ _ =>
          State.writeVa (s.hallWrite ten pa (data.take k)) ten (va + k) (data.drop k) fuel

/-! ### Completion records of AQI requests (R332, R334) -/

/-- A completion record of an AQI, if it names one, is written, and announced once it is complete at SYSTEM scope: at
home with the write, and in the host window with the zero-length reads of its writes (R332, R333, R334). -/
def State.writeCompletion (s : State) (a tenant compl : Nat) (tag : Word32) (status info : Nat) : State :=
  if compl = 0 then s
  else
    match s.writeVa tenant compl (leBytes tag.toNat 4 ++ leBytes status 4 ++ leBytes info 8) 2 with
    | (s1, true) =>
      match s1.newOps s with
      | [] => s1.raise a
      | ids => s1.defer (.record a tenant compl tag status info (some ids))
    | (s1, false) => s1

/-- A completion record of an AQI, which waits while no runner core writes it (R332, R344). -/
def State.recordAqi (s : State) (a tenant compl : Nat) (tag : Word32) (status info : Nat) : State :=
  if s.recorderUp then s.writeCompletion a tenant compl tag status info
  else s.defer (.record a tenant compl tag status info none)

/-- A job of the runner cores of completion records and interrupts is done, as far as it can be (R344). -/
def State.runJob (s : State) : RunnerJob → State
  | .record a t c tag st info none => s.writeCompletion a t c tag st info
  | .record a t c tag st info (some ids) =>
    if s.underway ids then s.defer (.record a t c tag st info (some ids)) else s.raise a
  | .interrupt src => s.raise src
  | .unmask src e => s.unmask src e

/-- What waits for the runner cores of completion records and interrupts is done in its order (R344). -/
def State.runJobs (s : State) : State :=
  if s.recorderUp then s.io.jobs.foldl State.runJob (s.modIo (fun io => { io with jobs := [] })) else s

/-- A write to the host window is complete at SYSTEM scope: what it holds is announced (R307, R332, R333). -/
def State.hostDone (s : State) (id : Nat) : State := (s.recordWritten id).runJobs

/-- Requests of an AQI that have started are over. -/
def State.endRequests (s : State) (a n : Nat) : State :=
  s.modIo (fun io =>
    let q := io.aqis.getD a Aqi.reset
    { io with aqis := io.aqis.put Aqi.reset a { q with busy := q.busy - n } })

/-- A request of an AQI completes (R332). -/
def State.completeAqi (s : State) (a tenant compl : Nat) (tag : Word32) (status info : Nat) : State :=
  (s.endRequests a 1).recordAqi a tenant compl tag status info

/-- The request behind a replicated launch completes (R332). -/
def State.replicaDone (s : State) (r : Replica) (status : Nat) : State :=
  match r.path with
  | .aqi a tag compl _ => s.completeAqi a r.tenant compl tag status (if status = 0 then r.launch else 0)
  | _ => s

end Sys2Proof.Machine
end

