-- ==== Sys2Proof/Machine/Numbers.lean ====
section
/-! DEFINITION. Number formats and arithmetic (R60 to R72): exact values, one rounding in one of four
modes, conversions, the correctly rounded special functions, ternary digits and T5 bytes. -/

namespace Sys2Proof.Machine

/-! ### Formats and exact values -/

/-- A floating-point format (R63): exponent and fraction bits, bias, and whether it has infinities. -/
structure Fmt where
  ebits : Nat
  fbits : Nat
  bias  : Nat
  hasInf : Bool
  deriving DecidableEq, Repr

/-- FP32 (R63). -/
def fp32 : Fmt := ⟨8, 23, 127, true⟩
/-- BF16 (R63). -/
def bf16 : Fmt := ⟨8, 7, 127, true⟩
/-- E4M3 (R63): no infinity, NaN only with every bit below the sign set. -/
def e4m3 : Fmt := ⟨4, 3, 7, false⟩
/-- E5M2 (R63). -/
def e5m2 : Fmt := ⟨5, 2, 15, true⟩

/-- A floating-point value: NaN, an infinity, or (−1)^neg × m × 2^e, zero keeping its sign. -/
inductive Fp where
  | nan
  | inf (neg : Bool)
  | fin (neg : Bool) (m : Nat) (e : Int)
  deriving DecidableEq, Repr

/-- Exponent of the smallest subnormal of a format. -/
def Fmt.emin (f : Fmt) : Int := 1 - (f.bias : Int) - f.fbits

/-- The value of a bit pattern (R63). -/
def Fmt.decode (f : Fmt) (w : Nat) : Fp :=
  let frac := w % 2 ^ f.fbits
  let ex := w / 2 ^ f.fbits % 2 ^ f.ebits
  let neg := (w / 2 ^ (f.fbits + f.ebits)) % 2 == 1
  if ex = 2 ^ f.ebits - 1 ∧ f.hasInf then
    if frac = 0 then .inf neg else .nan
  else if ex = 2 ^ f.ebits - 1 ∧ frac = 2 ^ f.fbits - 1 then .nan
  else if ex = 0 then .fin neg frac f.emin
  else .fin neg (2 ^ f.fbits + frac) (f.emin + ex - 1)

/-- The canonical NaN of a format (R66): 0x7FC0_0000, 0x7FC0, 0x7F, 0x7E. -/
def Fmt.nanBits (f : Fmt) : Nat :=
  let top := (2 ^ f.ebits - 1) * 2 ^ f.fbits
  if f.hasInf then top + 2 ^ (f.fbits - 1) else top + 2 ^ f.fbits - 1

/-- The sign bit of a format. -/
def Fmt.sign (f : Fmt) (neg : Bool) : Nat := if neg then 2 ^ (f.fbits + f.ebits) else 0

/-- The infinity pattern. -/
def Fmt.infBits (f : Fmt) : Nat := (2 ^ f.ebits - 1) * 2 ^ f.fbits

/-- The largest finite pattern (R63). -/
def Fmt.maxBits (f : Fmt) : Nat := if f.hasInf then f.infBits - 1 else f.infBits + 2 ^ f.fbits - 2

/-- The rounding modes (R67). -/
inductive Round where
  | rne
  | rz
  | ru
  | rd
  deriving DecidableEq, Repr

/-- The mode of a rounding code (R67): xmod[1:0]. -/
def Round.ofCode (n : Nat) : Round :=
  match n % 4 with
  | 0 => .rne
  | 1 => .rz
  | 2 => .ru
  | _ => .rd

/-- Bits of a number. -/
def bitLen (n : Nat) : Nat := if n = 0 then 0 else Nat.log2 n + 1

/-- 2 to a power that may be negative counts as a shift: m × 2^d for d ≥ 0, else ⌊m ÷ 2^−d⌋. -/
def shiftInt (m : Nat) (d : Int) : Nat :=
  match d with
  | .ofNat n => m * 2 ^ n
  | .negSucc n => m / 2 ^ (n + 1)

/-- Whether rounding a magnitude goes up: the kept part, the part dropped out of `unit`, the mode and
the sign (R67). -/
def roundsUp (mode : Round) (neg : Bool) (q rem unit : Nat) : Bool :=
  match mode with
  | .rne => decide (unit < 2 * rem) || (decide (2 * rem = unit) && q % 2 == 1)
  | .rz => false
  | .ru => !neg && rem != 0
  | .rd => neg && rem != 0

/-- The magnitude m × 2^e rounded to a precision of `p` bits and no lower than exponent `emin`:
significand and exponent, the exponent range unbounded above. -/
def roundMag (mode : Round) (neg : Bool) (p : Nat) (emin : Int) (m : Nat) (e : Int) : Nat × Int :=
  let q := max (e + bitLen m - p) emin
  if q ≤ e then (shiftInt m (e - q), q)
  else
    let d := (q - e).toNat
    let r := m / 2 ^ d + (if roundsUp mode neg (m / 2 ^ d) (m % 2 ^ d) (2 ^ d) then 1 else 0)
    if r = 2 ^ p then (2 ^ (p - 1), q + 1) else (r, q)

/-- The pattern of a rounded magnitude that is in range. -/
def Fmt.pack (f : Fmt) (r : Nat) (q : Int) : Nat :=
  if r < 2 ^ f.fbits then r else (q - f.emin).toNat * 2 ^ f.fbits + r

/-- The rounded magnitude lies beyond the format's largest finite value. -/
def Fmt.overflows (f : Fmt) (r : Nat) (q : Int) : Bool :=
  decide (2 ^ f.fbits ≤ r) &&
  decide (f.maxBits < (q - f.emin).toNat * 2 ^ f.fbits + r)

/-- Rounds the nonzero magnitude m × 2^e into a format with infinities (R67). -/
def Fmt.round (f : Fmt) (mode : Round) (neg : Bool) (m : Nat) (e : Int) : Nat :=
  let (r, q) := roundMag mode neg (f.fbits + 1) f.emin m e
  f.sign neg +
    if f.overflows r q then
      match mode, neg with
      | .rne, _ => f.infBits
      | .rz, _ => f.maxBits
      | .ru, false => f.infBits
      | .ru, true => f.maxBits
      | .rd, true => f.infBits
      | .rd, false => f.maxBits
    else f.pack r q

/-- The pattern of a value in a format with infinities, in a mode (R67, R68). -/
def Fmt.encode (f : Fmt) (mode : Round) : Fp → Nat
  | .nan => f.nanBits
  | .inf neg => f.sign neg + f.infBits
  | .fin neg m e => if m = 0 then f.sign neg else f.round mode neg m e

/-! ### Exact sums and products (R66, R68) -/

/-- A product, exact (R66, R68). -/
def Fp.mul : Fp → Fp → Fp
  | .nan, _ => .nan
  | _, .nan => .nan
  | .inf s, .inf t => .inf (s != t)
  | .inf s, .fin t m _ => if m = 0 then .nan else .inf (s != t)
  | .fin s m _, .inf t => if m = 0 then .nan else .inf (s != t)
  | .fin s m e, .fin t n g => .fin (s != t) (m * n) (e + g)

/-- The value with its sign turned. -/
def Fp.neg : Fp → Fp
  | .nan => .nan
  | .inf s => .inf (!s)
  | .fin s m e => .fin (!s) m e

/-- The value without its sign. -/
def Fp.abs : Fp → Fp
  | .nan => .nan
  | .inf _ => .inf false
  | .fin _ m e => .fin false m e

/-- The value is a NaN. -/
def Fp.isNan : Fp → Bool
  | .nan => true
  | _ => false

/-- The value is an infinity of a sign. -/
def Fp.isInf (neg : Bool) : Fp → Bool
  | .inf s => s == neg
  | _ => false

/-- The value is a zero of a sign. -/
def Fp.isZero (neg : Bool) : Fp → Bool
  | .fin s m _ => s == neg && m == 0
  | _ => false

/-- The least exponent of a list of values. -/
def minExp : List Fp → Int → Int
  | [], e => e
  | .fin _ m g :: rest, e => minExp rest (if m = 0 then e else min g e)
  | _ :: rest, e => minExp rest e

/-- The exact sum of the finite values, in units of 2^e. -/
def sumAt (e : Int) : List Fp → Int
  | [] => 0
  | .fin s m g :: rest =>
    (if m = 0 then 0 else if s then -(shiftInt m (g - e) : Int) else (shiftInt m (g - e) : Int)) +
      sumAt e rest
  | _ :: rest => sumAt e rest

/-- The exact sum of a list of terms (R66, R68): an exact zero from terms that are all zeros of one
sign keeps that sign, and is otherwise −0 in RD and +0 in the other modes. -/
def fpSum (mode : Round) (ts : List Fp) : Fp :=
  if ts.any Fp.isNan then .nan
  else if ts.any (Fp.isInf false) then
    if ts.any (Fp.isInf true) then .nan else .inf false
  else if ts.any (Fp.isInf true) then .inf true
  else if ts.all (Fp.isZero false) then .fin false 0 0
  else if ts.all (Fp.isZero true) then .fin true 0 0
  else
    let e := minExp ts 4096
    let v := sumAt e ts
    if v = 0 then .fin (mode == .rd) 0 0 else .fin (decide (v < 0)) v.natAbs e

/-- An integer as an exact value. -/
def Fp.ofInt (v : Int) : Fp := .fin (decide (v < 0)) v.natAbs 0

/-! ### FP32 operations (R143 to R153) -/

/-- The FP32 value of a register. -/
def f32 (w : Word32) : Fp := fp32.decode w.toNat

/-- RN(x): an exact value rounded once to FP32 (R67). -/
def rn (mode : Round) (x : Fp) : Word32 := BitVec.ofNat 32 (fp32.encode mode x)

/-- FADD (R143). -/
def fAdd (mode : Round) (a b : Word32) : Word32 := rn mode (fpSum mode [f32 a, f32 b])

/-- FSUB (R143). -/
def fSub (mode : Round) (a b : Word32) : Word32 := rn mode (fpSum mode [f32 a, (f32 b).neg])

/-- FMUL (R143). -/
def fMul (mode : Round) (a b : Word32) : Word32 := rn mode ((f32 a).mul (f32 b))

/-- FFMA: one rounding of a × b + c (R143). -/
def fFma (mode : Round) (a b c : Word32) : Word32 :=
  rn mode (fpSum mode [(f32 a).mul (f32 b), f32 c])

/-- A quotient as a magnitude with a last bit that stands for what is dropped. -/
def divMag (m n : Nat) (e g : Int) : Nat × Int :=
  let k := 80 + bitLen n
  let q := m * 2 ^ k / n
  (2 * q + (if m * 2 ^ k % n = 0 then 0 else 1), e - g - k - 1)

/-- The quotient of two values, ready for one rounding (R143, R66). -/
def Fp.div : Fp → Fp → Fp
  | .nan, _ => .nan
  | _, .nan => .nan
  | .inf _, .inf _ => .nan
  | .inf s, .fin t _ _ => .inf (s != t)
  | .fin s _ _, .inf t => .fin (s != t) 0 0
  | .fin s m e, .fin t n g =>
    if n = 0 then
      if m = 0 then .nan else .inf (s != t)
    else if m = 0 then .fin (s != t) 0 0
    else
      let (q, h) := divMag m n e g
      .fin (s != t) q h

/-- FDIV (R143). -/
def fDiv (mode : Round) (a b : Word32) : Word32 := rn mode ((f32 a).div (f32 b))

/-- FRCP: 1 ÷ x (R147). -/
def fRcp (mode : Round) (a : Word32) : Word32 := rn mode ((Fp.fin false 1 0).div (f32 a))

/-- ⌊√n⌋ by its bits, from bit `k` − 1 down. -/
def isqrtBits (n : Nat) : Nat → Nat → Nat
  | 0, acc => acc
  | k + 1, acc =>
    isqrtBits n k (if (acc + 2 ^ k) * (acc + 2 ^ k) ≤ n then acc + 2 ^ k else acc)

/-- ⌊√n⌋. -/
def isqrt (n : Nat) : Nat := isqrtBits n ((bitLen n + 1) / 2 + 1) 0

/-- A magnitude with an even exponent. -/
def evenExp (m : Nat) (e : Int) : Nat × Int := if e % 2 = 0 then (m, e) else (2 * m, e - 1)

/-- FSQRT (R147). -/
def fSqrt (mode : Round) (a : Word32) : Word32 :=
  rn mode (match f32 a with
    | .nan => .nan
    | .inf neg => if neg then .nan else .inf false
    | .fin neg m e =>
      if m = 0 then .fin neg 0 0
      else if neg then .nan
      else
        let (m, e) := evenExp m e
        let v := m * 2 ^ 128
        let r := isqrt v
        .fin false (2 * r + (if r * r = v then 0 else 1)) (e / 2 - 65))

/-- FRSQ: 1 ÷ √x (R147). -/
def fRsq (mode : Round) (a : Word32) : Word32 :=
  rn mode (match f32 a with
    | .nan => .nan
    | .inf neg => if neg then .nan else .fin false 0 0
    | .fin neg m e =>
      if m = 0 then .inf neg
      else if neg then .nan
      else
        let (m, e) := evenExp m e
        let k := 80 + bitLen m
        let r := isqrt (2 ^ (2 * k) / m)
        .fin false (2 * r + (if r * r * m = 2 ^ (2 * k) then 0 else 1)) (-(e / 2) - k - 1))

/-- Bits of the fixed-point numbers of FEX2 and FLG2. -/
def fixBits : Nat := 320

/-- Σ z^(2i+1) ÷ (2i+1): the first terms of artanh z, z in fixed point, `z2` its square. -/
def artanhTerms (z2 : Nat) : Nat → Nat → Nat → Nat
  | 0, _, _ => 0
  | fuel + 1, pow, i => pow / (2 * i + 1) + artanhTerms z2 fuel (pow * z2 / 2 ^ fixBits) (i + 1)

/-- artanh of a fixed-point number of at most 1 ÷ 3. -/
def artanhFix (z : Nat) : Nat := artanhTerms (z * z / 2 ^ fixBits) 110 z 0

/-- ln 2 = 2 artanh(1 ÷ 3), in fixed point. -/
def ln2Fix : Nat := 2 * artanhFix (2 ^ fixBits / 3)

/-- The first terms of exp y, y in fixed point. -/
def expTerms (y : Nat) : Nat → Nat → Nat → Nat
  | 0, _, _ => 0
  | fuel + 1, term, i => term + expTerms y fuel (term * y / 2 ^ fixBits / (i + 1)) (i + 1)

/-- FEX2: 2^x (R147). An integral x gives 2^x exactly; otherwise 2^x is irrational and its fixed-point
value of 320 bits with a last bit that stands for the rest is rounded once. -/
def fEx2 (mode : Round) (a : Word32) : Word32 :=
  rn mode (match f32 a with
    | .nan => .nan
    | .inf neg => if neg then .fin false 0 0 else .inf false
    | .fin neg m e =>
      let whole := shiftInt m e
      let exact := decide (0 ≤ e) || m % 2 ^ (-e).toNat == 0
      if decide (1000 ≤ whole) then .fin false 1 (if neg then -1000 else 1000)
      else if exact then .fin false 1 (if neg then -(whole : Int) else whole)
      else
        let frac := m % 2 ^ (-e).toNat
        let d := (-e).toNat
        let n : Int := if neg then -(whole : Int) - 1 else whole
        let f := if neg then 2 ^ d - frac else frac
        let y := f * 2 ^ fixBits / 2 ^ d * ln2Fix / 2 ^ fixBits
        .fin false (2 * expTerms y 90 (2 ^ fixBits) 0 + 1) (n - fixBits - 1))

/-- FLG2: log2 x (R147). A power of two gives its exponent exactly; otherwise log2 x is irrational. -/
def fLg2 (mode : Round) (a : Word32) : Word32 :=
  rn mode (match f32 a with
    | .nan => .nan
    | .inf neg => if neg then .nan else .inf false
    | .fin neg m e =>
      if m = 0 then .inf true
      else if neg then .nan
      else
        let l := bitLen m - 1
        let n : Int := e + l
        if m = 2 ^ l then Fp.ofInt n
        else
          let z := (m - 2 ^ l) * 2 ^ fixBits / (m + 2 ^ l)
          let lg := 2 * artanhFix z * 2 ^ fixBits / ln2Fix
          let v : Int := n * (2 ^ fixBits : Nat) + lg
          .fin (decide (v < 0)) (2 * v.natAbs + 1) (-(fixBits : Int) - 1))

/-- FSCL: va × 2^sx(vb) with one rounding (R148). An exponent beyond ±1,000 gives the same result as
±1,000. -/
def fScl (mode : Round) (a b : Word32) : Word32 :=
  rn mode (match f32 a with
    | .fin neg m e => .fin neg m (e + max (-1000) (min 1000 b.toInt))
    | x => x)

/-- FFRC: va − trunc(va), with the sign of va (R148). -/
def fFrc (a : Word32) : Word32 :=
  rn .rne (match f32 a with
    | .fin neg m e => if 0 ≤ e then .fin neg 0 0 else .fin neg (m % 2 ^ (-e).toNat) e
    | _ => .nan)

/-! ### Compares, minimum and maximum (R144, R145) -/

/-- a < b for two values that are not NaN. -/
def fpLt (a b : Fp) : Bool :=
  match a, b with
  | .nan, _ => false
  | _, .nan => false
  | .inf s, .inf t => s && !t
  | .inf s, .fin _ _ _ => s
  | .fin _ _ _, .inf t => !t
  | x, y => decide (sumAt (minExp [x, y] 4096) [x] < sumAt (minExp [x, y] 4096) [y])

/-- a = b for two values, +0 equal to −0. -/
def fpEq (a b : Fp) : Bool := !a.isNan && !b.isNan && !fpLt a b && !fpLt b a

/-- FMIN and FMAX on patterns of a format (R144): `max` chooses the larger, and +0 over −0. -/
def minMax (f : Fmt) (max_ : Bool) (a b : Nat) : Nat :=
  let x := f.decode a
  let y := f.decode b
  if x.isNan then if y.isNan then f.nanBits else b
  else if y.isNan then a
  else if fpLt x y then if max_ then b else a
  else if fpLt y x then if max_ then a else b
  else if x.isZero true then if max_ then b else a
  else if y.isZero true then if max_ then a else b
  else a

/-- FMIN (R144). -/
def fMin (a b : Word32) : Word32 := BitVec.ofNat 32 (minMax fp32 false a.toNat b.toNat)
/-- FMAX (R144). -/
def fMax (a b : Word32) : Word32 := BitVec.ofNat 32 (minMax fp32 true a.toNat b.toNat)

/-! ### BF16 (R64, R146) -/

/-- Element 0 or 1 of a BF16x2 word. -/
def bfElem (w : Word32) (i : Nat) : Nat := w.toNat / 2 ^ (16 * i) % 65536

/-- RNBF16(x). -/
def rnBf16 (x : Fp) : Nat := bf16.encode .rne x

/-- A BF16x2 word from its elements. -/
def bfPack (lo hi : Nat) : Word32 := BitVec.ofNat 32 (lo + 65536 * hi)

/-- An operation on both elements, each for itself (R64). -/
def bf2 (f : Nat → Nat → Nat → Nat) (a b c : Word32) : Word32 :=
  bfPack (f (bfElem a 0) (bfElem b 0) (bfElem c 0)) (f (bfElem a 1) (bfElem b 1) (bfElem c 1))

/-- HADD2 on one element (R146). -/
def hAdd (a b : Nat) : Nat := rnBf16 (fpSum .rne [bf16.decode a, bf16.decode b])
/-- HMUL2 on one element (R146). -/
def hMul (a b : Nat) : Nat := rnBf16 ((bf16.decode a).mul (bf16.decode b))
/-- HFMA2 on one element (R146). -/
def hFma (a b c : Nat) : Nat :=
  rnBf16 (fpSum .rne [(bf16.decode a).mul (bf16.decode b), bf16.decode c])

/-! ### Conversions (R69, R70, R149 to R152) -/

/-- A finite value truncated toward zero. -/
def truncMag (m : Nat) (e : Int) : Nat := shiftInt m e

/-- CVT.S32.F32 (R70): toward zero, saturating, NaN gives 0. -/
def cvtS32 (a : Word32) : Word32 :=
  match f32 a with
  | .nan => 0
  | .inf neg => if neg then 0x8000_0000 else 0x7FFF_FFFF
  | .fin neg m e =>
    let t := truncMag m (min e 64)
    if neg then BitVec.ofInt 32 (max (-(t : Int)) (-(2 ^ 31)))
    else BitVec.ofInt 32 (min (t : Int) (2 ^ 31 - 1))

/-- RNE8 into an FP8 format: rounding is decided before saturation (R69). -/
def rne8 (f : Fmt) (sat : Bool) (x : Fp) : Nat :=
  match x with
  | .nan => f.nanBits
  | .inf neg =>
    if f.hasInf then f.sign neg + f.infBits
    else if sat then f.sign neg + f.maxBits
    else f.nanBits
  | .fin neg m e =>
    if m = 0 then f.sign neg
    else
      let (r, q) := roundMag .rne neg (f.fbits + 1) f.emin m e
      if f.overflows r q then
        if sat then f.sign neg + f.maxBits
        else if f.hasInf then f.sign neg + f.infBits
        else f.nanBits
      else f.sign neg + f.pack r q

/-- Replaces byte k of a word. -/
def setByte (w : Word32) (k : Nat) (b : Nat) : Word32 :=
  (w &&& ~~~(BitVec.ofNat 32 (255 * 2 ^ (8 * k)))) ||| BitVec.ofNat 32 (b % 256 * 2 ^ (8 * k))

/-- Byte k of a word. -/
def getByte (w : Word32) (k : Nat) : Nat := w.toNat / 2 ^ (8 * k) % 256

/-- A magnitude rounded to an integer in a mode (R152). -/
def roundInt (mode : Round) (neg : Bool) (m : Nat) (e : Int) : Nat :=
  if 0 ≤ e then shiftInt m (min e 64)
  else
    let d := (min (-e) 600).toNat
    m / 2 ^ d + (if roundsUp mode neg (m / 2 ^ d) (m % 2 ^ d) (2 ^ d) then 1 else 0)

/-- QNT8's quantisation of the exact product (R152): an INT8 byte. -/
def quant8 (mode : Round) (x : Fp) : Nat :=
  match x with
  | .nan => 0
  | .inf neg => if neg then 129 else 127
  | .fin neg m e =>
    let q := min (roundInt mode neg m e) 127
    if neg then (256 - q) % 256 else q

/-- The signed byte k of a word. -/
def sByte (w : Word32) (k : Nat) : Int := (BitVec.ofNat 8 (getByte w k)).toInt

/-- DP4 (R153). -/
def dp4 (a b d : Word32) : Word32 :=
  d + BitVec.ofInt 32 (sByte a 0 * sByte b 0 + sByte a 1 * sByte b 1 + sByte a 2 * sByte b 2 +
    sByte a 3 * sByte b 3)

/-- DP4U (R153). -/
def dp4u (a b d : Word32) : Word32 :=
  d + BitVec.ofNat 32 (getByte a 0 * getByte b 0 + getByte a 1 * getByte b 1 +
    getByte a 2 * getByte b 2 + getByte a 3 * getByte b 3)

/-- DP2H (R153): one rounding of the exact sum. -/
def dp2h (mode : Round) (a b d : Word32) : Word32 :=
  rn mode (fpSum mode [(bf16.decode (bfElem a 0)).mul (bf16.decode (bfElem b 0)),
    (bf16.decode (bfElem a 1)).mul (bf16.decode (bfElem b 1)), f32 d])

/-! ### Ternary digits (R71, R72, R154 to R157) -/

/-- The 2-bit code of a digit (R72). -/
def digitCode (d : Int) : Nat := if d = 0 then 0 else if 0 < d then 1 else 3

/-- The digit of a code, a code 0b10 counting as 0 (R155). -/
def codeDigit (c : Nat) : Int :=
  match c % 4 with
  | 1 => 1
  | 3 => -1
  | _ => 0

/-- Code i of a register (R72). -/
def codeAt (w : Word32) (i : Nat) : Nat := w.toNat / 4 ^ i % 4

/-- Digit i of a T5 byte (R71). -/
def t5Digit (b i : Nat) : Int := (b / 3 ^ i % 3 : Nat) - 1

/-- The digit of TRN.Q (R154). -/
def ternQuant (a b : Word32) : Int :=
  let x := f32 a
  let th := (f32 b).abs
  if x.isNan || th.isNan then 0
  else if fpLt th x then 1
  else if fpLt x th.neg then -1
  else 0

/-- TRN.Q (R154): digit code p of vd. -/
def trnQ (a b d : Word32) (p : Nat) : Word32 :=
  (d &&& ~~~(BitVec.ofNat 32 (3 * 4 ^ p))) ||| BitVec.ofNat 32 (digitCode (ternQuant a b) * 4 ^ p)

/-- The T5 byte of five codes from code `i` on (R155). -/
def t5Of (w : Word32) (i : Nat) : Nat :=
  (natRange 0 5).foldl (fun n j => n + (codeDigit (codeAt w (i + j)) + 1).toNat * 3 ^ j) 0

/-- TRN.PK (R155). -/
def trnPk (a : Word32) : Word32 :=
  BitVec.ofNat 32 (t5Of a 0 + 256 * t5Of a 5 + 65536 * t5Of a 10)

/-- TRN.UP (R155) of a word whose bytes 0 to 2 are legal. -/
def trnUp (a : Word32) : Word32 :=
  BitVec.ofNat 32 ((natRange 0 15).foldl (fun n i =>
    n + digitCode (t5Digit (getByte a (i / 5)) (i % 5)) * 4 ^ i) 0)

/-- One of bytes 0 to 2 is an illegal T5 code (R155). -/
def trnUpIllegal (a : Word32) : Bool := (natRange 0 3).any (fun j => decide (242 < getByte a j))

/-- TRN.CHK4 and TRN.Z4: bit j tells of byte j (R157). -/
def byteTest (a : Word32) (f : Nat → Bool) : Word32 :=
  BitVec.ofNat 32 ((natRange 0 4).foldl (fun n j => n + if f (getByte a j) then 2 ^ j else 0) 0)

/-! ### Integer operations (R121 to R128) -/

/-- The signed minimum or maximum. -/
def sMin (a b : Word32) : Word32 := if a.slt b then a else b
/-- The signed maximum. -/
def sMax (a b : Word32) : Word32 := if a.slt b then b else a
/-- The unsigned minimum. -/
def uMin (a b : Word32) : Word32 := if a.ult b then a else b
/-- The unsigned maximum. -/
def uMax (a b : Word32) : Word32 := if a.ult b then b else a

/-- ADDSAT (R121). -/
def addSat (a b : Word32) : Word32 :=
  BitVec.ofInt 32 (max (-(2 ^ 31)) (min (2 ^ 31 - 1) (a.toInt + b.toInt)))

/-- ABSD (R121). -/
def absDiff (a b : Word32) : Word32 := BitVec.ofNat 32 (a.toInt - b.toInt).natAbs

/-- DIV and REM (R62, R123): quotient and remainder, signed. -/
def divRem (a b : Word32) : Word32 × Word32 :=
  if b = 0 then (0xFFFF_FFFF, a)
  else if a = 0x8000_0000 ∧ b = 0xFFFF_FFFF then (0x8000_0000, 0)
  else (BitVec.ofInt 32 (a.toInt.tdiv b.toInt), BitVec.ofInt 32 (a.toInt.tmod b.toInt))

/-- DIVU and REMU (R62, R123). -/
def divRemU (a b : Word32) : Word32 × Word32 :=
  if b = 0 then (0xFFFF_FFFF, a) else (BitVec.ofNat 32 (a.toNat / b.toNat), BitVec.ofNat 32 (a.toNat % b.toNat))

/-- MULHI (R123). -/
def mulHi (a b : Word32) : Word32 := (BitVec.ofInt 64 (a.toInt * b.toInt)).extractLsb' 32 32

/-- MULHIU (R123). -/
def mulHiU (a b : Word32) : Word32 := BitVec.ofNat 32 (a.toNat * b.toNat / 2 ^ 32)

/-- The shifts by the low five bits of the amount (R121): SHL, SHR, SAR, ROR. -/
def shl32 (a : Word32) (n : Nat) : Word32 := a <<< (n % 32)
/-- SHR (R121). -/
def shr32 (a : Word32) (n : Nat) : Word32 := a >>> (n % 32)
/-- SAR (R121). -/
def sar32 (a : Word32) (n : Nat) : Word32 := a.sshiftRight (n % 32)
/-- ROR (R121). -/
def ror32 (a : Word32) (n : Nat) : Word32 := a.rotateRight (n % 32)

/-- Position and length of a bit field (R127). -/
def bfPos (b : Word32) : Nat := b.toNat % 32
/-- Length of a bit field (R127). -/
def bfLen (b : Word32) : Nat := b.toNat / 256 % 32

/-- The extracted field (R127). -/
def bfField (a b : Word32) : Nat := a.toNat / 2 ^ bfPos b % 2 ^ bfLen b

/-- BFX (R127). -/
def bfx (a b : Word32) : Word32 :=
  let f := bfField a b
  let l := bfLen b
  if l = 0 then 0 else if f < 2 ^ (l - 1) then BitVec.ofNat 32 f
  else BitVec.ofInt 32 ((f : Int) - 2 ^ l)

/-- BFI (R127). -/
def bfi (a b d : Word32) : Word32 :=
  let m := BitVec.ofNat 32 ((2 ^ bfLen b - 1) * 2 ^ bfPos b)
  (d &&& ~~~m) ||| BitVec.ofNat 32 (a.toNat % 2 ^ bfLen b * 2 ^ bfPos b)

/-- One byte of PRMB (R128). -/
def prmbByte (a b : Word32) (sel : Nat) : Nat :=
  let v := if sel % 8 < 4 then getByte a (sel % 8) else getByte b (sel % 8 - 4)
  if 8 ≤ sel then (if 128 ≤ v then 255 else 0) else v

/-- PRMB (R128). -/
def prmb (a b c : Word32) : Word32 :=
  BitVec.ofNat 32 ((natRange 0 4).foldl (fun n i =>
    n + prmbByte a b (c.toNat / 16 ^ i % 16) * 256 ^ i) 0)

end Sys2Proof.Machine
end

