-- ==== Sys2Proof/Machine/Complete.lean ====
section
/-! DEFINITION. The events that perform what memory instructions have put under way: loads, stores,
fences, atomics, row instructions, fills, probes and evictions (R164 to R180, R257 to R262, R271, R274),
and the reads that fill a register later (R48, R208, R241). -/

namespace Sys2Proof.Machine

/-- An event that performs one operation: nothing happens while the operation is not under way or must
still follow another. -/
def State.perform (s : State) (id : Nat) (f : State → MemOp → State) : State :=
  match s.opById id with
  | some o => if s.opReady o then f s o else s
  | none => s

/-! ### Where bytes stand -/

/-- Bytes of a block's scratch: Larder scratch, or core scratch. -/
def State.scratchRead (s : State) (b : Nat) (core : Bool) (o n : Nat) : List Byte :=
  match s.blocks.find b with
  | some x => Memory.readBytes (if core then x.cmem else x.lmem) o n
  | none => Memory.readBytes [] o n

/-- Writes bytes of a block's Larder scratch; a bank that is not in SCRATCH mode keeps nothing
(R241). -/
def Block.writeLarder (x : Block) (c : Cluster) (o : Nat) (data : List Byte) : Block :=
  { x with lmem := data.zipIdx.foldl (fun m p =>
      if c.bankMode (x.bankOf (o + p.2)) == 1 then m.write (o + p.2) p.1 else m) x.lmem }

/-- Writes bytes of a block's scratch. -/
def State.scratchWrite (s : State) (b : Nat) (core : Bool) (o : Nat) (data : List Byte) : State :=
  s.modBlock b (fun x =>
    if core then { x with cmem := x.cmem.writeBytes o data }
    else x.writeLarder (s.cluster x.cluster) o data)

/-- The site where an access ends: at home once the cluster has no CACHE-mode bank (R260). -/
def State.siteNow (s : State) (o : MemOp) (site : Site) : Site :=
  if site == .larder && !(s.cluster o.cluster).hasCache then .home else site

/-- Before an access at home, the issuing cluster's own dirty bytes of the range reach it (R165). -/
def State.flushOwn (s : State) (o : MemOp) (site : Site) (a n : Nat) : State :=
  match s.siteNow o site with
  | .home => s.writeBack o.cluster (fun x => decide (a ≤ x) && decide (x < a + n))
  | _ => s

/-- A byte that a Larder read returns is poisoned: it came poisoned and has not been written since (R16, R164). -/
def Cluster.cachePoisoned (c : Cluster) (a n : Nat) : Bool :=
  c.tainted.any (fun x => decide (a ≤ x) && decide (x < a + n) && (c.cache.find x).isSome)

/-- Bytes of a range are written or leave: what stands there afterwards does not come poisoned. -/
def Cluster.untaint (c : Cluster) (a n : Nat) : Cluster :=
  { c with tainted := c.tainted.filter (fun x => !(decide (a ≤ x) && decide (x < a + n))) }

/-- The bytes of a range of the Larder. -/
def Cluster.cacheRead (c : Cluster) (a n : Nat) : List Byte :=
  (natRange a n).map (fun x => (c.cache.getD x (Memory.unlisted, false)).1)

/-- What a read at a site returns, and whether it is poisoned; nothing while the Larder lacks bytes. -/
def State.siteRead (s : State) (o : MemOp) (site : Site) (a n : Nat) : Option (List Byte × Bool) :=
  match s.siteNow o site with
  | .larder =>
    if (s.cluster o.cluster).holdsAll a n then
      some ((s.cluster o.cluster).cacheRead a n, (s.cluster o.cluster).cachePoisoned a n)
    else none
  | .larderScratch => some (s.scratchRead o.block false a n, false)
  | .coreScratch => some (s.scratchRead o.block true a n, false)
  | _ => some (s.homeRead a n, s.homePoisoned a n)

/-- Sets bytes of a Larder. -/
def Cluster.cacheWrite (c : Cluster) (a : Nat) (dirty : Bool) (data : List Byte) : Cluster :=
  { c.untaint a data.length with cache := data.zipIdx.foldl (fun m p => m.set (a + p.2) (p.1, dirty)) c.cache }

/-- Updates the bytes of a range of which a Larder holds a copy (R166, R236). -/
def Cluster.cacheUpdate (c : Cluster) (a : Nat) (data : List Byte) : Cluster :=
  { c.untaint a data.length with cache := data.zipIdx.foldl (fun m p =>
      if (m.find (a + p.2)).isSome then m.set (a + p.2) (p.1, false) else m) c.cache }

/-- A write at home, with the bytes that the issuing cluster holds (R166, R236). -/
def State.writeAtHome (s : State) (cl a : Nat) (data : List Byte) : State :=
  ((s.homeWrite a data).modCluster cl (fun c => c.cacheUpdate a data)).staleFills cl
    (fun x => decide (a ≤ x) && decide (x < a + data.length))

/-- A write at a site. -/
def State.siteWrite (s : State) (o : MemOp) (site : Site) (a : Nat) (data : List Byte) : State :=
  match s.siteNow o site with
  | .larder => s.modCluster o.cluster (fun c => c.cacheWrite a true data)
  | .larderScratch => s.scratchWrite o.block false a data
  | .coreScratch => s.scratchWrite o.block true a data
  | _ => s.writeAtHome o.cluster a data

/-! ### Loads -/

/-- The registers of a loaded value (R165). -/
def loadWords (signed : Bool) (data : List Byte) : List Word32 :=
  match data with
  | [a] => [if signed then a.signExtend 32 else a.setWidth 32]
  | [a, b] => [if signed then (b ++ a).signExtend 32 else (b ++ a).setWidth 32]
  | d => wordsOf d

/-- A load is performed, or asks for the sectors that it still lacks (R165, R166, R260). -/
def State.completeLoad (s : State) (o : MemOp) : State :=
  match o.act with
  | .captured d v => (s.retireOp o.id).fillDest d false [v]
  | .load .hostWindow a n signed d _ =>
    (((s.hostRequest o.tenant a none n .none).drawnN n).retireOp o.id).fillDest d false
      (loadWords signed (s.freeBytes n))
  | .load site a n signed d ro =>
    let s1 := s.flushOwn o site a n
    match s1.siteRead o site a n with
    | none => s1.requestFills o.cluster o.tenant a n ro
    | some (data, p) => (s1.retireOp o.id).fillDest d p (loadWords signed data)
  | _ => s

/-- LOAD_COMPLETE (R48, R165). -/
def execLoadComplete (id : Nat) (s : State) : Host.Outcome State Fault Refusal :=
  .next (s.perform id State.completeLoad)

/-- A register that was read at issue is filled (R48, R129, R211). -/
def State.completeCaptured (s : State) (o : MemOp) : State :=
  match o.act with
  | .captured d v => (s.retireOp o.id).fillDest d false [v]
  | _ => s

/-- HATCH_READ_COMPLETE (R48, R119). -/
def execHatchReadComplete (id : Nat) (s : State) : Host.Outcome State Fault Refusal :=
  .next (s.perform id State.completeCaptured)

/-! ### Stores, fences and cache maintenance -/

/-- The cache actions of a fence (R170): at CLUSTER scope or wider, rel and full write the dirty global lines
back, and acq and full then drop the clean bytes of every line that is not private, and the row copies. -/
def State.fenceActs (s : State) (cl kind scope : Nat) : State :=
  if scope < 3 then s
  else
    let s1 := if kind = 1 then s else s.writeBackGlobal cl
    if kind = 2 then s1
    else (s1.modCluster cl (fun c =>
      { c with cache := c.cache.filter (fun p => p.2.2 || inPool p.1), rows := [] })).staleFills cl (fun x => !inPool x)

/-- The range of a row copy meets a line. -/
def RowCopy.onLine (r : RowCopy) (line : Nat) : Bool :=
  decide (r.row.pa < line / 128 * 128 + 128) && decide (line / 128 * 128 < r.row.pa + 2 ^ r.row.k)

/-- A cluster loses a line: dirty bytes reach home, then the line and the row copies on it go (R177,
R180, R260). -/
def State.loseLine (s : State) (cl line : Nat) : State :=
  ((s.writeBack cl (inLine line)).dropBytes cl (inLine line)).modCluster cl (fun c =>
    { c with rows := c.rows.filter (fun r => !r.onLine line) })

/-- One part of a store's access has been performed: the others have begun with it. -/
def State.beginAccess (s : State) (o : MemOp) : State :=
  { s with inflight := s.inflight.map (fun q =>
      if q.slot == o.slot && q.members == o.members then { q with begun := true } else q) }

/-- A store, a fence, a WBL or an INVL is performed (R165, R166, R170, R180). A write to the host window is posted; once
the bridge has performed it, its zero-length read follows, with which it is complete (R326, R333). -/
def State.completeStore (s : State) (o : MemOp) : State :=
  match o.act with
  | .store .hostWindow a data =>
    ((s.hostRequest o.tenant a (some data) 0 (.write o.id)).turnOp o.id (.hostFlush a)).beginAccess o
  | .hostFlush a =>
    if s.tagPending (.write o.id) then s
    else (s.hostRequest o.tenant a none 0 (.write o.id)).turnOp o.id (.hostWait a)
  | .hostWait _ => if s.tagPending (.write o.id) then s else (s.retireOp o.id).hostDone o.id
  | .store site a data => ((s.siteWrite o site a data).retireOp o.id).beginAccess o
  | .fence kind scope => (s.fenceActs o.cluster kind scope).retireOp o.id
  | .writeBack line => (s.writeBack o.cluster (inLine line)).retireOp o.id
  | .invalidate line =>
    (((s.loseLine o.cluster line).dropFetched o.cluster line).staleFills o.cluster (inLine line)).retireOp o.id
  | _ => s

/-- STORE_PERFORMED (R166, R170, R180, R257). -/
def execStorePerformed (id : Nat) (s : State) : Host.Outcome State Fault Refusal :=
  .next (s.perform id State.completeStore)

/-- LINE_EVICTION (R260, R271). -/
def execLineEviction (cluster line : Nat) (s : State) : Host.Outcome State Fault Refusal :=
  .next (s.loseLine cluster line)

/-! ### Atomics -/

/-- new of a 32-bit atomic (R172, R173). -/
def atom32 (op : Nat) (old x n : Word32) : Word32 :=
  match op with
  | 0 => old + x
  | 1 => old &&& x
  | 2 => old ||| x
  | 3 => old ^^^ x
  | 4 => sMin old x
  | 5 => sMax old x
  | 6 => uMin old x
  | 7 => uMax old x
  | 8 => x
  | 9 => if old = x then n else old
  | 10 => fAdd .rne old x
  | 11 => bfPack (hAdd (bfElem old 0) (bfElem x 0)) (hAdd (bfElem old 1) (bfElem x 1))
  | 12 => if x.toNat ≤ old.toNat then 0 else old + 1
  | 13 => if old = 0 ∨ x.toNat < old.toNat then x else old - 1
  | 14 => fMin old x
  | _ => fMax old x

/-- new of a 64-bit atomic (R172, R173). -/
def atom64 (op : Nat) (old x n : Word64) : Word64 :=
  match op with
  | 0 => old + x
  | 1 => old &&& x
  | 2 => old ||| x
  | 3 => old ^^^ x
  | 4 => if old.slt x then old else x
  | 5 => if old.slt x then x else old
  | 6 => if old.ult x then old else x
  | 7 => if old.ult x then x else old
  | 8 => x
  | 9 => if old = x then n else old
  | 12 => if x.toNat ≤ old.toNat then 0 else old + 1
  | 13 => if old = 0 ∨ x.toNat < old.toNat then x else old - 1
  | _ => old

/-- The bytes that an atomic writes for the bytes it reads; none for a CAS that fails (R173). -/
def atomBytes (wide : Bool) (op : Nat) (x n : Word64) (old : List Byte) : Option (List Byte) :=
  let v : Word64 := BitVec.ofNat 64 (leNat old)
  let lo := fun (w : Word64) => w.extractLsb' 0 32
  if op = 9 ∧ (if wide then v ≠ x else lo v ≠ lo x) then none
  else if wide then some (leBytes (atom64 op v x n).toNat 8)
  else some (leBytes (atom32 op (lo v) (lo x) (lo n)).toNat 4)

/-- Before an atomic at home or at the Hall the issuing cluster writes its dirty bytes of the line back
and drops its copy (R171). -/
def State.leaveLine (s : State) (o : MemOp) (site : Site) (a : Nat) : State :=
  match s.siteNow o site with
  | .home => (s.writeBack o.cluster (inLine a)).dropBytes o.cluster (inLine a)
  | .fabricUnit => (s.writeBack o.cluster (inLine a)).dropBytes o.cluster (inLine a)
  | _ => s

/-- What a read of several parts at a site returns. -/
def State.readParts (s : State) (o : MemOp) (site : Site) : List (Nat × Nat) → Option (List Byte × Bool)
  | [] => some ([], false)
  | (a, n) :: rest =>
    match s.siteRead o site a n, s.readParts o site rest with
    | some (x, p), some (y, q) => some (x ++ y, p || q)
    | _, _ => none

/-- A write of several parts at a site. -/
def State.writeParts (s : State) (o : MemOp) (site : Site) (data : List Byte) : List (Nat × Nat) → State
  | [] => s
  | (a, n) :: rest =>
    (s.siteWrite o site a (data.take n)).writeParts o site (data.drop n) rest

/-- What is left of an atomic that has read `old`: new is written, unless the bytes were poisoned (R164) or a CAS
fails, and old is returned (R172 to R174). -/
def State.endAtomic (s : State) (o : MemOp) (site : Site) (a : Nat) (wide : Bool) (op : Nat) (x n : Word64)
    (ret : Option Dest) (old : List Byte) (bad : Bool) : State :=
  let s1 :=
    if bad then s
    else
      match atomBytes wide op x n old with
      | some new => s.writeParts o site new (atomParts a wide)
      | none => s
  match ret with
  | some d => (s1.retireOp o.id).fillDest d bad (wordsOf old)
  | none => s1.retireOp o.id

/-- Another atomic that the Hall's fabric atomic unit has begun holds some of the bytes (R171). -/
def State.hallBusy (s : State) (a n : Nat) : Bool :=
  s.inflight.any (fun o =>
    match o.act with
    | .hallAtom x wide _ _ _ _ _ _ =>
      decide (a < x + (if wide then 8 else 4)) && decide (x < a + n)
    | _ => false)

/-- An atomic is performed in one step (R171 to R173); on poisoned bytes it leaves memory alone (R164). One of the
Hall's fabric atomic unit reads home's bytes and writes them by a second event, so that it is atomic only with the
unit's others (R171). -/
def State.completeAtomic (s : State) (o : MemOp) (site : Site) (a : Nat) (wide : Bool) (op : Nat)
    (x n : Word64) (ret : Option Dest) : State :=
  let s1 := s.leaveLine o site a
  match s1.readParts o site (atomParts a wide) with
  | none => s1.requestAtomic o.cluster o.tenant a wide false
  | some (old, p) =>
    match site with
    | .fabricUnit =>
      if s.hallBusy a (if wide then 8 else 4) then s else s1.turnOp o.id (.hallAtom a wide op x n ret old p)
    | _ => s1.endAtomic o site a wide op x n ret old p

/-- ATOMIC_COMPLETE (R164, R172). -/
def execAtomicComplete (id : Nat) (s : State) : Host.Outcome State Fault Refusal :=
  .next (s.perform id (fun s o =>
    match o.act with
    | .atom site a wide op x n (some d) => s.completeAtomic o site a wide op x n (some d)
    | .hallAtom a wide op x n (some d) old bad => s.endAtomic o .fabricUnit a wide op x n (some d) old bad
    | _ => s))

/-- RED_COMPLETE (R164, R174). -/
def execRedComplete (id : Nat) (s : State) : Host.Outcome State Fault Refusal :=
  .next (s.perform id (fun s o =>
    match o.act with
    | .atom site a wide op x n none => s.completeAtomic o site a wide op x n none
    | .hallAtom a wide op x n none old bad => s.endAtomic o .fabricUnit a wide op x n none old bad
    | _ => s))

/-! ### Rows -/

/-- A counter of a row-table entry saturates here (R272). -/
def countMax : Nat := 2 ^ 48 - 1

/-- Changes an entry of a tenant's row table. -/
def State.modRow (s : State) (t e : Nat) (f : RowEntry → RowEntry) : State :=
  s.modTenant t (fun x => { x with rows := x.rows.put RowEntry.reset e (f (x.rows.getD e RowEntry.reset)) })

/-- Counts a NEAR read (R178). -/
def State.countNear (s : State) (r : RowRef) : State :=
  s.modRow r.tenant r.entry (fun e => { e with near := Nat.min countMax (e.near + 1) })

/-- Bytes at home; poisoned ones are free values (assumption 35). -/
def State.homeBytes (s : State) (pa n : Nat) : List Byte :=
  (natRange pa n).map (fun a =>
    if s.poison.contains a then BitVec.ofNat 8 (Config.freeAt s.freeCtr a) else Memory.read s.mem a)

/-- The version of a row at home. -/
def State.rowVersion (s : State) (r : RowRef) : Word32 := BitVec.ofNat 32 (leNat (s.homeBytes r.ver 4))

/-- The stamp of a row at home: the row writes applied to it. -/
def State.rowStamp (s : State) (r : RowRef) : Nat := s.rowSeq.getD r.pa 0

/-- The image of a row at home. -/
def State.rowImage (s : State) (r : RowRef) : List Byte := s.homeBytes r.pa (2 ^ r.k)

/-- The newest version of a row that some threads have read or written. -/
def State.rowBound (s : State) (r : RowRef) (members : List Nat) : Nat :=
  members.foldl (fun n k =>
    match s.threads.find k with
    | some th => th.rowSeen.foldl (fun n p => if p.1 = r.pa then Nat.max n p.2 else n) n
    | none => n) 0

/-- Notes that threads have read or written a version of a row (R177). -/
def State.noteRow (s : State) (r : RowRef) (stamp : Nat) (members : List Nat) : State :=
  s.modThreads members (fun th =>
    { th with rowSeen := th.rowSeen.filter (fun p => p.1 != r.pa) ++ [(r.pa,
        th.rowSeen.foldl (fun n p => if p.1 = r.pa then Nat.max n p.2 else n) stamp)] })

/-- The addresses of a row's bytes and of its version word. -/
def RowRef.owns (r : RowRef) (a : Nat) : Bool :=
  (decide (r.pa ≤ a) && decide (a < r.pa + 2 ^ r.k)) || (decide (r.ver ≤ a) && decide (a < r.ver + 4))

/-- Reads a row at home in one step and installs the copy (R176, R177), once the cluster's own dirty bytes of it have
reached home (R165; assumption 133). -/
def State.readRowHome (s0 : State) (cl : Nat) (r : RowRef) : State × List Byte × Nat :=
  let s := s0.writeBack cl r.owns
  let image := s.rowImage r
  let copy : RowCopy := ⟨r, s.rowVersion r, s.rowStamp r, image⟩
  let s1 := if (s.cluster cl).hasCache then
      s.modCluster cl (fun c => { c with rows := c.rows.filter (fun x => x.row.pa != r.pa) ++ [copy] })
    else s
  (s1, image, copy.stamp)

/-- A probe of a read that a copy served goes home (R178). -/
def State.sendProbe (s : State) (cl : Nat) (r : RowRef) (served : Word32) : State :=
  let op : MemOp := ⟨s.freshId, 0, r.tenant, cl, 0, [], 0, .probe r served, [], false⟩
  { s.bumpId with inflight := s.inflight ++ [op] }

/-- The source of a NEAR read, by free choice among those that R177 allows: a copy in some Larder that is
not older than `bound`, or home. -/
def State.nearSource (s : State) (r : RowRef) (bound : Nat) : Option RowCopy :=
  let copies := s.clusters.flatMap (fun p =>
    p.2.rows.filter (fun x => x.row.pa == r.pa && x.row.k == r.k && decide (bound ≤ x.stamp)))
  copies[s.choice % (copies.length + 1)]?

/-- Reads a row near (R177, R178). -/
def State.readRowNear (s : State) (cl : Nat) (r : RowRef) (bound : Nat) : State × List Byte × Nat :=
  let s1 := s.drawn.countNear r
  match s.nearSource r bound with
  | some x => (s1.sendProbe cl r x.ver, x.image, x.stamp)
  | none => s1.readRowHome cl r

/-- A row load is performed: the local bytes are written and the entry is released (R176, R179). -/
def State.completeRowRead (s : State) (o : MemOp) (near : Bool) (r : RowRef) (loc : LocRef) : State :=
  let p := if near then s.readRowNear o.cluster r (s.rowBound r o.members)
    else s.readRowHome o.cluster r
  (((p.1.scratchWrite loc.block loc.core loc.off p.2.1).noteRow r p.2.2 o.members).dropRange o.cluster
    o.id).retireOp o.id

/-- ROW_READ_COMPLETE (R176, R179). -/
def execRowReadComplete (id : Nat) (s : State) : Host.Outcome State Fault Refusal :=
  .next (s.perform id (fun s o =>
    match o.act with
    | .rowRead near r loc => s.completeRowRead o near r loc
    | _ => s))

/-- Combines two byte lists element by element; the elements have `n` bytes. -/
def zipElems (n : Nat) (f : Nat → Nat → Nat) : Nat → List Byte → List Byte → List Byte
  | 0, _, _ => []
  | fuel + 1, a, b =>
    leBytes (f (leNat (a.take n)) (leNat (b.take n))) n ++
      zipElems n f fuel (a.drop n) (b.drop n)

/-- The new image of a row write (R176). -/
def rowNew (op : Nat) (row loc : List Byte) : List Byte :=
  match op with
  | 0 => loc
  | 1 => zipElems 2 hAdd (row.length / 2) row loc
  | 2 => zipElems 4 (fun a b => (fAdd .rne (BitVec.ofNat 32 a) (BitVec.ofNat 32 b)).toNat)
      (row.length / 4) row loc
  | _ => zipElems 2 (minMax bf16 true) (row.length / 2) row loc

/-- The version word of a row after one row write more (R176). -/
def State.rowNext (s : State) (r : RowRef) : List Byte := leBytes (s.rowVersion r + 1).toNat 4

/-- A row write is applied at home in one step and counts in the row's version (R176, R234, R274). The issuing Larder's
dirty bytes of the row and of its version word reach home first, and the bytes written are updated in its copies (R165,
R236; assumption 133). -/
def State.applyRowWrite (s : State) (cl op : Nat) (r : RowRef) (loc : List Byte) : State :=
  let s1 := s.writeBack cl r.owns
  let s2 := (s1.homeWrite r.pa (rowNew op (s1.rowImage r) loc)).homeWrite r.ver (s1.rowNext r)
  let s3 := { s2 with rowSeq := s2.rowSeq.set r.pa (s.rowStamp r + 1) }
  (s3.modCluster cl (fun c =>
    (c.cacheUpdate r.pa (s3.homeRead r.pa (2 ^ r.k))).cacheUpdate r.ver (s3.homeRead r.ver 4))).staleFills cl r.owns

/-- ROW_WRITE_APPLY (R176, R179, R257): the local bytes are read and the entry is released, and by a second event the
write is applied at home. -/
def execRowWriteApply (id : Nat) (s : State) : Host.Outcome State Fault Refusal :=
  .next (s.perform id (fun s o =>
    match o.act with
    | .rowWrite op r loc =>
      (s.turnOp o.id (.rowData op r (s.scratchRead loc.block loc.core loc.off (2 ^ r.k)))).dropRange o.cluster o.id
    | .rowData op r data =>
      let s1 := s.applyRowWrite o.cluster op r data
      (s1.noteRow r (s1.rowStamp r) o.members).retireOp o.id
    | _ => s))

/-- The bucket of a lag above 0 (R178). -/
def RowEntry.addLag (e : RowEntry) (lag : Nat) : RowEntry :=
  let up := fun n => Nat.min countMax (n + 1)
  let e := { e with stale := up e.stale }
  if lag = 1 then { e with lag1 := up e.lag1 }
  else if lag ≤ 3 then { e with lag2 := up e.lag2 }
  else if lag ≤ 15 then { e with lag4 := up e.lag4 }
  else { e with lag16 := up e.lag16 }

/-- NEAR_PROBE: home computes the lag (R178, R274). -/
def execNearProbe (id : Nat) (s : State) : Host.Outcome State Fault Refusal :=
  .next (s.perform id (fun s o =>
    match o.act with
    | .probe r served =>
      let lag := (s.rowVersion r - served).toNat
      (if lag = 0 then s else s.modRow r.tenant r.entry (fun e => e.addLag lag)).retireOp o.id
    | _ => s))

/-! ### Fills -/

/-- The peer that a miss probes (R261): the one that the prediction table names, or, from an untrained
entry, some other cluster of the die (assumption 3). -/
def State.probedPeer (s : State) (cl line : Nat) : Nat :=
  (s.cluster cl).predict.getD (line % 256) (24 * dieOf cl + s.choice / 2 % 24)

/-- The peer may forward the sector (R261). -/
def State.forwards (s : State) (cl peer sector : Nat) (readOnly : Bool) : Bool :=
  readOnly && peer != cl && dieOf peer == dieOf cl &&
  (natRange sector 32).all (fun a =>
    match (s.cluster peer).cache.find a with
    | some (_, dirty) => !dirty
    | none => false)

/-- The bytes that a fill supplies: those that the Larder does not hold (R262). `bad` are the addresses of the
bytes that come poisoned. -/
def Cluster.fill (c : Cluster) (sector : Nat) (data : List Byte) (bad : List Nat) : Cluster :=
  { c with
    cache := data.zipIdx.foldl (fun m p =>
      if (m.find (sector + p.2)).isSome then m else m.set (sector + p.2) (p.1, false)) c.cache
    tainted := c.tainted.filter (fun x => (c.cache.find x).isSome) ++
      bad.filter (fun x => decide (sector ≤ x) && decide (x < sector + 32) && (c.cache.find x).isNone) }

/-- A sector arrives at a cluster; one whose Larder has no CACHE-mode bank keeps nothing. -/
def State.installSector (s : State) (cl sector : Nat) (data : List Byte) (bad : List Nat) : State :=
  s.modCluster cl (fun c => if c.hasCache then c.fill sector data bad else c)

/-- The responses of home to other reads of a sector that a cluster's read may join (R338). -/
def State.joinable (s : State) (cl sector : Nat) : List (List Byte × List Nat) :=
  s.inflight.filterMap (fun o =>
    match o.act with
    | .response x _ data bad barred =>
      if x = sector ∧ !barred.contains cl then some (data, bad) else none
    | _ => none)

/-- What home's response to a read holds (R338): the bytes of a pending response that the read joins, or those at home,
by free choice. -/
def State.homeResponse (s : State) (cl sector : Nat) : List Byte × List Nat :=
  let own := (s.homeRead sector 32, s.poison.filter (fun x => decide (sector ≤ x) && decide (x < sector + 32)))
  let js := s.joinable cl sector
  (js[s.choice / 64 % (js.length + 1)]?).getD own

/-- SECTOR_FILL (R260 to R262, R338): a sector arrives from a peer; or the response of home is read there, and arrives by
a second event. -/
def execSectorFill (id : Nat) (s : State) : Host.Outcome State Fault Refusal :=
  .next (s.perform id (fun s o =>
    match o.act with
    | .fill sector readOnly =>
      let line := (sector - memBase) / 128
      let peer := s.probedPeer o.cluster line
      if s.forwards o.cluster peer sector readOnly then
        ((s.drawn.installSector o.cluster sector ((s.cluster peer).cacheRead sector 32)
          (s.cluster peer).tainted).modCluster o.cluster (fun c =>
            if c.hasCache then { c with predict := c.predict.set (line % 256) peer } else c)).retireOp o.id
      else
        let r := s.homeResponse o.cluster sector
        s.drawn.turnOp o.id (.response sector readOnly r.1 r.2 [])
    | .response sector _ data bad _ => (s.installSector o.cluster sector data bad).retireOp o.id
    | _ => s))

/-! ### Reads of the Hall and of the cluster unit -/

/-- LREM_READ_COMPLETE: the launch's counter as it stands (R208). -/
def execLremReadComplete (id : Nat) (s : State) : Host.Outcome State Fault Refusal :=
  .next (s.perform id (fun s o =>
    match o.act with
    | .lrem l d =>
      (s.retireOp o.id).fillDest d false [match s.entry l with
        | some e => e.counter
        | none => 0]
    | _ => s))

/-- A byte of a block's Larder scratch lies in a bank (R259): some part that stands in the bank's group reaches the
64 bytes of each 512 that the bank takes. -/
def Block.inBank (x : Block) (i : Nat) : Bool :=
  x.lparts.zipIdx.any (fun p => p.1 == i / 8 && decide (512 * p.2 + 64 * (i % 8) < x.packet.lscr))

/-- The bank holds Larder scratch of a resident block other than `but` (R241, R301). -/
def State.bankHeld (s : State) (cl i : Nat) (but : Option Nat) : Bool :=
  s.blocks.any (fun p => some p.1 != but && p.2.cluster == cl && p.2.st != .saved && p.2.inBank i)

/-- The bank is refused (R241, R301). -/
def State.bankRefused (s : State) (cl i : Nat) (but : Option Nat) : Bool :=
  s.bankHeld cl i but || (s.cluster cl).inRegion i ||
  ((s.cluster cl).bankMode i == 2 && (s.cluster cl).attached.getD i 0 != 0)

/-- What leaving SCRATCH discards (R241): the bank's bytes of every block of the cluster. -/
def State.discardBank (s : State) (cl i : Nat) : State :=
  { s with blocks := s.blocks.mapVals (fun _ x =>
      if x.cluster == cl && x.st != .saved then
        { x with lmem := x.lmem.filter (fun p => x.bankOf p.1 != i) }
      else x) }

/-- Switches a bank that is not refused (R241). The bank that holds a line is not architectural: a bank
that leaves CACHE empties the Larder, as evictions may (assumption 36). -/
def State.switchBank (s : State) (cl i mode : Nat) : State :=
  let old := (s.cluster cl).bankMode i
  if old = mode then s
  else
    let s1 :=
      match old with
      | 0 => ((s.writeBack cl (fun _ => true)).dropBytes cl (fun _ => true)).modCluster cl (fun c =>
          { c with rows := [] })
      | 1 => s.discardBank cl i
      | _ => s
    s1.modCluster cl (fun c =>
      { c.setBankMode i mode with
        fifo := c.fifo.erase i
        attached := if mode = 2 then c.attached.erase i else c.attached })

/-- Switches banks, and says which were switched, as a mask (R241). -/
def State.switchBanks (s : State) (cl mode : Nat) (but : Option Nat) (banks : List Nat) : State × Nat :=
  banks.foldl (fun p i =>
    if p.1.bankRefused cl i but then p else (p.1.switchBank cl i mode, p.2 + 2 ^ i)) (s, 0)

/-- LMODE_COMPLETE (R241). -/
def execLmodeComplete (id : Nat) (s : State) : Host.Outcome State Fault Refusal :=
  .next (s.perform id (fun s o =>
    match o.act with
    | .lmode mode mask d =>
      let r := s.switchBanks o.cluster mode (some o.block) ((natRange 0 48).filter mask.testBit)
      (r.1.retireOp o.id).fillDest d false [BitVec.ofNat 32 r.2, BitVec.ofNat 32 (r.2 / 2 ^ 32)]
    | _ => s))

end Sys2Proof.Machine
end

