-- ==== Sys2Proof/Machine/Tree.lean ====
section
/-! DEFINITION. The sluices and leaves of the scheduling tree (R276 to R284): fields and routes of items,
rank programs, keys, pushes and pops. -/

namespace Sys2Proof.Machine

/-! ### Items and routes -/

/-- A field of an item. -/
def Item.field (it : Item) (i : Nat) : BitVec 16 := it.f.getD i 0

/-- The type of an item (R224, R276). -/
def Item.kind (it : Item) : Nat := ((it.field 0).extractLsb' 12 4).toNat

/-- The tenant of an item. -/
def Item.tenant (it : Item) : Nat := ((it.field 1).extractLsb' 12 4).toNat

/-- The class of a route (R277). -/
def Item.routeClass (it : Item) : Nat := ((it.field 6).extractLsb' 11 5).toNat

/-- The index of a route (R277). -/
def Item.routeIndex (it : Item) : Nat := ((it.field 6).extractLsb' 0 11).toNat

/-- A route: class and index (R277). -/
def routeOf (cls idx : Nat) : BitVec 16 := BitVec.ofNat 16 (2048 * cls + idx)

/-- The same item with another route. -/
def Item.reroute (it : Item) (cls idx : Nat) : Item := { it with f := setAt it.f 6 (routeOf cls idx) }

/-- The place of a leaf among the sluices: leaf number n of R277 is 4,096 + n. -/
def leafNode (n : Nat) : Nat := 4096 + n

/-- The leaf of an item's route; none for a route that names no leaf (R277, R279). -/
def Item.leaf (it : Item) : Option Nat :=
  let c := it.routeClass
  let i := it.routeIndex
  if c ≤ 3 then (if i ≤ 95 then some (leafNode (4 * i + c)) else none)
  else if c = 4 then (if i ≤ 17 then some (leafNode (384 + i)) else none)
  else if c = 5 ∧ i = 0 then some (leafNode 402)
  else none

/-- The node is a leaf. -/
def isLeaf (n : Nat) : Bool := decide (4096 ≤ n)

/-- The cluster of a cluster leaf. -/
def leafCluster (n : Nat) : Nat := (n - 4096) / 4

/-- Core leaf of a cluster (R277). -/
def coreLeaf (cl : Nat) : Nat := leafNode (4 * cl)
/-- Pan leaf of a cluster (R277). -/
def panLeaf (cl : Nat) : Nat := leafNode (4 * cl + 1)
/-- Grainer leaf of a cluster (R277). -/
def grnLeaf (cl : Nat) : Nat := leafNode (4 * cl + 2)
/-- Copy leaf of a cluster (R277). -/
def copyLeaf (cl : Nat) : Nat := leafNode (4 * cl + 3)
/-- Leaf of a fabric port (R277). -/
def portLeaf (p : Nat) : Nat := leafNode (384 + p)
/-- The host-transfer leaf (R277). -/
def hostLeaf : Nat := leafNode 402

/-! ### Rank programs (R282, R283) -/

/-- What a rank program may change: its registers, and the sluice's words and tables (table T's entry i
is 64 × T + i). -/
structure RankSt where
  regs   : NMap Word32
  nwords : NMap Word32
  tables : NMap Word32
  deriving DecidableEq, Repr

/-- What a rank program reads besides: the item's fields, NOW, B and COUNT (R282). -/
structure RankSrc where
  fields : List (BitVec 16)
  now    : Word32
  base   : BitVec 16
  count  : Nat
  deriving DecidableEq, Repr

/-- A source of LDF (R283). -/
def RankSrc.get (x : RankSrc) (n : Nat) : Word32 :=
  if n < 16 then (x.fields.getD n 0).setWidth 32
  else if n = 16 then x.now
  else if n = 17 then x.base.setWidth 32
  else if n = 18 then BitVec.ofNat 32 x.count
  else 0

/-- A register of a rank program. -/
def RankSt.reg (st : RankSt) (i : Nat) : Word32 := st.regs.getD i 0

/-- Sets a register of a rank program. -/
def RankSt.setReg (st : RankSt) (i : Nat) (v : Word32) : RankSt :=
  { st with regs := st.regs.put 0 i v }

/-- The fields of a program word (R283). -/
def rankKd (w : Word32) : Nat := (w.extractLsb' 25 3).toNat
/-- Field ka of a program word (R283). -/
def rankKa (w : Word32) : Nat := (w.extractLsb' 22 3).toNat
/-- Field kb of a program word (R283). -/
def rankKb (w : Word32) : Nat := (w.extractLsb' 19 3).toNat
/-- The op of a program word (R283). -/
def rankOp (w : Word32) : Nat := (w.extractLsb' 28 4).toNat

/-- Executes one program word other than RANK (R283). -/
def rankStep (src : RankSrc) (w : Word32) (st : RankSt) : RankSt :=
  let a := st.reg (rankKa w)
  let b := st.reg (rankKb w)
  let set := st.setReg (rankKd w)
  let x := (w.extractLsb' 0 6).toNat
  let t := (w.extractLsb' 0 2).toNat
  match rankOp w with
  | 0 => set (src.get (w.extractLsb' 0 5).toNat)
  | 1 => set (st.nwords.getD x 0)
  | 2 => set (st.tables.getD (64 * t + a.toNat % 64) 0)
  | 3 => set ((w.extractLsb' 0 19).signExtend 32)
  | 4 => set (a + b)
  | 5 => set (a - b)
  | 6 => set (if a.ult b then a else b)
  | 7 => set (if a.ult b then b else a)
  | 8 => set (a <<< (b.toNat % 32))
  | 9 => set (a >>> (b.toNat % 32))
  | 10 => set (a &&& b)
  | 11 => set (BitVec.ofNat 32 (a.toNat * (st.tables.getD (64 * t + b.toNat % 64) 0).toNat / 65536))
  | 12 => if a = 0 then st else set b
  | 13 => { st with nwords := st.nwords.put 0 x a }
  | _ => { st with tables := st.tables.put 0 (64 * t + a.toNat % 64) b }

/-- Runs a rank program (R282). -/
def rankRun (src : RankSrc) : List Word32 → RankSt → RankSt × BitVec 16
  | [], st => (st, (st.reg 0).extractLsb' 0 16)
  | w :: rest, st =>
    if rankOp w = 15 then (st, (st.reg (rankKa w)).extractLsb' 0 16)
    else rankRun src rest (rankStep src w st)

/-- The default program of slot 0 (R284). -/
def defaultProg : List Word32 := [0x0000_0011, 0x0200_0002, 0x4008_0000, 0xF000_0000]

/-- A word of the program store (R284). -/
def Tree.progWord (t : Tree) (slot w : Nat) : Word32 :=
  (t.progs.getD slot (if slot = 0 then defaultProg else [])).getD w 0

/-- The 24 words of a program slot. -/
def Tree.prog (t : Tree) (slot : Nat) : List Word32 := (natRange 0 24).map (t.progWord slot)

/-- The bits of a program word that its op names (R283). -/
def rankMask (op : Nat) : Word32 :=
  match op with
  | 0 => 0xFE00_001F
  | 1 => 0xFE00_003F
  | 2 => 0xFFC0_0003
  | 3 => 0xFE07_FFFF
  | 11 => 0xFFF8_0003
  | 13 => 0xF1C0_003F
  | 14 => 0xF1F8_0003
  | 15 => 0xF1C0_0000
  | _ => 0xFFF8_0000

/-- A program word passes the check of R284. -/
def rankWordOk (w : Word32) : Bool :=
  w &&& ~~~(rankMask (rankOp w)) == 0 && (rankOp w != 0 || decide ((w.extractLsb' 0 5).toNat ≤ 18))

/-- A program passes the check of R284. -/
def Tree.progOk (t : Tree) (slot : Nat) : Bool := (t.prog slot).all rankWordOk

/-! ### Keys (R281) -/

/-- The key of a rank against B (R281). -/
def keyOf (rank b : BitVec 16) : Nat := (rank - b).toNat

/-- The signed key of a rank against B (R281). -/
def signedKey (rank b : BitVec 16) : Int := (rank - b).toInt

/-- A pre-empting item goes ahead of every normal item, after earlier pre-empting ones of equal or smaller
signed key (R281). -/
def placePreempt (b : BitVec 16) (q : QItem) : List QItem → List QItem
  | [] => [q]
  | x :: rest =>
    if x.place = .preempt ∧ signedKey x.rank b ≤ signedKey q.rank b then x :: placePreempt b q rest
    else q :: x :: rest

/-- A normal item goes after the pre-empting items and after the items of smaller or equal key (R281). -/
def placeNormal (b : BitVec 16) (q : QItem) : List QItem → List QItem
  | [] => [q]
  | x :: rest =>
    if x.place = .preempt ∨ (x.place = .normal ∧ keyOf x.rank b ≤ keyOf q.rank b) then
      x :: placeNormal b q rest
    else q :: x :: rest

/-- Places an item with its rank (R281). -/
def Sluice.insert (n : Sluice) (it : Item) (rank : BitVec 16) (pre hold : Bool) : Sluice :=
  if pre then { n with items := placePreempt n.b ⟨it, rank, .preempt, hold⟩ n.items }
  else if keyOf rank n.b < 32768 then
    { n with items := placeNormal n.b ⟨it, rank, .normal, hold⟩ n.items }
  else { n with items := n.items ++ [⟨it, rank, .oversize, hold⟩], rwf := true }

/-- How many of a sluice's items stand ahead of an item that is placed with a rank (R281). -/
def Sluice.spot (n : Sluice) (rank : BitVec 16) (pre : Bool) : Nat :=
  if pre then (n.items.takeWhile (fun x => x.place == .preempt && decide (signedKey x.rank n.b ≤ signedKey rank n.b))).length
  else if keyOf rank n.b < 32768 then
    (n.items.takeWhile (fun x => x.place == .preempt ||
      (x.place == .normal && decide (keyOf x.rank n.b ≤ keyOf rank n.b)))).length
  else n.items.length

/-- How many of a sluice's items stand up to the last one of a list of owners. -/
def behind (owners : List Owner) : List QItem → Nat
  | [] => 0
  | x :: rest =>
    match behind owners rest with
    | 0 => if owners.contains x.item.owner then 1 else 0
    | n + 1 => n + 2

/-- Places an item that keeps its rank and how it stood, behind every item that stood ahead of it before (R305). -/
def Sluice.reseat (n : Sluice) (q : QItem) (ahead : List Owner) : Sluice :=
  let k := behind ahead n.items
  let rest := n.items.drop k
  { n with items := n.items.take k ++
      (match q.place with
       | .preempt => placePreempt n.b q rest
       | .normal => placeNormal n.b q rest
       | .oversize => rest ++ [q]) }

/-! ### Pre-emption (R287) -/

/-- s ≤ −PMARGIN for a push against a running item, with PMARGIN not 0 (R287). -/
def marginMet (pmargin rank running : BitVec 16) : Bool :=
  pmargin != 0 && decide ((rank - running).toInt ≤ -(pmargin.toNat : Int))

/-- A resident block that a push into a core leaf is compared with (R287). -/
def Block.candidate (x : Block) (cl : Nat) : Bool :=
  x.cluster == cl && x.st != .saved && !x.packet.cooperative

/-- A push into a leaf pre-empts (R287). -/
def State.preempts (s : State) (n : Nat) (rank : BitVec 16) : Bool :=
  let m := (s.sluice n).pmargin
  let cl := leafCluster n
  if !isLeaf n || decide (leafNode 384 ≤ n) then false
  else
    match (n - 4096) % 4 with
    | 0 => s.blocks.any (fun p => p.2.candidate cl && marginMet m rank p.2.rank)
    | 1 =>
      match (s.cluster cl).pan with
      | some r => marginMet m rank r.rank
      | none => false
    | 2 =>
      match (s.cluster cl).grn with
      | some r => marginMet m rank r.rank
      | none => false
    | _ => false

/-- A pre-empting push marks a yield on the engine (R287). -/
def State.markYield (s : State) (n : Nat) : State :=
  match (n - 4096) % 4 with
  | 1 => s.modCluster (leafCluster n) (fun c =>
      { c with pan := c.pan.map (fun r => { r with yield := true }) })
  | 2 => s.modCluster (leafCluster n) (fun c =>
      { c with grn := c.grn.map (fun r => { r with yield := true }) })
  | _ => s

/-! ### Staging that is given up (R289, R302) -/

/-- Staged bytes of an item are given up (R289, R302, R316). -/
def State.releaseStage (s : State) (cl : Nat) (it : Item) : State :=
  match it.stage with
  | .none => s
  | .begun us => s.modCluster cl (fun c => { c with staged := us.foldl NMap.erase c.staged })
  | .complete us => s.modCluster cl (fun c => { c with staged := us.foldl NMap.erase c.staged })

/-- Items of a Pan or Grainer leaf that a push at position i has moved above position 2D + 1 release their
staging (R289). -/
def State.releaseFar (s : State) (n i : Nat) : State :=
  let x := s.sluice n
  let k := Nat.max i (2 * x.d + 2)
  let far := (x.items.drop k).filter (fun q => q.item.stage != .none)
  if far.isEmpty || !isLeaf n then s
  else
    (far.foldl (fun s q => s.releaseStage (leafCluster n) q.item) s).modSluice n (fun x =>
      { x with items := x.items.take k ++ (x.items.drop k).map (fun q =>
          { q with item := { q.item with stage := .none } }) })

/-! ### Pushes and pops (R279, R280) -/

/-- Places in the order of pushes of a Hall cycle (R280): re-pushes, moves by parent, new items of the
launch unit, of the clusters, and of the Hall's host requests. -/
def ordRepush : Nat := 1
/-- The place of a move from a parent (R280). -/
def ordMove (parent : Nat) : Nat := 2 + parent
/-- The place of the launch unit's pushes (R280). -/
def ordLaunch : Nat := 5000
/-- The place of a cluster's pushes (R280). -/
def ordCluster (cl : Nat) : Nat := 5001 + cl
/-- The place of host requests, which R280 does not give: after the clusters (assumption 122). -/
def ordHost : Nat := 5200

/-- Items that a sluice or leaf may hold (R278). -/
def Sluice.room (x : Sluice) (n : Nat) : Nat := if isLeaf n then 256 else x.cap + 1

/-- Places of a sluice or leaf that granted moves will take (R279). -/
def State.granted (s : State) (n : Nat) : Nat := (s.tree.moving.filter (fun m => m.child == n)).length

/-- A push can be taken now (R280): the pops of this Hall cycle are made, the sluice is enabled and has a place that no
granted move takes, no later push of this Hall cycle has been taken, and a new item comes after every move. -/
def State.canPush (s : State) (n ord : Nat) : Bool :=
  let x := s.sluice n
  s.tree.pushing && x.en && decide (x.items.length + s.granted n < x.room n) && decide (x.ordinal ≤ ord) &&
  (decide (ord < ordLaunch) || s.tree.moving.isEmpty)

/-- A move into a sluice or leaf can be granted (R279): it is enabled, and the items that it held when the Hall cycle
began and the moves granted so far leave a place. -/
def State.canMove (s : State) (n : Nat) : Bool :=
  let x := s.sluice n
  x.en && decide (x.start + s.granted n < x.room n)

/-- Pushes an item into a sluice or leaf: its rank is kept or computed by the rank program on the state
that earlier pushes left (R280 to R282), and a push into a leaf may pre-empt (R287). -/
def State.pushInto (s : State) (n : Nat) (it : Item) (keep : Option (BitVec 16)) (ord : Nat)
    (hold : Bool) : State :=
  let x := s.sluice n
  let src : RankSrc := ⟨it.f, s.now, x.b, x.items.length⟩
  let r := match keep with
    | some k => ((⟨[], x.nwords, x.tables⟩ : RankSt), k)
    | none => rankRun src (s.tree.prog x.prog) ⟨[], x.nwords, x.tables⟩
  let pre := s.preempts n r.2
  let y := { x with nwords := r.1.nwords, tables := r.1.tables, ordinal := ord }.insert it r.2 pre hold
  let s1 := (s.setSluice n y).releaseFar n (x.spot r.2 pre)
  if pre then s1.markYield n else s1

/-- A queued item that an engine reset removed enters its leaf again (R305): with its rank, and behind the items that stood
ahead of it; one that pre-empts what the engine now runs stands as such (R287). -/
def State.pushBack (s : State) (n : Nat) (it : Item) (rank : BitVec 16) (place : Place) (ahead : List Owner) : State :=
  let x := s.sluice n
  let pre := s.preempts n rank
  let y := { x with ordinal := ordRepush }.reseat ⟨it, rank, if pre then .preempt else place, false⟩ ahead
  let s1 := (s.setSluice n y).releaseFar n ((y.items.takeWhile (fun q => q.item.owner != it.owner)).length)
  if pre then s1.markYield n else s1

/-- The top sluice that a tenant's pushes go to now, if they do not wait (R278, R293); none while the tenant is being
reset (R322). -/
def State.topOf (s : State) (t : Nat) : Option Nat :=
  let x := s.tenant t
  if x.ttopV && x.ttop != 0 && (s.sluice x.ttop).en && !x.trBusy then some x.ttop else none

/-- Relative heat of a cluster (R285, R293). -/
def State.heat (s : State) (cl : Nat) : Nat := s.tree.heat.getD cl 0

/-- The cluster with the least HEAT, ties to the lowest number (R286). -/
def State.coolest (s : State) : Nat :=
  (natRange 0 96).foldl (fun best cl => if s.heat cl < s.heat best then cl else best) 0

/-- A RESTORE item takes the core leaf of the coolest cluster as its route when it is re-pushed (R286); any other item
keeps its route. -/
def State.routedNow (s : State) (it : Item) : Item :=
  match it.owner with
  | .restore _ => it.reroute 0 s.coolest
  | _ => it

/-- Where a re-push goes: the leaf of its route, or its tenant's top sluice. -/
def State.repushTo (s : State) (e : Repush) : Option Nat := if e.leaf then e.item.leaf else s.topOf e.item.tenant

/-- A re-push is made into a sluice or leaf (R280): into the seat that it keeps, if it keeps one (R305). -/
def State.pushAgain (s : State) (n : Nat) (e : Repush) : State :=
  match e.seat, e.rank with
  | some (place, ahead), some rank => s.pushBack n e.item rank place ahead
  | _, _ => s.pushInto n (s.routedNow e.item) e.rank ordRepush false

/-- The re-pushes that began to wait before this Hall cycle are taken (R280, R303): those to sluice `only`, or all. -/
def State.flushRepush (s : State) (only : Option Nat) : State :=
  s.tree.repush.foldl (fun s e =>
    match s.repushTo e with
    | some n =>
      if (only == none || only == some n) && decide (e.since < s.tree.cycle) && s.canPush n ordRepush then
        (s.pushAgain n e).modTree (fun t =>
          { t with repush := t.repush.erase e })
      else s
    | none => s) s

/-- A new item enters its tenant's top sluice, after the re-pushes that wait there; nothing when it must
wait at its source (R280, R293). -/
def State.pushTop (s : State) (it : Item) (ord : Nat) : Option State :=
  match s.topOf it.tenant with
  | none => none
  | some n =>
    let s1 := s.flushRepush (some n)
    if s1.canPush n ord then some (s1.pushInto n it none ord false) else none

/-- A re-push of an item of a block into its tenant's top sluice, with the rank that it keeps if it keeps one (R280). -/
def State.repush (s : State) (block : Nat) (it : Item) (keep : Option (BitVec 16)) : State :=
  s.modTree (fun t => { t with repush := t.repush ++ [⟨block, it, keep, false, t.cycle, none⟩] })

/-- A re-push of an item of a block into the leaf that it came from, with its rank (R303, R305), in a seat if it keeps
one. -/
def State.repushLeaf (s : State) (block : Nat) (it : Item) (rank : BitVec 16)
    (seat : Option (Place × List Owner) := none) : State :=
  s.modTree (fun t => { t with repush := t.repush ++ [⟨block, it, some rank, true, t.cycle, seat⟩] })

/-- The sluice may pop in this Hall cycle: before the pushes, and once (R280). -/
def State.canPop (s : State) (n : Nat) : Bool := (s.sluice n).en && !(s.sluice n).popped && !s.tree.pushing

/-- The unit of a leaf, or the launch unit, may pop in this Hall cycle: it had requested it when the cycle began (R280). -/
def State.canTake (s : State) (n : Nat) : Bool := s.canPop n && s.tree.asks.contains n

/-- Takes the head of a sluice; B becomes its rank (R280). -/
def State.popHead (s : State) (n : Nat) : State :=
  match (s.sluice n).items with
  | [] => s
  | q :: rest => s.modSluice n (fun x => { x with items := rest, b := q.rank, popped := true })

/-- Removes the items that a test names from every sluice and leaf, and from the moves between them; the others keep
their order (R291, R316). -/
def State.dropItems (s : State) (bad : QItem → Bool) : State :=
  s.modTree (fun t =>
    { t with
      sluices := t.sluices.mapVals (fun _ x => { x with items := x.items.filter (fun q => !bad q) })
      moving := t.moving.filter (fun m => !bad m.item) })

/-- Every item in the sluices and leaves, and between them, that a test names, in the order of their numbers. -/
def State.queued (s : State) (ok : QItem → Bool) : List QItem :=
  s.tree.sluices.flatMap (fun p => p.2.items.filter ok) ++ (s.tree.moving.map (·.item)).filter ok

/-- The child of an inner sluice that an item's route takes (R279): the first matching entry. -/
def Sluice.childFor (x : Sluice) (it : Item) : Option Nat :=
  match it.leaf with
  | none => none
  | some leaf =>
    ((natRange 0 8).findSome? (fun i =>
      match x.child.find i with
      | some c =>
        if c.v && c.cls.getLsbD it.routeClass && decide (c.lo ≤ it.routeIndex) &&
            decide (it.routeIndex ≤ c.hi) then
          some (if c.leaf then leaf else c.child)
        else none
      | none => none))

/-- The move that an inner sluice's head makes in this Hall cycle, granted when its child has a place (R279): the head is
popped, and enters the child with the pushes. -/
def State.grantMove (s : State) (p : Nat) : State :=
  match (s.sluice p).items with
  | [] => s
  | q :: _ =>
    if p = 0 ∨ isLeaf p ∨ !s.canPop p then s
    else
      match (s.sluice p).childFor q.item with
      | none => s
      | some n =>
        if n = 0 ∨ n = p ∨ !s.canMove n then s
        else (s.popHead p).modTree (fun t => { t with moving := t.moving ++ [⟨p, n, q⟩] })

/-- The moves of a Hall cycle are granted in ascending order of the parents (R279, R280). -/
def State.grantMoves (s : State) : State := s.tree.sluices.foldl (fun s p => s.grantMove p.1) s

/-- A Hall cycle ends (R280, R282, R294): the marks of the cycle are cleared, the depths written in it are taken, and the
count of Hall cycles goes on; `asks` are the pops requested for the next. -/
def State.hallTick (s : State) (asks : List Nat) : State :=
  s.modTree (fun t =>
    { t with
      cycle := t.cycle + 1
      expanded := false
      pushing := false
      asks := asks
      sluices := t.sluices.mapVals (fun _ x => { x with popped := false, ordinal := 0, d := x.dNext, start := x.items.length }) })

end Sys2Proof.Machine
end

