-- ==== Sys2Proof/Machine/EngMem.lean ====
section
/-! DEFINITION. Operands of engine operations (R221, R223, R231 to R237): parameter blocks, scratchpad
descriptors, the bytes that an engine reads and writes, the enumeration of a CPY, and the rows of GAT and
SCT. -/

namespace Sys2Proof.Machine

/-! ### Parameter blocks -/

/-- A word of a parameter block (R221). -/
def par (p : List Word32) (i : Nat) : Word32 := p.getD i 0

/-- A 64-bit value in two words of a parameter block, low word first. -/
def par64 (p : List Word32) (i : Nat) : Nat := (par p i).toNat + 2 ^ 32 * (par p (i + 1)).toNat

/-- A field of a word. -/
def bitsOf (w : Word32) (lo n : Nat) : Nat := (w.extractLsb' lo n).toNat

/-- A scratchpad descriptor (R223): rotation code, base, tile pitch in units of 64 bytes and row pitch. -/
structure Desc where
  rot  : Nat
  base : Nat
  tp   : Nat
  rp   : Nat
  deriving DecidableEq, Repr

/-- The descriptor in words i and i + 1 of a parameter block (R223). -/
def descOf (p : List Word32) (i : Nat) : Desc :=
  ⟨bitsOf (par p i) 29 3, bitsOf (par p i) 0 23, bitsOf (par p (i + 1)) 16 16, bitsOf (par p (i + 1)) 0 16⟩

/-- The Larder scratch offset of byte j of row i of tile t (R223). -/
def Desc.at (d : Desc) (t i j : Nat) : Nat :=
  let o := d.base + 64 * d.tp * t + d.rp * i
  if d.rot = 0 then o + j
  else
    let g := j / 64
    o + 512 * (g / 8) + 64 * ((g + d.rot * i) % 8) + j % 64

/-! ### Bytes -/

/-- Why an engine's access fails: a translation fault, which is not yet an operand fault (R243), or an
operand fault (R222). -/
inductive EngFail where
  | xlate (f : XFault) (va : Nat) (write : Bool)
  | operand
  deriving DecidableEq, Repr

/-- An engine reads one global byte through the issuing cluster's Larder, and otherwise from home as it stands there
(R236; assumption 107). -/
def State.engGlobal (s : State) (cl ten va : Nat) : Except EngFail Byte :=
  match s.translate cl ten va permR s.choice with
  | .fault f => .error (.xlate f va false)
  | .ok pa _ _ =>
    if inHostWindow pa then .ok (BitVec.ofNat 8 (Config.freeAt s.freeCtr pa))
    else
      match (s.cluster cl).cache.find pa with
      | some (b, _) => if (s.cluster cl).cachePoisoned pa 1 then .error .operand else .ok b
      | none => if s.homePoisoned pa 1 then .error .operand else .ok (Memory.read s.mem pa)

/-- An engine reads one byte of a block's Larder scratch; a bank that is not in SCRATCH mode is an operand
fault (R222). -/
def State.engLarder (s : State) (b o : Nat) : Except EngFail Byte :=
  match s.blocks.find b with
  | none => .error .operand
  | some x =>
    if (s.cluster x.cluster).bankMode (x.bankOf o) = 1 then .ok (Memory.read x.lmem o)
    else .error .operand

/-- Consecutive bytes of Larder scratch that an engine reads. -/
def State.engLarders (s : State) (b : Nat) : List Nat → Except EngFail (List Byte)
  | [] => .ok []
  | o :: rest =>
    match s.engLarder b o, State.engLarders s b rest with
    | .ok x, .ok xs => .ok (x :: xs)
    | .error e, _ => .error e
    | _, .error e => .error e

/-- An engine reads the byte that a 64-bit address names (R231, R236). -/
def State.engRead (s : State) (b : Nat) (va : Nat) : Except EngFail Byte :=
  match windowOf (BitVec.ofNat 64 va) with
  | .global => s.engGlobal (s.clusterOfBlock b) (s.tenantOfBlock b) va
  | .larder => s.engLarder b (va % 2 ^ 48)
  | .core => .ok ((s.scratchRead b true (va % 2 ^ 48) 1).headD 0)
  | _ => .error .operand

/-- An engine writes bytes of a block's Larder scratch. -/
def State.engWriteLarder (s : State) (b o : Nat) (data : List Byte) : Except EngFail State :=
  match s.blocks.find b with
  | none => .error .operand
  | some x =>
    if (natRange o data.length).all (fun i => (s.cluster x.cluster).bankMode (x.bankOf i) == 1) then
      .ok (s.scratchWrite b false o data)
    else .error .operand

/-- An engine writes the byte that a 64-bit address names: global bytes at home, at DEVICE scope
(R236), and those of the host window as writes that only the zero-length read after them completes at SYSTEM scope (R333;
assumption 104). -/
def State.engWrite (s : State) (b : Nat) (va : Nat) (v : Byte) : Except EngFail State :=
  match windowOf (BitVec.ofNat 64 va) with
  | .global =>
    match s.translate (s.clusterOfBlock b) (s.tenantOfBlock b) va permW s.choice with
    | .fault f => .error (.xlate f va true)
    | .ok pa _ _ =>
      if inHostWindow pa then .ok (s.hostPost (s.tenantOfBlock b) (s.clusterOfBlock b) (pa - hostBase) [v])
      else .ok (s.writeAtHome (s.clusterOfBlock b) pa [v])
  | .larder => s.engWriteLarder b (va % 2 ^ 48) [v]
  | .core => .ok (s.scratchWrite b true (va % 2 ^ 48) [v])
  | _ => .error .operand

/-- Reads a list of bytes, each by its 64-bit address. -/
def State.engReads (s : State) (b : Nat) : List Nat → Except EngFail (List Byte)
  | [] => .ok []
  | va :: rest =>
    match s.engRead b va, State.engReads s b rest with
    | .ok x, .ok xs => .ok (x :: xs)
    | .error e, _ => .error e
    | _, .error e => .error e

/-- The requests to host memory that the reading of some bytes makes (R333). -/
def State.engRequests (s : State) (b : Nat) : List Nat → State
  | [] => s
  | va :: rest =>
    State.engRequests (match windowOf (BitVec.ofNat 64 va) with
      | .global =>
        match s.translate (s.clusterOfBlock b) (s.tenantOfBlock b) va permR s.choice with
        | .ok pa _ _ => if inHostWindow pa then s.hostRequest (s.tenantOfBlock b) (pa - hostBase) none 1 .none else s
        | .fault _ => s
      | _ => s) b rest

/-- The bytes of a staging copy: one that lies in the host window is an operand fault (R333). -/
def State.engStage (s : State) (b : Nat) (vas : List Nat) : Except EngFail (List Byte) :=
  if vas.any (fun va =>
      match s.translate (s.clusterOfBlock b) (s.tenantOfBlock b) va permR s.choice with
      | .ok pa _ _ => inHostWindow pa
      | .fault _ => false) then .error .operand
  else s.engReads b vas

/-- Writes a list of bytes, each at its 64-bit address, in order; a failure keeps what was written
before. -/
def State.engWrites (s : State) (b : Nat) : List (Nat × Byte) → State × Option EngFail
  | [] => (s, none)
  | (va, v) :: rest =>
    match s.engWrite b va v with
    | .ok s1 => State.engWrites s1 b rest
    | .error e => (s, some e)

/-! ### CPY (R231, R232) -/

/-- The total byte count of a shape. -/
def shapeBytes (shape : List (Nat × Int × Int)) : Nat := shape.foldl (fun n d => n * d.1) 1

/-- Σ x_d × stride_d over the outer dimensions, and x_0, of byte number z: source side or destination
side. -/
def shapeOffset (dst : Bool) : List (Nat × Int × Int) → Nat → Nat → Int
  | [], _, _ => 0
  | (e, ss, ds) :: rest, d, z =>
    let x : Int := (z % e : Nat)
    (if d = 0 then x else x * (if dst then ds else ss)) + shapeOffset dst rest (d + 1) (z / e)

/-- The byte numbers of a segment (R232). -/
def segmentBytes (shape : List (Nat × Int × Int)) (part : Nat) : List Nat :=
  natRange (65536 * part) (Nat.min 65536 (shapeBytes shape - 65536 * part))

/-- The source address of byte number z. -/
def EngOp.cpySrc (o : EngOp) (z : Nat) : Nat :=
  ((par64 o.params 1 : Int) + shapeOffset false o.shape 0 z).toNat

/-- The destination address of byte number z. -/
def EngOp.cpyDst (o : EngOp) (z : Nat) : Nat :=
  ((par64 o.params 3 : Int) + shapeOffset true o.shape 0 z).toNat

/-- FILL (R231). -/
def EngOp.fills (o : EngOp) : Bool := (par o.params 0).getLsbD 0

/-- Whether the free choice `seed` takes each member of a list: those that it takes, and the others. -/
def pickAny {α : Type} (seed : Nat) (l : List α) : List α × List α :=
  let x := l.zipIdx.partition (fun p => Config.freeAt seed p.2 % 2 == 0)
  (x.1.map (·.1), x.2.map (·.1))

/-- A free choice of members of a list, of one at least where the list has any. -/
def pickSome {α : Type} (seed : Nat) (l : List α) : List α × List α :=
  match pickAny seed l with
  | ([], rest) => (rest, [])
  | p => p

/-- The addresses that a CPY reads for bytes by number. -/
def EngOp.cpyReads (o : EngOp) (zs : List Nat) : List Nat := if o.fills then [] else zs.map o.cpySrc

/-- The writes of bytes of a CPY by number: fill bytes, or what the source bytes hold now (R232). -/
def State.cpyRead (s : State) (o : EngOp) (zs : List Nat) : Except EngFail (List (Nat × Byte)) :=
  if o.fills then
    .ok (zs.map (fun z => (o.cpyDst z, ((par o.params 6) >>> (8 * (o.cpyDst z % 4))).setWidth 8)))
  else
    match s.engReads o.block (zs.map o.cpySrc) with
    | .ok data => .ok ((zs.map o.cpyDst).zip data)
    | .error e => .error e

/-! ### GAT and SCT (R233, R234) -/

/-- Rows of a GAT or SCT. -/
def EngOp.rowCount (o : EngOp) : Nat := bitsOf (par o.params 4) 0 16

/-- What an item of the copy engine has to do: the bytes of a CPY segment by number (R232), or the rows of a GAT
or SCT that are not done (R243). -/
def EngOp.todo (o : EngOp) (part p0 : Nat) : List Nat :=
  if o.cls = 2 then segmentBytes o.shape part
  else (natRange 0 o.rowCount).filter (fun i => !p0.testBit i)

/-- The rows of a GAT or SCT that are done when these are left, one bit each. -/
def EngOp.doneBits (o : EngOp) (left : List Nat) : Nat :=
  ((natRange 0 o.rowCount).filter (fun i => !left.contains i)).foldl (fun n i => n + 2 ^ i) 0

/-- The offsets of index entry i of a GAT or SCT (R233). -/
def EngOp.idxAt (o : EngOp) (i : Nat) : List Nat := natRange (bitsOf (par o.params 3) 0 23 + 4 * i) 4

/-- The row that index entry i of a GAT or SCT names: looked up in the entry that covers ga0 (R233). -/
def State.engRow (s : State) (o : EngOp) (i : Nat) (need : Perm) : Except EngFail RowRef :=
  let ten := s.tenantOfBlock o.block
  let cl := o.cluster
  let ga0 := par64 o.params 1
  match (s.tenant ten).rowEntry ga0 with
  | none => .error .operand
  | some (n, e) =>
    match s.engLarders o.block (o.idxAt i) with
    | .error f => .error f
    | .ok idx =>
      let ga := ga0 + leNat idx * 2 ^ e.k
      if !(decide (e.base ≤ ga) && decide (ga < e.limit)) then .error .operand
      else
        let va := e.verBase + 4 * ((ga - e.base) / 2 ^ e.k)
        match s.translate cl ten ga need s.choice with
        | .fault f => .error (.xlate f ga (need == permRW))
        | .ok pa _ _ =>
          match s.translate cl ten va need s.choice with
          | .fault f => .error (.xlate f va (need == permRW))
          | .ok vp _ _ =>
            if inHostWindow pa || inHostWindow vp then .error .operand else .ok ⟨pa, vp, e.k, ten, n⟩

/-- Gathers one row (R233): its image goes to destination row i. -/
def State.gatRow (s : State) (o : EngOp) (i : Nat) : Except EngFail State :=
  match s.engRow o i permR with
  | .error f => .error f
  | .ok r =>
    let bound := o.rowSeen.foldl (fun n p => if p.1 = r.pa then Nat.max n p.2 else n) 0
    if (o.home || (s.nearSource r bound).isNone) && s.homePoisoned r.pa (2 ^ r.k) then .error .operand
    else
      let p := if o.home then s.readRowHome o.cluster r else s.readRowNear o.cluster r bound
      let d := descOf o.params 5
      (natRange 0 (2 ^ r.k / 64)).foldl (fun acc g =>
        match acc with
        | .error f => .error f
        | .ok s' => s'.engWriteLarder o.block (d.at 0 i (64 * g)) ((p.2.1.drop (64 * g)).take 64))
        (.ok p.1)

/-- The offsets of a descriptor's row. -/
def Desc.row (d : Desc) (t i n : Nat) : List Nat := (natRange 0 n).map (fun j => d.at t i j)

/-- Scatters one row (R234): the operation of R176 at home, in one step. -/
def State.sctRow (s : State) (o : EngOp) (i : Nat) : Except EngFail State :=
  match s.engRow o i permRW with
  | .error f => .error f
  | .ok r =>
    match s.engLarders o.block ((descOf o.params 5).row 0 i (2 ^ r.k)) with
    | .error f => .error f
    | .ok data =>
      if s.homePoisoned r.pa (2 ^ r.k) then .error .operand
      else .ok ((s.applyRowWrite o.cluster (bitsOf (par o.params 0) 28 4 + 1) r data).dropRow o.cluster r.pa)

/-- Whether index entries i and j of an operation name one row now. -/
def State.sameRow (s : State) (o : EngOp) (i j : Nat) : Bool :=
  match s.engLarders o.block (o.idxAt i), s.engLarders o.block (o.idxAt j) with
  | .ok x, .ok y => x == y
  | _, _ => true

/-- The rows to do for a choice among those left: of an SCT, earlier rows that name the same row go with a later
one (R234); a GAT does them in any order (R233). -/
def State.rowsWith (s : State) (o : EngOp) (left chosen : List Nat) : List Nat :=
  if o.cls = 4 then
    left.filter (fun i => chosen.contains i || chosen.any (fun j => decide (i < j) && s.sameRow o i j))
  else chosen

/-- Does rows of a GAT or SCT one after another: the state they leave, the rows not done, and why it
stopped. -/
def State.engRows (o : EngOp) (s : State) : List Nat → State × List Nat × Option EngFail
  | [] => (s, [], none)
  | i :: rest =>
    match if o.cls = 3 then s.gatRow o i else s.sctRow o i with
    | .ok s1 => State.engRows o s1 rest
    | .error f => (s, i :: rest, some f)

/-- The Larder or core scratch range that an operation writes and holds in the scoreboard (R237): of a GAT,
and of a CPY or FAB GET that writes scratch; whether core scratch, and the first and last byte. -/
def EngOp.range (o : EngOp) (k : Nat) : Option (Bool × Nat × Nat) :=
  let local_ := fun (lo hi : Nat) =>
    match windowOf (BitVec.ofNat 64 lo) with
    | .larder => some (false, lo % 2 ^ 48, hi % 2 ^ 48)
    | .core => some (true, lo % 2 ^ 48, hi % 2 ^ 48)
    | _ => none
  match o.cls with
  | 2 =>
    let ends := o.shape.zipIdx.foldl (fun (p : Int × Int) d =>
      let w : Int := ((d.1.1 : Int) - 1) * (if d.2 = 0 then 1 else d.1.2.2)
      if w < 0 then (p.1 + w, p.2) else (p.1, p.2 + w))
      ((par64 o.params 3 : Int), (par64 o.params 3 : Int))
    local_ ends.1.toNat ends.2.toNat
  | 3 =>
    let d := descOf o.params 5
    let rows := (natRange 0 o.rowCount).flatMap (fun i =>
      (natRange 0 (2 ^ k / 64)).map (fun g => d.at 0 i (64 * g)))
    some (false, rows.foldl Nat.min (rows.headD 0), rows.foldl Nat.max 0 + 63)
  | 5 =>
    if bitsOf (par o.params 0) 28 4 = 1 then
      local_ (par64 o.params 3) (par64 o.params 3 + (par o.params 5).toNat - 1)
    else none
  | _ => none

end Sys2Proof.Machine
end

