-- ==== Sys2Proof/Machine/LaneInt.lean ====
section
/-! DEFINITION. Lane major opcodes 0x00 to 0x0F (R118 to R137): integer arithmetic, bit fields, moves,
hatches, lane special registers and cross-lane instructions. -/

namespace Sys2Proof.Machine

/-- ADD: va + vb (R121). -/
def execAdd (_tc : BitVec 2) (vd va vb : BitVec 7) (s : State) : Host.Outcome State Fault Refusal :=
  .next (lrUnit s (Use.ab vd va vb) vd (fun o => o.a + o.b))

/-- SUB: va − vb (R121). -/
def execSub (_tc : BitVec 2) (vd va vb : BitVec 7) (s : State) : Host.Outcome State Fault Refusal :=
  .next (lrUnit s (Use.ab vd va vb) vd (fun o => o.a - o.b))

/-- MIN, signed (R121). -/
def execMin (_tc : BitVec 2) (vd va vb : BitVec 7) (s : State) : Host.Outcome State Fault Refusal :=
  .next (lrUnit s (Use.ab vd va vb) vd (fun o => sMin o.a o.b))

/-- MAX, signed (R121). -/
def execMax (_tc : BitVec 2) (vd va vb : BitVec 7) (s : State) : Host.Outcome State Fault Refusal :=
  .next (lrUnit s (Use.ab vd va vb) vd (fun o => sMax o.a o.b))

/-- MINU (R121). -/
def execMinu (_tc : BitVec 2) (vd va vb : BitVec 7) (s : State) : Host.Outcome State Fault Refusal :=
  .next (lrUnit s (Use.ab vd va vb) vd (fun o => uMin o.a o.b))

/-- MAXU (R121). -/
def execMaxu (_tc : BitVec 2) (vd va vb : BitVec 7) (s : State) : Host.Outcome State Fault Refusal :=
  .next (lrUnit s (Use.ab vd va vb) vd (fun o => uMax o.a o.b))

/-- ABSD (R121). -/
def execAbsd (_tc : BitVec 2) (vd va vb : BitVec 7) (s : State) : Host.Outcome State Fault Refusal :=
  .next (lrUnit s (Use.ab vd va vb) vd (fun o => absDiff o.a o.b))

/-- ADDSAT (R121). -/
def execAddsat (_tc : BitVec 2) (vd va vb : BitVec 7) (s : State) : Host.Outcome State Fault Refusal :=
  .next (lrUnit s (Use.ab vd va vb) vd (fun o => addSat o.a o.b))

/-- AND (R121). -/
def execAnd (_tc : BitVec 2) (vd va vb : BitVec 7) (s : State) : Host.Outcome State Fault Refusal :=
  .next (lrUnit s (Use.ab vd va vb) vd (fun o => o.a &&& o.b))

/-- OR (R121). -/
def execOr (_tc : BitVec 2) (vd va vb : BitVec 7) (s : State) : Host.Outcome State Fault Refusal :=
  .next (lrUnit s (Use.ab vd va vb) vd (fun o => o.a ||| o.b))

/-- XOR (R121). -/
def execXor (_tc : BitVec 2) (vd va vb : BitVec 7) (s : State) : Host.Outcome State Fault Refusal :=
  .next (lrUnit s (Use.ab vd va vb) vd (fun o => o.a ^^^ o.b))

/-- ANDN (R121). -/
def execAndn (_tc : BitVec 2) (vd va vb : BitVec 7) (s : State) : Host.Outcome State Fault Refusal :=
  .next (lrUnit s (Use.ab vd va vb) vd (fun o => o.a &&& ~~~o.b))

/-- SHL by vb[4:0] (R121). -/
def execShl (_tc : BitVec 2) (vd va vb : BitVec 7) (s : State) : Host.Outcome State Fault Refusal :=
  .next (lrUnit s (Use.ab vd va vb) vd (fun o => shl32 o.a o.b.toNat))

/-- SHR by vb[4:0] (R121). -/
def execShr (_tc : BitVec 2) (vd va vb : BitVec 7) (s : State) : Host.Outcome State Fault Refusal :=
  .next (lrUnit s (Use.ab vd va vb) vd (fun o => shr32 o.a o.b.toNat))

/-- SAR by vb[4:0] (R121). -/
def execSar (_tc : BitVec 2) (vd va vb : BitVec 7) (s : State) : Host.Outcome State Fault Refusal :=
  .next (lrUnit s (Use.ab vd va vb) vd (fun o => sar32 o.a o.b.toNat))

/-- ROR by vb[4:0] (R121). -/
def execRor (_tc : BitVec 2) (vd va vb : BitVec 7) (s : State) : Host.Outcome State Fault Refusal :=
  .next (lrUnit s (Use.ab vd va vb) vd (fun o => ror32 o.a o.b.toNat))

/-- MUL (R62, R123). -/
def execMul (_tc : BitVec 2) (vd va vb : BitVec 7) (s : State) : Host.Outcome State Fault Refusal :=
  .next (lrUnit s (Use.ab vd va vb) vd (fun o => o.a * o.b))

/-- MULHI (R62, R123). -/
def execMulhi (_tc : BitVec 2) (vd va vb : BitVec 7) (s : State) : Host.Outcome State Fault Refusal :=
  .next (lrUnit s (Use.ab vd va vb) vd (fun o => mulHi o.a o.b))

/-- MULHIU (R62, R123). -/
def execMulhiu (_tc : BitVec 2) (vd va vb : BitVec 7) (s : State) : Host.Outcome State Fault Refusal :=
  .next (lrUnit s (Use.ab vd va vb) vd (fun o => mulHiU o.a o.b))

/-- MAD (R62, R123). -/
def execMad (_tc : BitVec 2) (vd va vb : BitVec 7) (s : State) : Host.Outcome State Fault Refusal :=
  .next (lrUnit s ((Use.ab vd va vb).withC) vd (fun o => o.a * o.b + o.c))

/-- DIV (R62, R123). -/
def execDiv (_tc : BitVec 2) (vd va vb : BitVec 7) (s : State) : Host.Outcome State Fault Refusal :=
  .next (lrUnit s (Use.ab vd va vb) vd (fun o => (divRem o.a o.b).1))

/-- DIVU (R62, R123). -/
def execDivu (_tc : BitVec 2) (vd va vb : BitVec 7) (s : State) : Host.Outcome State Fault Refusal :=
  .next (lrUnit s (Use.ab vd va vb) vd (fun o => (divRemU o.a o.b).1))

/-- REM (R62, R123). -/
def execRem (_tc : BitVec 2) (vd va vb : BitVec 7) (s : State) : Host.Outcome State Fault Refusal :=
  .next (lrUnit s (Use.ab vd va vb) vd (fun o => (divRem o.a o.b).2))

/-- REMU (R62, R123). -/
def execRemu (_tc : BitVec 2) (vd va vb : BitVec 7) (s : State) : Host.Outcome State Fault Refusal :=
  .next (lrUnit s (Use.ab vd va vb) vd (fun o => (divRemU o.a o.b).2))

/-- SEQ (R121). -/
def execSeq (_tc : BitVec 2) (vd va vb : BitVec 7) (s : State) : Host.Outcome State Fault Refusal :=
  .next (lrUnit s (Use.ab vd va vb) vd (fun o => boolWord (o.a == o.b)))

/-- SNE (R121). -/
def execSne (_tc : BitVec 2) (vd va vb : BitVec 7) (s : State) : Host.Outcome State Fault Refusal :=
  .next (lrUnit s (Use.ab vd va vb) vd (fun o => boolWord (o.a != o.b)))

/-- SLT (R121). -/
def execSlt (_tc : BitVec 2) (vd va vb : BitVec 7) (s : State) : Host.Outcome State Fault Refusal :=
  .next (lrUnit s (Use.ab vd va vb) vd (fun o => boolWord (o.a.slt o.b)))

/-- SLTU (R121). -/
def execSltu (_tc : BitVec 2) (vd va vb : BitVec 7) (s : State) : Host.Outcome State Fault Refusal :=
  .next (lrUnit s (Use.ab vd va vb) vd (fun o => boolWord (o.a.ult o.b)))

/-- SEL: va if vc ≠ 0, else vb (R122). -/
def execSel (_tc : BitVec 2) (vd va vb : BitVec 7) (s : State) : Host.Outcome State Fault Refusal :=
  .next (lrUnit s ((Use.ab vd va vb).withC) vd (fun o => if o.c = 0 then o.b else o.a))

/-- CLZ (R122). -/
def execClz (_tc : BitVec 2) (vd va : BitVec 7) (s : State) : Host.Outcome State Fault Refusal :=
  .next (lrUnit s (Use.one vd va) vd (fun o => BitVec.ofNat 32 (clz32 o.a)))

/-- POPC (R122). -/
def execPopc (_tc : BitVec 2) (vd va : BitVec 7) (s : State) : Host.Outcome State Fault Refusal :=
  .next (lrUnit s (Use.one vd va) vd (fun o => BitVec.ofNat 32 (popCount o.a)))

/-- BREV (R122). -/
def execBrev (_tc : BitVec 2) (vd va : BitVec 7) (s : State) : Host.Outcome State Fault Refusal :=
  .next (lrUnit s (Use.one vd va) vd (fun o => reverse32 o.a))

/-- The 32-bit immediate of a unit: LIMM[22:0] : imm9 when a LIMM precedes (R92). -/
def longImm (u : Issue) (imm9 : BitVec 9) (short : Word32) : Word32 :=
  match u.limm with
  | some h => h ++ imm9
  | none => short

/-- ADDI: va + sx(imm9), or va + the long immediate (R92, R124). -/
def execAddi (_tc : BitVec 2) (vd va : BitVec 7) (imm : BitVec 9) (s : State) :
    Host.Outcome State Fault Refusal :=
  .next (gated s { Use.one vd va with limm := true } (fun u _ th =>
    .run ((th.setReg vd.toNat (Reg.ofVal ((th.reg va.toNat).val +
      longImm u imm (imm.signExtend 32)))).goto u.next)))

/-- SHLI (R124). -/
def execShli (_tc : BitVec 2) (vd va : BitVec 7) (n : BitVec 5) (s : State) :
    Host.Outcome State Fault Refusal :=
  .next (lrUnit s (Use.one vd va) vd (fun o => shl32 o.a n.toNat))

/-- SHRI (R124). -/
def execShri (_tc : BitVec 2) (vd va : BitVec 7) (n : BitVec 5) (s : State) :
    Host.Outcome State Fault Refusal :=
  .next (lrUnit s (Use.one vd va) vd (fun o => shr32 o.a n.toNat))

/-- SARI (R124). -/
def execSari (_tc : BitVec 2) (vd va : BitVec 7) (n : BitVec 5) (s : State) :
    Host.Outcome State Fault Refusal :=
  .next (lrUnit s (Use.one vd va) vd (fun o => sar32 o.a n.toNat))

/-- RORI (R124). -/
def execRori (_tc : BitVec 2) (vd va : BitVec 7) (n : BitVec 5) (s : State) :
    Host.Outcome State Fault Refusal :=
  .next (lrUnit s (Use.one vd va) vd (fun o => ror32 o.a n.toNat))

/-- BFX (R127). -/
def execBfx (_tc : BitVec 2) (vd va vb : BitVec 7) (s : State) : Host.Outcome State Fault Refusal :=
  .next (lrUnit s (Use.ab vd va vb) vd (fun o => bfx o.a o.b))

/-- BFXU (R127). -/
def execBfxu (_tc : BitVec 2) (vd va vb : BitVec 7) (s : State) : Host.Outcome State Fault Refusal :=
  .next (lrUnit s (Use.ab vd va vb) vd (fun o => BitVec.ofNat 32 (bfField o.a o.b)))

/-- BFI: vd is an implicit source (R127). -/
def execBfi (_tc : BitVec 2) (vd va vb : BitVec 7) (s : State) : Host.Outcome State Fault Refusal :=
  .next (lrUnit s ((Use.ab vd va vb).implicit vd) vd (fun o => bfi o.a o.b o.d))

/-- PRMB (R128). -/
def execPrmb (_tc : BitVec 2) (vd va vb : BitVec 7) (s : State) : Host.Outcome State Fault Refusal :=
  .next (lrUnit s ((Use.ab vd va vb).withC) vd (fun o => prmb o.a o.b o.c))

/-- MOVI: sx(simm16), or the long immediate, whose MOVI word has bits [15:9] 0 (R92, R125). -/
def execMovi (_tc : BitVec 2) (vd : BitVec 7) (imm : BitVec 16) (s : State) :
    Host.Outcome State Fault Refusal :=
  .next (gated s { Use.plain with dst := [vd.toNat], limm := imm.extractLsb' 9 7 == 0 }
    (fun u _ th => .run ((th.setReg vd.toNat (Reg.ofVal
      (longImm u (imm.extractLsb' 0 9) (imm.signExtend 32)))).goto u.next)))

/-- MOVS: the uniform register sb, as it stood at the start of the cycle (R120, R126). -/
def execMovs (_tc : BitVec 2) (vd : BitVec 7) (sb : BitVec 8) (s : State) :
    Host.Outcome State Fault Refusal :=
  .next (lrUnit s { Use.plain with dst := [vd.toNat], roleB := true, sb := some sb.toNat } vd
    (fun o => o.b))

/-! ### Hatches -/

/-- Every thread of the group outside `ks` had exited before this cycle (R52): a thread that exits in
the cycle is EXITED at its end. -/
def othersExited (s : State) (g : Nat) (ks : List Nat) : Bool :=
  let leaving := match s.cyc with
    | some c => c.exiting
    | none => []
  s.threads.all (fun p => groupOf p.1 != g || ks.contains p.1 ||
    (p.2.exited && !leaving.contains p.1))

/-- A hatch of a group as it stood at the start of the cycle (R132). -/
def snapHatch (s : State) (g h : Nat) : Reg :=
  match s.cyc with
  | some c =>
    match c.snap.find g with
    | some x => x.hatch h
    | none => Reg.zero
  | none => Reg.zero

/-- Notes a hatch operation for the end of the cycle (R132). -/
def State.hatchOp (s : State) (op : HatchOp) : State :=
  s.modCyc (fun c => { c with hops := c.hops ++ [op] })

/-- The order of a put among those of one cycle: the uniform instruction's, then port A's, then port
B's; within a unit the highest lane index (R132). -/
def putOrder (port lane : Nat) : Nat :=
  8 * (if port = 2 then 2 else if port = 0 then 1 else 0) + lane

/-- HGET and HTAKE (R130): block on an empty hatch or take dead producer (R52), trap on a poisoned one,
else capture the value, which fills vd later (R119); a take empties the hatch at the end of the
cycle. -/
def hatchRead (s : State) (vd : BitVec 7) (h : Nat) (take : Bool) : State :=
  laneSeq s (fun u k th s' =>
    match gate s { Use.plain with dst := [vd.toNat] } u k th with
    | some a => (s', a)
    | none =>
      let r := snapHatch s (groupOf k) h
      if !r.full then
        if othersExited s (groupOf k) [k] then (s', .trap 8 (BitVec.ofNat 64 h))
        else (s', .wait (.hatch h false))
      else if r.poison then (s', .trap 7 0)
      else
        let d : Dest := .lanes k vd.toNat 1
        let s1 := s'.issueOp u.block [k] (.captured d r.val) []
        (if take then s1.hatchOp (.take (groupOf k) h) else s1,
          .run ((th.setReg vd.toNat (th.reg vd.toNat).emptied).goto u.next)))

/-- HGET (R130). -/
def execHget (_tc : BitVec 2) (vd : BitVec 7) (h : BitVec 8) (s : State) :
    Host.Outcome State Fault Refusal :=
  .next (hatchRead s vd h.toNat false)

/-- HTAKE (R130). -/
def execHtake (_tc : BitVec 2) (vd : BitVec 7) (h : BitVec 8) (s : State) :
    Host.Outcome State Fault Refusal :=
  .next (hatchRead s vd h.toNat true)

/-- HPUT: vs goes to the hatch at the end of the cycle (R131, R132). -/
def execHput (_tc : BitVec 2) (vs : BitVec 7) (h : BitVec 8) (s : State) :
    Host.Outcome State Fault Refusal :=
  .next (laneSeq s (fun u k th s' =>
    match gate s { Use.plain with imp := [vs.toNat] } u k th with
    | some a => (s', a)
    | none =>
      (s'.hatchOp (.put (groupOf k) h.toNat (putOrder u.port (laneOf k)) (th.reg vs.toNat).val),
        .run (th.goto u.next))))

/-! ### Lane special registers -/

/-- The value of a lane special register (R133). -/
def laneSpecial (s : State) (k n : Nat) : Word32 :=
  match s.blocks.find (blockOf k) with
  | none => 0
  | some b =>
    BitVec.ofNat 32 (match n with
      | 0 => laneOf k
      | 1 => indexOf k
      | 2 => indexOf k / 8
      | 3 => b.x
      | 4 => b.y
      | 5 => b.z
      | 6 => b.packet.gridx
      | 7 => b.packet.gridy
      | 8 => b.packet.gridz
      | 9 => b.packet.blockt
      | _ => b.packet.groups)

/-- RDLS (R133). -/
def execRdls (_tc : BitVec 2) (vd : BitVec 7) (n : BitVec 8) (s : State) :
    Host.Outcome State Fault Refusal :=
  .next (gated s { Use.plain with dst := [vd.toNat] } (fun u k th =>
    .run ((th.setReg vd.toNat (Reg.ofVal (laneSpecial s k n.toNat))).goto u.next)))

/-! ### Cross-lane instructions -/

/-- The cohort of a thread (R134): the threads of its group that execute the unit in the same gang. -/
def cohort (s : State) (use : Use) (u : Issue) (k : Nat) : List Nat :=
  u.lanes.filter (fun j => groupOf j == groupOf k &&
    match s.threads.find j with
    | some t => (gate s use u j t).isNone
    | none => false)

/-- va of a member of the cohort. -/
def memberA (s : State) (va : BitVec 7) (j : Nat) : Word32 :=
  match s.threads.find j with
  | some t => (t.reg va.toNat).val
  | none => 0

/-- The lane index that an XLN names (R135), exact. -/
def xlnIndex (kind : Nat) (i : Nat) (b : Word32) : Int :=
  match kind with
  | 0 => b.toNat
  | 1 => i ^^^ b.toNat
  | 2 => (i : Int) - b.toNat
  | _ => i + b.toNat

/-- The member of the cohort with a lane index. -/
def memberAt (ks : List Nat) (j : Int) : Option Nat := ks.find? (fun k => (laneOf k : Int) == j)

/-- The report of the hazard detector for an XLN unit (R138, R352): one for each group with a thread
whose index, from 0 to 7, names a thread outside its cohort. -/
def xlnReport (s : State) (use : Use) (kind : Nat) : State :=
  match s.unit with
  | none => s
  | some u =>
    let bad := u.lanes.filter (fun k =>
      match s.threads.find k with
      | none => false
      | some th =>
        let j := xlnIndex kind (laneOf k) (laneVals s use u k th).b
        (gate s use u k th).isNone && decide (0 ≤ j) && decide (j ≤ 7) &&
          (memberAt (cohort s use u k) j).isNone)
    let firsts := bad.filter (fun k => bad.all (fun j => groupOf j != groupOf k || decide (laneOf k ≤ laneOf j)))
    firsts.foldl (fun s k => s.hazard u.block k u.pc 5 [laneOf k, u.pc.toNat]) s

/-- XLN (R135). -/
def xlnUnit (s : State) (kind : Nat) (vd va vb : BitVec 7) : State :=
  let use := Use.ab vd va vb
  gated (xlnReport s use kind) use (fun u k th =>
    let v := laneVals s use u k th
    let r := match memberAt (cohort s use u k) (xlnIndex kind (laneOf k) v.b) with
      | some j => memberA s va j
      | none => v.a
    .run ((th.setReg vd.toNat (Reg.ofVal r)).goto u.next))

/-- XLN.IDX (R135). -/
def execXlnIdx (_tc : BitVec 2) (vd va vb : BitVec 7) (s : State) : Host.Outcome State Fault Refusal :=
  .next (xlnUnit s 0 vd va vb)

/-- XLN.XOR (R135). -/
def execXlnXor (_tc : BitVec 2) (vd va vb : BitVec 7) (s : State) : Host.Outcome State Fault Refusal :=
  .next (xlnUnit s 1 vd va vb)

/-- XLN.UP (R135). -/
def execXlnUp (_tc : BitVec 2) (vd va vb : BitVec 7) (s : State) : Host.Outcome State Fault Refusal :=
  .next (xlnUnit s 2 vd va vb)

/-- XLN.DN (R135). -/
def execXlnDn (_tc : BitVec 2) (vd va vb : BitVec 7) (s : State) : Host.Outcome State Fault Refusal :=
  .next (xlnUnit s 3 vd va vb)

/-- A value over the cohort's va that every member receives (R136, R137). -/
def cohortUnit (s : State) (use : Use) (vd va : BitVec 7) (f : Nat → List (Nat × Word32) → Word32) :
    State :=
  gated s use (fun u k th =>
    .run ((th.setReg vd.toNat (Reg.ofVal (f (modX u.modOr0).toNat
      ((cohort s use u k).map (fun j => (laneOf j, memberA s va j)))))).goto u.next))

/-- VOTE.ANY (R136). -/
def execVoteAny (_tc : BitVec 2) (vd va : BitVec 7) (s : State) : Host.Outcome State Fault Refusal :=
  .next (cohortUnit s (Use.one vd va) vd va (fun _ l => boolWord (l.any (fun p => p.2 != 0))))

/-- VOTE.ALL (R136). -/
def execVoteAll (_tc : BitVec 2) (vd va : BitVec 7) (s : State) : Host.Outcome State Fault Refusal :=
  .next (cohortUnit s (Use.one vd va) vd va (fun _ l => boolWord (l.all (fun p => p.2 != 0))))

/-- VOTE.BAL (R136). -/
def execVoteBal (_tc : BitVec 2) (vd va : BitVec 7) (s : State) : Host.Outcome State Fault Refusal :=
  .next (cohortUnit s (Use.one vd va) vd va (fun _ l =>
    BitVec.ofNat 32 (l.foldl (fun n p => n + if p.2 != 0 then 2 ^ p.1 else 0) 0)))

/-- The reduction of XRED by its xmod (R137). -/
def xredValue (x : Nat) (l : List Word32) : Word32 :=
  match l with
  | [] => 0
  | v :: rest =>
    match x with
    | 0 => rest.foldl (· + ·) v
    | 1 => rest.foldl sMin v
    | 2 => rest.foldl sMax v
    | 3 => rest.foldl (· &&& ·) v
    | _ => rest.foldl (· ||| ·) v

/-- XRED (R137). -/
def execXred (_tc : BitVec 2) (vd va : BitVec 7) (s : State) : Host.Outcome State Fault Refusal :=
  .next (cohortUnit s ((Use.one vd va).withX (fun x => decide (x ≤ 4))) vd va
    (fun x l => xredValue x (l.map (·.2))))

end Sys2Proof.Machine
end

