-- ==== Sys2Proof/Machine/Uniform.lean ====
section
/-! DEFINITION. Uniform major opcodes 0x00 to 0x0F, 0x18 and 0x19 (R202 to R218): arithmetic, compares,
branches, special registers, hatches, uniform memory, barrier allocation, traps and parking. -/

namespace Sys2Proof.Machine

/-! ### Arithmetic and moves -/

/-- A UR word: sd ← f sa sb (R204). -/
def urUnit (s : State) (sd sa sb : BitVec 8) (f : Word32 → Word32 → Word32) : State :=
  uniWrite s [sa.toNat, sb.toNat] sd (fun g => f (g.sreg sa.toNat).val (g.sreg sb.toNat).val)

/-- UADD (R204). -/
def execUadd (_tc : BitVec 2) (sd sa sb : BitVec 8) (s : State) :
    Host.Outcome State Fault Refusal :=
  .next (urUnit s sd sa sb (· + ·))

/-- USUB (R204). -/
def execUsub (_tc : BitVec 2) (sd sa sb : BitVec 8) (s : State) :
    Host.Outcome State Fault Refusal :=
  .next (urUnit s sd sa sb (· - ·))

/-- UAND (R204). -/
def execUand (_tc : BitVec 2) (sd sa sb : BitVec 8) (s : State) :
    Host.Outcome State Fault Refusal :=
  .next (urUnit s sd sa sb (· &&& ·))

/-- UOR (R204). -/
def execUor (_tc : BitVec 2) (sd sa sb : BitVec 8) (s : State) :
    Host.Outcome State Fault Refusal :=
  .next (urUnit s sd sa sb (· ||| ·))

/-- UXOR (R204). -/
def execUxor (_tc : BitVec 2) (sd sa sb : BitVec 8) (s : State) :
    Host.Outcome State Fault Refusal :=
  .next (urUnit s sd sa sb (· ^^^ ·))

/-- UMUL (R204). -/
def execUmul (_tc : BitVec 2) (sd sa sb : BitVec 8) (s : State) :
    Host.Outcome State Fault Refusal :=
  .next (urUnit s sd sa sb (· * ·))

/-- UMIN (R204). -/
def execUmin (_tc : BitVec 2) (sd sa sb : BitVec 8) (s : State) :
    Host.Outcome State Fault Refusal :=
  .next (urUnit s sd sa sb sMin)

/-- UMAX (R204). -/
def execUmax (_tc : BitVec 2) (sd sa sb : BitVec 8) (s : State) :
    Host.Outcome State Fault Refusal :=
  .next (urUnit s sd sa sb sMax)

/-- UADDI (R205). -/
def execUaddi (_tc : BitVec 2) (sd sa : BitVec 8) (imm : BitVec 8) (s : State) :
    Host.Outcome State Fault Refusal :=
  .next (uniWrite s [sa.toNat] sd (fun g => (g.sreg sa.toNat).val + imm.signExtend 32))

/-- The shift of USHI by its kind: shl, shr, sar, ror (R205). -/
def ushiValue (kind : Nat) (v : Word32) (n : Nat) : Word32 :=
  match kind with
  | 0 => shl32 v n
  | 1 => shr32 v n
  | 2 => sar32 v n
  | _ => ror32 v n

/-- USHI (R205). -/
def execUshi (_tc : BitVec 2) (sd sa : BitVec 8) (kind : BitVec 2) (n : BitVec 5) (s : State) :
    Host.Outcome State Fault Refusal :=
  .next (uniWrite s [sa.toNat] sd (fun g =>
    ushiValue kind.toNat (g.sreg sa.toNat).val n.toNat))

/-- UMOVI (R205). -/
def execUmovi (_tc : BitVec 2) (sd : BitVec 8) (imm : BitVec 16) (s : State) :
    Host.Outcome State Fault Refusal :=
  .next (uniWrite s [] sd (fun _ => imm.signExtend 32))

/-- UMOVH: the high half; sd is an implicit source (R205). -/
def execUmovh (_tc : BitVec 2) (sd : BitVec 8) (imm : BitVec 16) (s : State) :
    Host.Outcome State Fault Refusal :=
  .next (uniWrite s [sd.toNat] sd (fun g => imm ++ (g.sreg sd.toNat).val.extractLsb' 0 16))

/-! ### Compare and branch -/

/-- UCMP (R206). -/
def execUcmp (_tc : BitVec 2) (q : BitVec 3) (cc : BitVec 5) (sa sb : BitVec 8) (s : State) :
    Host.Outcome State Fault Refusal :=
  .next (uniUnit s [sa.toNat, sb.toNat] [] (fun _ => false) (fun u gk g =>
    .run (s.setGroup gk (g.setPred q.toNat
      (compareHolds cc.toNat (g.sreg sa.toNat).val (g.sreg sb.toNat).val))) u.next))

/-- UBR: every member goes the same way (R207). -/
def execUbr (_tc : BitVec 2) (cond : BitVec 3) (q : BitVec 3) (off : BitVec 18) (s : State) :
    Host.Outcome State Fault Refusal :=
  .next (uniUnit s [] [] (fun _ => false) (fun u _ g =>
    .run s (if uniformBranchHolds cond.toNat (g.pred q.toNat) then
      u.wordAddr + 4 * off.signExtend 64 else u.next)))

/-! ### Special registers -/

/-- The value of a uniform special register other than LREM (R208). -/
def State.uniSpecial (s : State) (b gk : Nat) (g : Group) (n : Nat) : Word64 :=
  match s.blocks.find b with
  | none => 0
  | some x =>
    let c := g.core
    match n with
    | 0 => (s.core c).cycle
    | 1 => (s.core c).etime
    | 2 => BitVec.ofNat 64 c
    | 3 => BitVec.ofNat 64 x.cluster
    | 4 => BitVec.ofNat 64 (dieOf x.cluster)
    | 5 => if s.sec.devLock then s.sec.devnum.setWidth 64 else 0
    | 6 => BitVec.ofNat 64 x.tenant
    | 7 => BitVec.ofNat 64 x.lin
    | 8 => BitVec.ofNat 64 x.launch
    | 9 => BitVec.ofNat 64 (gk % 2048)
    | 10 => g.gtag.setWidth 64
    | 11 => BitVec.ofNat 64 ((natRange 0 16).foldl (fun n i => n + if (g.hatch i).poison then 2 ^ i else 0) 0)
    | _ => 0

/-- URDSR: CYCLE and ETIME fill a pair with their values at the start of the cycle; LREM waits (R208). -/
def execUrdsr (_tc : BitVec 2) (sd : BitVec 8) (n : BitVec 12) (s : State) :
    Host.Outcome State Fault Refusal :=
  .next (
    let wide := decide (n.toNat < 2)
    let dsts := if wide then uniPair sd.toNat else [sd.toNat]
    uniUnit s [] dsts (fun _ => false) (fun u gk g =>
      if n = 0x010 then
        let d : Dest := .unis gk sd.toNat 1
        .run ((s.emptyDest d).issueOp u.block u.lanes (.lrem (s.launchOf u.block) d) []) u.next
      else
        let v := s.uniSpecial u.block gk g n.toNat
        let g1 := g.setSreg sd.toNat (Reg.ofVal (v.extractLsb' 0 32))
        .run (s.setGroup gk (if wide then g1.setSreg (sd.toNat + 1) (Reg.ofVal (v.extractLsb' 32 32))
          else g1)) u.next))

/-- Notes a write for the end of the cycle (R208). -/
def State.lateOp (s : State) (o : LateOp) : State := s.modCyc (fun c => { c with late := c.late ++ [o] })

/-- UWRSR GTAG: written at the end of the cycle (R208). -/
def execUwrsr (_tc : BitVec 2) (sa : BitVec 8) (_n : BitVec 12) (s : State) :
    Host.Outcome State Fault Refusal :=
  .next (uniUnit s [sa.toNat] [] (fun _ => false) (fun u gk g =>
    .run (s.lateOp (.gtag gk (g.sreg sa.toNat).val)) u.next))

/-- UWRSR HPOIS: the hatches named become full and poisoned at the end of the cycle (R209). -/
def execHpois (_tc : BitVec 2) (sa : BitVec 8) (s : State) :
    Host.Outcome State Fault Refusal :=
  .next (uniUnit s [sa.toNat] [] (fun _ => false) (fun u gk g =>
    let v := (g.sreg sa.toNat).val
    .run ((natRange 0 16).foldl (fun s i => if v.getLsbD i then s.hatchOp (.poison gk i) else s) s)
      u.next))

/-- Sets whether a group is attached to a FIFO, and the FIFO's count (R210), which goes on above 2,048 (assumption 139). -/
def State.attach (s : State) (gk cl i : Nat) (on : Bool) : State :=
  match s.groups.find gk with
  | none => s
  | some g =>
    if g.attach.contains i = on then s
    else
      let s1 := s.setGroup gk { g with
        attach := if on then g.attach ++ [i] else g.attach.filter (· != i) }
      s1.modCluster cl (fun c =>
        let n := c.attached.getD i 0
        { c with attached := c.attached.put 0 i (if on then n + 1 else n - 1) })

/-- FATTACH and FDETACH act at the end of the cycle (R208, R210): a bank that is not a FIFO is an access fault with
TVAL = b. -/
def attachUnit (s : State) (sa : BitVec 8) (on : Bool) : State :=
  uniUnit s [sa.toNat] [] (fun _ => false) (fun u gk g =>
    let v := (g.sreg sa.toNat).val
    let cl := s.clusterOfBlock u.block
    if decide (47 < v.toNat) || (s.cluster cl).bankMode v.toNat != 2 then .trap 4 (tvalWord v)
    else .run (s.lateOp (.attach gk cl v.toNat on)) u.next)

/-- UWRSR FATTACH (R210). -/
def execFattach (_tc : BitVec 2) (sa : BitVec 8) (s : State) :
    Host.Outcome State Fault Refusal :=
  .next (attachUnit s sa true)

/-- UWRSR FDETACH (R210). -/
def execFdetach (_tc : BitVec 2) (sa : BitVec 8) (s : State) :
    Host.Outcome State Fault Refusal :=
  .next (attachUnit s sa false)

/-! ### Hatches, UNOP and UYIELD -/

/-- UHPUT (R211). -/
def execUhput (_tc : BitVec 2) (sa : BitVec 8) (h : BitVec 4) (s : State) :
    Host.Outcome State Fault Refusal :=
  .next (uniUnit s [sa.toNat] [] (fun _ => false) (fun u gk g =>
    .run (s.hatchOp (.put gk h.toNat (putOrder 2 0) (g.sreg sa.toNat).val)) u.next))

/-- UHGET and UHTAKE (R211, R130, R52). -/
def uniHatchRead (s : State) (sd : BitVec 8) (h : Nat) (take : Bool) : State :=
  uniUnit s [] [sd.toNat] (fun _ => false) (fun u gk _ =>
    let r := snapHatch s gk h
    if !r.full then
      if othersExited s gk u.lanes then .trap 8 (BitVec.ofNat 64 h) else .stay s (.hatch h true)
    else if r.poison then .trap 7 0
    else
      let d : Dest := .unis gk sd.toNat 1
      let s1 := (s.emptyDest d).issueOp u.block u.lanes (.captured d r.val) []
      .run (if take then s1.hatchOp (.take gk h) else s1) u.next)

/-- UHGET (R211). -/
def execUhget (_tc : BitVec 2) (sd : BitVec 8) (h : BitVec 4) (s : State) :
    Host.Outcome State Fault Refusal :=
  .next (uniHatchRead s sd h.toNat false)

/-- UHTAKE (R211). -/
def execUhtake (_tc : BitVec 2) (sd : BitVec 8) (h : BitVec 4) (s : State) :
    Host.Outcome State Fault Refusal :=
  .next (uniHatchRead s sd h.toNat true)

/-- UNOP (R212). -/
def execUnop (_tc : BitVec 2) (s : State) :
    Host.Outcome State Fault Refusal :=
  .next (uniUnit s [] [] (fun _ => false) (fun u _ _ => .run s u.next))

/-- UYIELD: every member is DEFERRED (R56, R212). -/
def execUyield (_tc : BitVec 2) (s : State) :
    Host.Outcome State Fault Refusal :=
  .next (uniUnit s [] [] (fun _ => false) (fun u _ _ =>
    .gone (s.modThreads u.lanes (fun th => { th.goto u.next with st := .deferred 64 }))))

/-! ### Uniform memory -/

/-- A 64-bit value in a uniform pair (R213). -/
def Group.pair (g : Group) (r : Nat) : Word64 := (g.sreg (r + 1)).val ++ (g.sreg r).val

/-- Every member parks with one translation fault (R213, R315). -/
def parkSet (s : State) (u : Issue) (acc : Nat) (f : XFault) (ea : Word64) : UniRes :=
  .gone ((s.sendFault (u.lanes.headD 0) u.pc acc f true).modThreads u.lanes
    (fun th => { th with st := .parked (.xlate s.freshId ea false) }))

/-- A debug comparator that an arrival set's access meets (R350): the named thread halts, and the word
is picked again without it; a match of others leaves its records when the access does not wait. -/
def uniCompare (s : State) (u : Issue) (kind : Nat) (ea : Word64) (n : Nat) (go : State → UniRes) :
    UniRes :=
  match u.lanes.find? (fun k => s.comparatorHalts (s.coreOfThread k) k [kind] ea.toNat n) with
  | some k => .hold (s.modThread k (fun th => { th with st := .parked .debug }))
  | none =>
    let note := fun (s : State) => u.lanes.foldl (fun s k =>
      s.comparatorRecord (s.coreOfThread k) u.block k u.pc [kind] ea.toNat n) s
    match go s with
    | .run s1 pc => .run (note s1) pc
    | .gone s1 => .gone (note s1)
    | .trap c v => .trapIn (note s) c v
    | .trapIn s1 c v => .trapIn (note s1) c v
    | r => r

/-- What becomes of the arrival set when a FIFO access does not go on. -/
def uniAct (s : State) : LaneAct → UniRes
  | .wait w => .stay s w
  | .trap c v => .trap c v
  | _ => .hold s

/-- ULD: one access for the arrival set (R213, R214). -/
def uniLoad (s : State) (n : Nat) (sd : BitVec 8) (p : BitVec 7) (ord : BitVec 2) (scope : BitVec 3) :
    State :=
  let regs := n / 4
  uniUnit s (uniPair (2 * p.toNat)) (natRange sd.toNat regs) (fun _ => false) (fun u gk g =>
    let b := u.block
    let ea := g.pair (2 * p.toNat)
    let d : Dest := .unis gk sd.toNat regs
    let o := ord.toNat
    let sc := scope.toNat
    uniCompare s u 1 ea n (fun s =>
      match s.reach b none ea n permR (accessPlace o sc) (n == 4) true with
      | (_, .trap c) => .trap c ea
      | (s1, .fault f) => parkSet s1 u accLoad f ea
      | (_, .priv _) => .trap 4 ea
      | (s1, .fifo i) =>
        match s1.popFifo (s1.clusterOfBlock b) i u.lanes ea with
        | .error a => uniAct s1 a
        | .ok (s2, v) =>
          let s3 := (s2.emptyDest d).issueOp b u.lanes (.captured d v) []
          .run (if o = 2 then s3.fenceOp b u.lanes 1 sc [] else s3) u.next
      | (s1, .mem site a ro) =>
        match s1.rangeWait b site a n false with
        | some w => .stay s1 w
        | none =>
          .run (s1.beginLoad b u.lanes site (pieces a n (decide (o ≠ 0))) false d ro o sc) u.next))

/-- UST: one access for the arrival set (R213, R214). -/
def uniStore (s : State) (n : Nat) (sa : BitVec 8) (p : BitVec 7) (ord : BitVec 2) (scope : BitVec 3) :
    State :=
  let regs := natRange sa.toNat (n / 4)
  uniUnit s (regs ++ uniPair (2 * p.toNat)) [] (fun _ => false) (fun u _ g =>
    let b := u.block
    let cl := s.clusterOfBlock b
    let ea := g.pair (2 * p.toNat)
    let data := regs.flatMap (fun r => leBytes (g.sreg r).val.toNat 4)
    let o := ord.toNat
    let sc := scope.toNat
    uniCompare s u 2 ea n (fun s =>
      match s.reach b none ea n permW (accessPlace o sc) (n == 4) true with
      | (_, .trap c) => .trap c ea
      | (s1, .fault f) => parkSet s1 u accStore f ea
      | (_, .priv _) => .trap 4 ea
      | (s1, .fifo i) =>
        match s1.pushFifo cl i u.lanes (BitVec.ofNat 32 (leNat data)) (o == 3) sc with
        | .error a => uniAct s1 a
        | .ok s2 => .run (if o = 3 ∧ scopeCluster ≤ sc then s2.writeBackGlobal cl else s2) u.next
      | (s1, .mem site a _) =>
        match s1.rangeWait b site a n true with
        | some w => .stay s1 w
        | none => .run (s1.beginStore b u.lanes site (pieces a n (decide (o ≠ 0))) data o sc) u.next))

/-- ULD.32; in the FIFO window, a pop (R213). -/
def execUld32 (_tc : BitVec 2) (sd : BitVec 8) (p : BitVec 7) (ord : BitVec 2) (scope : BitVec 3) (s : State) :
    Host.Outcome State Fault Refusal :=
  .next (uniLoad s 4 sd p ord scope)

/-- ULD.64 (R213). -/
def execUld64 (_tc : BitVec 2) (sd : BitVec 8) (p : BitVec 7) (ord : BitVec 2) (scope : BitVec 3) (s : State) :
    Host.Outcome State Fault Refusal :=
  .next (uniLoad s 8 sd p ord scope)

/-- UST.32; in the FIFO window, a push (R213). -/
def execUst32 (_tc : BitVec 2) (sa : BitVec 8) (p : BitVec 7) (ord : BitVec 2) (scope : BitVec 3) (s : State) :
    Host.Outcome State Fault Refusal :=
  .next (uniStore s 4 sa p ord scope)

/-- UST.64 (R213). -/
def execUst64 (_tc : BitVec 2) (sa : BitVec 8) (p : BitVec 7) (ord : BitVec 2) (scope : BitVec 3) (s : State) :
    Host.Outcome State Fault Refusal :=
  .next (uniStore s 8 sa p ord scope)

/-! ### Barrier allocation -/

/-- Barrier objects of a core, or of a cluster unit for its spanning blocks (R215). -/
def objMax : Nat := 2048

/-- The objects in use where a block's objects live (R215). -/
def State.objsUsed (s : State) (x : Block) : Nat :=
  s.blocks.foldl (fun n p =>
    if p.2.st != .saved && p.2.cluster == x.cluster && p.2.core == x.core then n + p.2.objs.length
    else n) 0

/-- BALLOC's result and effect (R215). -/
def State.balloc (s : State) (b n : Nat) : State × Word32 :=
  match s.blocks.find b with
  | none => (s, 0)
  | some x =>
    if (x.objs.find n).isSome then (s, 0)
    else if objMax ≤ s.objsUsed x then (s, 0xFFFF_FFFF)
    else ((s.forgetLeaves b n).setBlock b { x with objs := x.objs.set n (s.newBar b) }, 1)

/-- Index 2,047 of a COOPERATIVE launch is an illegal instruction here (R342). -/
def launchIndex (n : BitVec 11) (b : Block) : Bool := b.packet.cooperative && n == 2047

/-- Such an index, or one of which the block holds no object (R216). -/
def unheldIndex (n : BitVec 11) (b : Block) : Bool := launchIndex n b || (b.objs.find n.toNat).isNone

/-- BALLOC: at once on one core, before the cycle's lane units (assumption 110); on a spanning block the members wait for the cluster unit (R215). -/
def execBalloc (_tc : BitVec 2) (sd : BitVec 8) (n : BitVec 11) (s : State) :
    Host.Outcome State Fault Refusal :=
  .next (uniUnit s [] [sd.toNat] (launchIndex n) (fun u gk _ =>
    if s.barRemote u.block n.toNat then .stay s.bumpId (.balloc n.toNat sd.toNat s.freshId)
    else
      let r := s.balloc u.block n.toNat
      .run (r.1.modGroup gk (fun g => g.setSreg sd.toNat (Reg.ofVal r.2))) u.next))

/-- BFREE (R216): of a spanning block it acts on the cluster unit's object in the cycle of its execution (assumption
109). -/
def execBfree (_tc : BitVec 2) (n : BitVec 11) (s : State) :
    Host.Outcome State Fault Refusal :=
  .next (uniUnit s [] [] (unheldIndex n) (fun u _ _ => .run (s.freeBar u.block n.toNat) u.next))

/-- BINIT.all (R216). -/
def execBinitAll (_tc : BitVec 2) (n : BitVec 11) (s : State) :
    Host.Outcome State Fault Refusal :=
  .next (uniUnit s [] [] (unheldIndex n) (fun u _ _ =>
    .run ((s.forgetLeaves u.block n.toNat).modBar u.block n.toNat (fun o =>
      { o with count := false, e := s.liveThreads u.block })) u.next))

/-- BINIT.count (R216): an index that is not held comes before the operand's own checks (R51). -/
def execBinitCount (_tc : BitVec 2) (sa : BitVec 8) (n : BitVec 11) (s : State) :
    Host.Outcome State Fault Refusal :=
  .next (uniUnit s [sa.toNat] [] (unheldIndex n) (fun u _ g =>
    let v := (g.sreg sa.toNat).val.toNat
    if v == 0 || decide (barMax < v) then .trap 1 (tvalWord u.word)
    else .run (s.modBar u.block n.toNat (fun o => { o with count := true, e := v })) u.next))

/-! ### Traps and parking -/

/-- UTRAP: cause 11 in every member (R217); it executes, so that the hazard detector reports a partial set (R45). -/
def execUtrap (_tc : BitVec 2) (code : BitVec 12) (s : State) :
    Host.Outcome State Fault Refusal :=
  .next (uniUnit s [] [] (fun _ => false) (fun u _ _ =>
    .gone (s.trapAll u.lanes 11 u.pc (code.setWidth 64))))

/-- UPARK: every member parks, and one record of kind 4 is posted (R218). -/
def execUpark (_tc : BitVec 2) (sa : BitVec 8) (code : BitVec 12) (s : State) :
    Host.Outcome State Fault Refusal :=
  .next (uniUnit s [sa.toNat] [] (fun _ => false) (fun u gk g =>
    let id := s.freshId
    let r := { s.groupRec 4 gk u.pc with
      info := code.setWidth 32
      info2 := tvalWord (g.sreg sa.toNat).val }
    .gone ((s.bumpId.modThreads u.lanes (fun th => { th with st := .parked (.upark id code) })).postOpen
      (s.tenantOfBlock u.block) r 0 u.block (.agents [id] []))))

end Sys2Proof.Machine
end

