-- ==== Sys2Proof/Machine/Kill.lean ====
section
/-! DEFINITION. How blocks and launches end: retirement (R30, R31, R196, R321), kill and relaunch (R316,
R317), and cancel (R33). -/

namespace Sys2Proof.Machine

/-! ### Levels of the completion table (R30) -/

/-- A level's counter falls by one; at 0 the level retires and its parent's falls (R30). -/
def State.decLevel (s : State) (i level : Nat) : Nat → State
  | 0 => s
  | fuel + 1 =>
    match s.entry i with
    | some e =>
      if e.live && e.level == level && e.counter != 0 then
        let s1 := s.modEntry i (fun e => { e with counter := e.counter - 1 })
        if e.counter = 1 then
          State.decLevel (s1.modEntry i (fun e => { e with live := false })) e.parent (level + 1) fuel
        else s1
      else s
    | none => s

/-- A launch retires (R30, R32, R317): one that failed writes a record of kind 11 and keeps no successor;
the others' successors wait for their release. Its parent's counter falls by one. -/
def State.retireLaunch (s : State) (l : Nat) : State :=
  match s.entry l with
  | none => s
  | some e =>
    let s1 := s.modEntry l (fun e =>
      { e with live := false, barrier := none, succ := if e.failed then [] else e.succ })
    let s2 := if e.failed then
        s1.postRecord e.tenant { FaultRec.blank 11 e.tenant with launch := l, info := BitVec.ofNat 32 l }
      else s1
    s2.decLevel e.parent 1 3

/-- One of a launch's blocks has retired, or has failed (R30, R317). -/
def State.blockDone (s : State) (l : Nat) (failed : Bool) : State :=
  match s.entry l with
  | none => s
  | some e =>
    if !e.live || e.level != 0 then s
    else
      let s1 := s.modEntry l (fun e => { e with failed := e.failed || failed })
      if e.counter = 0 then s1.retireLaunch l
      else s1.modEntry l (fun e => { e with counter := e.counter - 1 })

/-! ### Answers to parked threads (R218, R308, R315) -/

/-- A parked thread is resumed: it executes its unit again, or goes on after its UPARK (R218, R315). -/
def Thread.resume (th : Thread) : Thread :=
  match th.st with
  | .parked (.upark _ _) => { th with pc := th.pc + 4, st := .ready }
  | _ => { th with st := .ready }

/-- A parked thread is aborted: cause 12 with its address, or cause 11 with the code of its UPARK (R218,
R315). -/
def State.abortThread (s : State) (k : Nat) : State :=
  match s.threads.find k with
  | none => s
  | some th =>
    match th.st with
    | .parked (.xlate _ ea _) => s.takeTrap k 12 th.pc ea
    | .parked (.upark _ code) => s.takeTrap k 11 th.pc (code.setWidth 64)
    | _ => s

/-- An answer takes effect on a parked thread (R218, R315). -/
def State.settleThread (s : State) (k : Nat) (resume : Bool) : State :=
  if resume then s.modThread k Thread.resume else s.abortThread k

/-- The answers that came for a block's threads during its save take effect at its restore (R315, R319). -/
def State.settleLate (s : State) (b : Nat) : State :=
  (s.desk.late.filter (fun p => blockOf p.1 == b)).foldl (fun s p => s.settleThread p.1 p.2)
    (s.modDesk (fun d => { d with late := d.late.filter (fun p => blockOf p.1 != b) }))

/-! ### Leaving a cluster -/

/-- Every attachment of a block's groups is detached (R210). -/
def State.detachBlock (s : State) (b : Nat) : State :=
  (s.blockGroups b).foldl (fun s g =>
    match s.groups.find g with
    | some x => x.attach.foldl (fun s i => s.attach g (s.clusterOfBlock b) i false) s
    | none => s) s

/-- A block's scoreboard entries go (R264). -/
def State.releaseEntries (s : State) (b : Nat) : State :=
  s.modCluster (s.clusterOfBlock b) (fun c => { c with rsb := c.rsb.filter (fun e => e.block != b) })

/-- A block's scoreboard entries and waiting table readings go (R264). -/
def State.releaseRanges (s : State) (b : Nat) : State :=
  (s.releaseEntries b).modCluster (s.clusterOfBlock b) (fun c =>
    { c with segReqs := c.segReqs.filter (fun q => blockOfGroup q.group != b) })

/-- A block's private slabs are gone: their lines are discarded without write-back (R263). -/
def State.dropSlabs (s : State) (b : Nat) : State :=
  let mine := inSlabs (s.blockGroups b)
  { s.dropBytes (s.clusterOfBlock b) mine with mem := s.mem.filter (fun p => !mine p.1) }

/-- The block, its groups and its threads are gone, with their registers, barrier objects, private slabs
and scratch. -/
def State.removeBlock (s : State) (b : Nat) : State :=
  { s.dropSlabs b with
    threads := s.threads.filter (fun p => blockOf p.1 != b)
    groups := s.groups.filter (fun p => blockOfGroup p.1 != b)
    blocks := s.blocks.erase b }

/-- The operation belongs to the block's threads. -/
def MemOp.ofBlock (o : MemOp) (b : Nat) : Bool := !o.members.isEmpty && o.block == b

/-- Messages of the block's threads to the launch barrier that are still on their way reach it (R342). -/
def State.deliverLaunch (s : State) (b : Nat) : State :=
  s.inflight.foldl (fun s o =>
    if o.ofBlock b then
      match o.act with
      | .leave true _ => s.reduceLaunch (s.launchOf b) 1
      | .arrival i n _ _ => if s.isLaunchBar b i then s.countArrival b i n [] else s
      | _ => s
    else s) s

/-- The block can retire (R31): every thread has exited, every counter is 0, and the accesses of its
threads are performed (R196; assumption 37). A block whose save is under way retires as well. -/
def State.canRetire (s : State) (b : Nat) : Bool :=
  match s.blocks.find b with
  | none => false
  | some x =>
    x.st != .saved &&
    s.threads.all (fun p => blockOf p.1 != b || p.2.exited) &&
    s.groups.all (fun p => blockOfGroup p.1 != b || (natRange 0 6).all (fun c => p.2.counter c == 0)) &&
    !s.inflight.any (fun o => o.ofBlock b && (o.act.isAccess || o.act.isFence))

/-- What a block leaves in its scratch (R321): its core scratch lies in its core, or in the first core of the cluster
that it spans (R35). -/
def Block.leaves (x : Block) : List Freed :=
  (if x.lmem.isEmpty then [] else [⟨x.tenant, none, x.lparts, x.lmem⟩]) ++
  (if x.cmem.isEmpty then [] else [⟨x.tenant, some (x.core.getD (4 * x.cluster)), [], x.cmem⟩])

/-- A block retires (R31, R196, R321): its writes reach home, its scratch is freed as it stands, and its
launch counts it. -/
def State.retireBlock (s : State) (b : Nat) : State :=
  match s.blocks.find b with
  | none => s
  | some x =>
    let s1 := (((s.deliverLaunch b).writeBackGlobal x.cluster).detachBlock b).releaseRanges b
    let s2 := s1.modCluster x.cluster (fun c => { c with freed := c.freed ++ x.leaves })
    let s3 := { s2 with inflight := s2.inflight.filter (fun o => !o.ofBlock b || (match o.act with
      | .lmode .. => true
      | _ => false)) }
    (s3.removeBlock b).blockDone x.launch false

/-- A block retires as soon as it can. -/
def State.retireIfDone (s : State) (b : Nat) : State := if s.canRetire b then s.retireBlock b else s

/-! ### Engine work of a block -/

/-- An item belongs to an engine operation of the block, or is its RESTORE item. -/
def State.ownsItem (s : State) (b : Nat) (it : Item) : Bool :=
  match it.owner with
  | .engine op _ =>
    match s.ops.find op with
    | some o => o.block == b
    | none => false
  | .restore x => x == b
  | _ => false

/-- What the copy engine's running item still does when its block is killed (R316): a CPY segment goes on to
its end, and an SCT does some of its rows. -/
def State.settleCopy (s : State) (b : Nat) : State :=
  match (s.cluster (s.clusterOfBlock b)).copy with
  | none => s
  | some r =>
    match r.item.owner with
    | .engine op _ =>
      match s.ops.find op with
      | some o =>
        if o.block != b then s
        else
          let s1 :=
            if o.cls = 2 then
              match s.cpyRead o r.todo with
              | .ok got => ((s.drawn.engRequests b (o.cpyReads r.todo)).engWrites b (r.writes ++ got)).1
              | .error _ => s
            else if o.cls = 4 then
              (State.engRows o s.drawn (s.rowsWith o r.todo (pickAny s.freeCtr r.todo).1)).1
            else s
          s1.modCluster o.cluster (fun c => { c with copy := none })
      | none => s
    | _ => s

/-- The packet carries out an item that a test names. -/
def HeldPkt.carries (h : HeldPkt) (mine : Item → Bool) : Bool := h.work.any (fun w => mine w.1)

/-- What an answer acts on, without the items that have gone. -/
def Answerable.without (mine : Item → Bool) (w : Answerable) : Answerable :=
  match w with
  | .agents ms items => .agents ms (items.filter (fun p => !mine p.1))
  | w => w

/-- A Pan's or a Grainer's run is dropped when its item belongs to the block. -/
def dropRun (mine : Item → Bool) (r : Option EngRun) : Option EngRun :=
  match r with
  | some x => if mine x.item then none else some x
  | none => none

/-- The block's items leave every queue, its engine-queue entries are discarded, and running items stop
(R316, step 2). -/
def State.dropEngines (s : State) (b : Nat) : State :=
  let s0 := s.settleCopy b
  let mine := s0.ownsItem b
  let cl := s0.clusterOfBlock b
  let held := (s0.queued (fun q => mine q.item)).map (·.item) ++
    (s0.tree.repush.map (·.item)).filter mine ++
    ((s0.cluster cl).pan.toList ++ (s0.cluster cl).grn.toList).filterMap (fun r =>
      if mine r.item then some r.item else none)
  let s1 := held.foldl (fun s it => s.releaseStage cl it) s0
  let s2 := s1.dropItems (fun q => mine q.item)
  let s3 := s2.modTree (fun t =>
    { t with
      repush := t.repush.filter (fun e => !mine e.item)
      frozen := t.frozen.filter (fun e => e.1 != b) })
  let s4 := s3.modCluster cl (fun c =>
    { c with
      pan := dropRun mine c.pan
      grn := dropRun mine c.grn
      engQ := c.engQ.filter (fun i =>
        match s3.ops.find i with
        | some o => o.block != b
        | none => false) })
  let s5 := s4.modDesk (fun d =>
    { d with
      msgs := d.msgs.filter (fun m =>
        match m.engine with
        | some (it, _) => !mine it
        | none => true)
      open_ := (d.open_.map (fun r => { r with what := r.what.without mine })).filter (fun r =>
        match r.what with
        | .block x => x != b
        | _ => true)
      late := d.late.filter (fun p => blockOf p.1 != b) })
  let s6 := s5.modIo (fun io => { io with waitPkts := io.waitPkts.filter (fun p => !p.carries mine) })
  { s6 with ops := s6.ops.filter (fun p => p.2.block != b) }

/-! ### Kill (R316, R317) -/

/-- The place outlasts a killed block: it is global data or the host window. -/
def awayFrom (site : Site) (a : Nat) : Bool :=
  (site == .larder || site == .home || site == .fabricUnit || site == .hostWindow) && !inPool a

/-- An access of a killed block is performed: by free choice, one for all the parts of the access, and in whole once one
part has been (R316, step 1). -/
def MemOp.kept (o : MemOp) (seed : Nat) : Bool :=
  o.begun || Config.freeAt seed (2 ^ 20 * o.slot + indexOf (o.members.headD 0)) % 2 == 0

/-- An access that a killed block had issued: performed whole, later or now, or not at all, by free
choice; what would only fill a register is discarded (R316, step 1). -/
def State.killOp (s : State) (b seed : Nat) (o : MemOp) : State :=
  let keep := o.kept seed
  match o.act with
  | .store site a _ => if awayFrom site a && keep then s else s.retireOp o.id
  | .atom site a _ _ _ _ _ => if awayFrom site a && keep then s else s.retireOp o.id
  | .rowWrite op r loc =>
    (if keep then s.applyRowWrite o.cluster op r (s.scratchRead loc.block loc.core loc.off (2 ^ r.k))
     else s).retireOp o.id
  | .rowData _ _ _ => if keep then s else s.retireOp o.id
  | .hallAtom .. => if keep then s else s.retireOp o.id
  | .hostFlush _ => s
  | .hostWait _ => s
  | .arrival i n _ _ =>
    (if s.isLaunchBar b i && keep then s.countArrival b i n [] else s).retireOp o.id
  | .leave true _ => (s.reduceLaunch (s.launchOf b) 1).retireOp o.id
  | .writeBack _ => s
  | .invalidate _ => s
  | .lmode _ _ _ => s
  | _ => s.retireOp o.id

/-- The memory operations of a killed block. -/
def State.killFlight (s : State) (b : Nat) : State :=
  s.inflight.foldl (fun s' o => if o.ofBlock b then s'.killOp b s.freeCtr o else s') s.drawn

/-- The record of a kill (R308, R354): cause, and for cause 3 the group, the unit address and INFO2. -/
def State.killRec (s : State) (b cause : Nat) (at_ : Option (Nat × Word64 × Word64)) : FaultRec :=
  let r := match at_ with
    | some (g, pc, i2) => { s.groupRec 10 g pc with info2 := i2 }
    | none => s.blockRec 10 b
  { r with info := BitVec.ofNat 32 cause }

/-- A block is killed (R316): `at_` names the place of a parameter fault. Then the block fails, awaits its
relaunch, or is pushed again (R317). -/
def State.killBlockAt (s : State) (b cause : Nat) (at_ : Option (Nat × Word64 × Word64)) : State :=
  match s.blocks.find b with
  | none => s
  | some x =>
    let r := s.killRec b cause at_
    let live := s.liveThreads b
    let s1 := (((s.killFlight b).reduceLaunch x.launch live).dropEngines b).detachBlock b
    let s2 := (s1.releaseRanges b).removeBlock b
    if cause = 7 then s2.repush b { x.item with owner := .block x.launch x.lin } none
    else if cause = 6 then s2.blockDone x.launch true
    else if cause = 1 ∧ x.packet.restartable then
      s2.postOpen x.tenant r 0 b (.relaunch x.launch x.lin x.item)
    else (s2.postRecord x.tenant r).blockDone x.launch true

/-- A block is killed for a cause that names no instruction (R316). -/
def State.killBlock (s : State) (b cause : Nat) : State := s.killBlockAt b cause none

/-- The relaunch of a killed block (R317): its BLOCK item is pushed again. -/
def State.relaunch (s : State) (l lin : Nat) (it : Item) : State :=
  match s.entry l with
  | some e => if e.live then s.repush 0 { it with owner := .block l lin } none else s
  | none => s

/-! ### Cancel (R33) -/

/-- Entry `i` stands beneath entry `top`, or is it. -/
def State.beneath (s : State) (top : Nat) : Nat → Nat → Bool
  | 0, _ => false
  | fuel + 1, i =>
    i == top ||
    (match s.entry i with
     | some e => e.parent != 0 && State.beneath s top fuel e.parent
     | none => false)

/-- The item is of one of the launches: a BLOCK or LAUNCH item, or a RESTORE item of one of their blocks. -/
def State.itemOf (s : State) (ls : List Nat) (it : Item) : Bool :=
  match it.owner with
  | .block l _ => ls.contains l
  | .launch l => ls.contains l
  | .restore b => ls.contains (s.launchOf b)
  | _ => false

/-- A cancel of a live level (R33): nothing beneath is admitted again, queued items are dropped, resident
and saved blocks are killed, the counters beneath become 0 without successors, and the level retires. -/
def State.cancelLevel (s : State) (level i : Nat) : State :=
  match s.entry i with
  | none => s
  | some top =>
    if !top.live || top.level != level then s
    else
      let under := s.tree.entries.filter (fun p => p.2.live && s.beneath i 4 p.1)
      let ls := (under.filter (fun p => p.2.level == 0)).map (·.1)
      let s1 := under.foldl (fun s p => s.modEntry p.1 (fun e =>
        { e with live := false, cancelled := true, counter := 0, succ := [], barrier := none })) s
      let s2 := (s1.dropItems (fun q => s1.itemOf ls q.item)).modTree (fun t =>
        { t with
          slots := t.slots.filter (fun p => !ls.contains p.2.launch)
          repush := t.repush.filter (fun e => !s1.itemOf ls e.item)
          completions := t.completions.filter (fun c => !ls.contains c.1)
          pendings := t.pendings.filter (fun p => !ls.contains p.launch)
          reads := t.reads.filter (fun r =>
            match r.path with
            | .successor l => !ls.contains l
            | _ => true) })
      let s3 := s2.modDesk (fun d => { d with open_ := d.open_.filter (fun r =>
        match r.what with
        | .relaunch l _ _ => !ls.contains l
        | _ => true) })
      let gone := s3.tree.replicas.filter (fun r => ls.contains r.launch)
      let s3 := (gone.foldl (fun s r => (r.set.filter (· != s.self)).foldl (fun s d =>
        s.tell d r.tenant (.drop r.gen)) s) s3).modTree (fun t =>
          { t with replicas := t.replicas.filter (fun r => !ls.contains r.launch) })
      let replies := under.filterMap (fun p =>
        match p.2.reply with
        | some (.aqi a tag compl _) => some (a, p.2.tenant, compl, tag, p.1)
        | _ => none)
      let s3 := (under.foldl (fun s p => s.modEntry p.1 (fun e => { e with reply := none })) s3)
      let s3 := replies.foldl (fun s r => s.completeAqi r.1 r.2.1 r.2.2.1 r.2.2.2.1 0 r.2.2.2.2) s3
      let s4 := gone.foldl (fun s r => s.replicaDone r 3) s3
      let dead := (s4.blocks.filter (fun p => ls.contains p.2.launch)).map (·.1)
      (dead.foldl (fun s b => s.killBlock b 6) s4).decLevel top.parent (level + 1) 3

/-- A cancel by a tenant (R242, R332): an entry of another tenant is left alone. -/
def State.cancelBy (s : State) (tenant level i : Nat) : State :=
  match s.entry i with
  | some e => if e.tenant = tenant then s.cancelLevel level i else s
  | none => s

/-- A cancel is requested (R33, R242); it takes effect later. -/
def State.requestCancel (s : State) (tenant level i : Nat) : State :=
  s.modTree (fun t => { t with cancels := t.cancels ++ [(tenant, level, i)] })

/-- CANCEL: a cancel that was requested takes effect (R33). -/
def execCancel (tenant : Nat) (level : BitVec 2) (index : Nat) (s : State) :
    Host.Outcome State Fault Refusal :=
  .next (
    if s.tree.cancels.contains (tenant, level.toNat, index) then
      (s.modTree (fun t => { t with cancels := t.cancels.erase (tenant, level.toNat, index) })).cancelBy
        tenant level.toNat index
    else s)

end Sys2Proof.Machine
end

