-- ==== Sys2Proof/Machine/Admit.lean ====
section
/-! DEFINITION. Work enters the machine: launch packets (R115, R116, R36, R353), replicated launches (R290),
the launch unit (R285), moves down the tree (R279, R287), admission and residency (R34, R35, R259, R286,
R321), pre-emption, save and restore (R288, R318 to R320), and successors (R32, R240). -/

namespace Sys2Proof.Machine

/-! ### Launch packets (R115, R116, R36) -/

/-- Bytes of a core store (R18). -/
def storeMax : Nat := 1572864
/-- Groups resident on a core (R18). -/
def groupMax : Nat := 512
/-- Bytes of a Larder (R36). -/
def larderMax : Nat := 6291456

/-- A little-endian field of a packet. -/
def fieldAt (p : List Byte) (off n : Nat) : Nat := leNat ((p.drop off).take n)

/-- The packet of 128 bytes; nothing when it is malformed (R116): the limits of R115 hold, with those of R112 that R115
names (assumption 118). A placement entry of 0 among the first NPLACE names the table at VA 0, and one beyond them is ignored (assumption
117). -/
def parsePacket (p : List Byte) : Option Packet :=
  let flags := fieldAt p 2 1
  let prio := fieldAt p 3 1
  let place := (natRange 0 4).map (fun i => fieldAt p (0x48 + 8 * i) 8)
  let nsucc := fieldAt p 0x3C 1
  let nplace := fieldAt p 0x3D 1
  let grid := (natRange 0 3).map (fun i => fieldAt p (0x18 + 2 * i) 2)
  let bars := fieldAt p 0x2C 2
  let coop := flags / 2 % 2 == 1
  let beyond := fun (off n lo hi : Nat) => decide (fieldAt p off n < lo) || decide (hi < fieldAt p off n)
  if beyond 0x1E 2 1 16384 || beyond 0x20 1 1 16 || beyond 0x21 1 1 16 || beyond 0x24 4 0 larderMax ||
      beyond 0x28 4 0 1048576 || fieldAt p 0 2 != 0x4C01 || flags / 4 != 0 || prio / 64 != 0 || fieldAt p 0x3E 2 != 0 ||
      fieldAt p 0x78 8 != 0 || grid.contains 0 || decide ((if coop then 2047 else 2048) < bars) ||
      decide (8 < nsucc) || decide (4 < nplace) || fieldAt p 8 8 % 4 != 0 ||
      (nsucc != 0 && fieldAt p 0x40 8 == 0) ||
      decide ((place.filter (· != 0)).length < nplace) then none
  else
    some {
      restartable := flags % 2 == 1
      cooperative := coop
      prio := prio
      gen := fieldAt p 4 4
      entry := fieldAt p 8 8
      handler := fieldAt p 0x10 8
      gridx := grid.getD 0 0
      gridy := grid.getD 1 0
      gridz := grid.getD 2 0
      blockt := fieldAt p 0x1E 2
      vregs := 8 * fieldAt p 0x20 1
      uregs := 16 * fieldAt p 0x21 1
      privw := fieldAt p 0x22 2
      lscr := fieldAt p 0x24 4
      cscr := fieldAt p 0x28 4
      bars := bars
      drain := fieldAt p 0x2E 2
      args := fieldAt p 0x30 8
      parent := fieldAt p 0x38 4
      nsucc := nsucc
      nplace := nplace
      succ := fieldAt p 0x40 8
      place := place.take nplace
      rank := (natRange 0 8).map (fun i => BitVec.ofNat 16 (fieldAt p (0x68 + 2 * i) 2)) }

/-- Groups of a block that core `i` of a cluster holds when the block spans the cluster (R35). -/
def Packet.groupsOn (p : Packet) (i : Nat) : Nat := (p.groups + 3 - i) / 4

/-- Core-store bytes of a spanning block on core `i` of its cluster (R35). -/
def Packet.bytesOn (p : Packet) (i : Nat) : Nat :=
  p.groupsOn i * p.window + (if i = 0 then (p.cscr + 255) / 256 * 256 else 0)

/-- One empty core can hold the block (R35). -/
def Packet.single (p : Packet) : Bool :=
  decide (p.groups ≤ groupMax) && decide (p.storeBytes ≤ storeMax) && decide (p.bars ≤ objMax)

/-- The launch keeps the limits of R27, and an empty cluster can hold its blocks (R36). -/
def Packet.fits (p : Packet) : Bool :=
  decide (8 ≤ p.vregs) && decide (p.vregs ≤ 128) && decide (16 ≤ p.uregs) && decide (p.uregs ≤ 256) &&
  decide (1 ≤ p.blockt) && decide (p.blockt ≤ 16384) && decide (p.blocks ≤ 2 ^ 32) &&
  decide (p.lscr ≤ larderMax) &&
  (p.single || (decide (p.bytesOn 0 ≤ storeMax) && decide (p.groupsOn 0 ≤ groupMax) &&
    decide (p.bars ≤ objMax)))

/-- Why a packet is refused: 1 malformed packet, 2 block does not fit, 3 bad placement, 4 beneath a
cancelled level, 5 unreadable packet. -/
def checkPacket (data : List Byte) : Except Nat Packet :=
  match parsePacket data with
  | none => .error 1
  | some p => if p.fits then .ok p else .error 2

/-- A level above a packet has been cancelled (R33). -/
def State.cancelledAbove (s : State) : Nat → Nat → Bool
  | 0, _ => false
  | fuel + 1, i =>
    match s.entry i with
    | some e => e.cancelled || (e.parent != 0 && State.cancelledAbove s fuel e.parent)
    | none => false

/-- The fields that an item of a launch takes from its packet and request (R276). -/
def launchFields (f0 : Nat) (tenant l : Nat) (p : Packet) (cost : Nat) (bound : Word32) (f6 : BitVec 16)
    (f7 : Nat) : List (BitVec 16) :=
  [BitVec.ofNat 16 f0, BitVec.ofNat 16 (4096 * tenant + l % 4096), BitVec.ofNat 16 p.prio,
    BitVec.ofNat 16 cost, bound.extractLsb' 0 16, bound.extractLsb' 16 16, f6, BitVec.ofNat 16 f7] ++ p.rank

/-- The root can take a LAUNCH item now (R280). -/
def State.rootRoom (s : State) : Bool := s.canPush 0 ordLaunch

/-- A launch takes its completion-table entry and its LAUNCH item enters the root (R285); `hold` keeps it
pending (R290). Answers the completion-table index. -/
def State.pushLaunch (s : State) (tenant : Nat) (p : Packet) (bound : Word32) (hold : Bool) : State × Nat :=
  let l := s.tree.nextEntry
  let bar : Option LaunchBar :=
    if p.cooperative then some ⟨p.blocks * p.blockt, 0, false, [], false, 0, none, false⟩ else none
  let e : Entry :=
    { level := 0
      tenant := tenant
      counter := BitVec.ofNat 32 (p.blocks - 1)
      parent := p.parent
      failed := false
      live := true
      cancelled := false
      packet := some p
      bound := bound
      succ := (natRange 0 8).map (fun i => if i < p.nsucc then p.succ + 128 * i else 0)
      barrier := bar
      reply := none }
  let it : Item :=
    ⟨launchFields (4096 * 9) tenant l p (Nat.min p.blocks 65535) bound 0 l, .launch l, 0, .none⟩
  let s1 := s.modTree (fun t => { t with entries := t.entries.set l e, nextEntry := t.nextEntry + 1 })
  (s1.pushInto 0 it none ordLaunch hold, l)

/-- A packet is checked and its launch pushed: the index, or the status of its refusal (R116, R36, R33). A tenant that is
being reset pushes nothing (R322). -/
def State.submit (s : State) (tenant : Nat) (data : List Byte) (bound : Word32) (hold : Bool) :
    State × Except Nat Nat :=
  match checkPacket data with
  | .error st => (s, .error st)
  | .ok p =>
    if s.cancelledAbove 4 p.parent || (s.tenant tenant).trBusy then (s, .error 4)
    else
      let r := s.pushLaunch tenant p bound hold
      (r.1, .ok r.2)

/-! ### Replicated launches (R290) -/

/-- A pending launch leaves the root and never runs (R290). -/
def State.dropPending (s : State) (issuer tenant : Nat) (gen : Option Word32) : State :=
  let mine := s.tree.pendings.filter (fun p => p.issuer == issuer && p.tenant == tenant &&
    (match gen with
     | some g => p.gen == g
     | none => true))
  let ls := mine.map (·.launch)
  ls.foldl (fun s l => s.modEntry l (fun e => { e with live := false, barrier := none, succ := [] }))
    ((s.dropItems (fun q =>
      match q.item.owner with
      | .launch l => ls.contains l
      | _ => false)).modTree (fun t => { t with pendings := t.pendings.filter (fun p => !mine.contains p) }))

/-- GO makes a pending launch of its GEN eligible (R290). -/
def State.takeGo (s : State) (issuer tenant : Nat) (gen : Word32) : State :=
  match s.tree.pendings.find? (fun p => p.issuer == issuer && p.tenant == tenant && p.gen == gen) with
  | none => s
  | some p =>
    (s.modTree (fun t => { t with pendings := t.pendings.filter (fun q => q != p) })).modSluice 0 (fun x =>
      { x with items := x.items.map (fun q =>
          match q.item.owner with
          | .launch l => if l = p.launch then { q with hold := false } else q
          | _ => q) })

/-- DROP of a pending launch's GEN (R290). -/
def State.takeDrop (s : State) (issuer tenant : Nat) (gen : Word32) : State :=
  s.dropPending issuer tenant (some gen)

/-- The packet of a replicated launch arrives at a device of the set, to act for tenant `local_`: it is
dropped when its GEN is not above the newest seen, and else held as pending; the answer is READY's accept
(R290). -/
def State.takeReplica (s : State) (issuer tenant local_ : Nat) (data : List Byte) (bound : Word32) :
    State × Option (Word32 × Bool) :=
  let gen : Word32 := BitVec.ofNat 32 (fieldAt data 4 4)
  let seen := (s.tree.seenGen.find? (fun p => p.1 == issuer && p.2.1 == tenant)).map (·.2.2)
  let old := match seen with
    | some g => !g.ult gen
    | none => gen == 0
  if old then (s, none)
  else
    let s1 := (s.dropPending issuer tenant none).modTree (fun t =>
      { t with seenGen := t.seenGen.filter (fun p => !(p.1 == issuer && p.2.1 == tenant)) ++
          [(issuer, tenant, gen)] })
    match s1.submit local_ data bound true with
    | (s2, .error _) => (s2, some (gen, false))
    | (s2, .ok l) =>
      (s2.modTree (fun t => { t with pendings := t.pendings ++ [⟨issuer, tenant, gen, l⟩] }),
        some (gen, true))

/-- The issuer sends GO or DROP to every device of the set, itself included (R290). -/
def State.endReplica (s : State) (r : Replica) (go : Bool) : State :=
  let s1 := s.modTree (fun t => { t with replicas := t.replicas.filter (fun x => x != r) })
  let s2 := r.set.foldl (fun s d =>
    if d = s.self then
      (if go then s.takeGo d r.tenant r.gen else s.takeDrop d r.tenant r.gen)
    else
      s.tell d r.tenant (if go then .go r.gen else .drop r.gen)) s1
  s2.replicaDone r (if go then 0 else 3)

/-- READY reaches the issuer: one that carries another GEN is dropped (R290). -/
def State.takeReady (s : State) (device tenant : Nat) (gen : Word32) (accept : Bool) : State :=
  match s.tree.replicas.find? (fun r => r.tenant == tenant && r.gen == gen && r.left.contains device) with
  | none => s
  | some r =>
    if !accept then s.endReplica r false
    else
      let r' := { r with left := r.left.filter (· != device) }
      if r'.left.isEmpty then s.endReplica r true
      else s.modTree (fun t => { t with replicas := t.replicas.map (fun x => if x = r then r' else x) })

/-- The devices of a mask, the issuer included (R290). -/
def maskDevices (mask self : Nat) : List Nat :=
  (natRange 0 64).filter (fun d => mask.testBit d || d == self)

/-- The issuer gives a packet its GEN and sends it to the set (R290). An earlier launch of the tenant that still
waits for READY is dropped by the newer GEN: its request ends with status 3, and devices outside the new set are not told
(assumption 140). A device of the set that is absent (R327) refuses. -/
def State.replicate (s : State) (r : PktRead) (data : List Byte) (mask : Nat) : State :=
  let tenant := r.tenant
  let gen := (s.tenant tenant).genOut + 1
  let packet := data.take 4 ++ leBytes gen.toNat 4 ++ data.drop 8
  let me := s.self
  let set := maskDevices mask me
  let past := s.tree.replicas.filter (fun x => x.tenant == tenant)
  let s0 := past.foldl (fun s x => s.replicaDone x 3) (s.modTree (fun t =>
    { t with replicas := t.replicas.filter (fun x => x.tenant != tenant) }))
  let s1 := s0.modTenant tenant (fun t => { t with genOut := gen })
  let s2 := (set.filter (· != me)).foldl (fun s d => s.tell d tenant (.launch packet)) s1
  let a := s2.takeReplica me tenant tenant packet r.bound
  let l := match a.1.tree.pendings.find? (fun p => p.issuer == me && p.tenant == tenant && p.gen == gen) with
    | some p => p.launch
    | none => 0
  let x : Replica := ⟨tenant, gen, set, set, r.path, l⟩
  let s3 := a.1.modTree (fun t => { t with replicas := t.replicas ++ [x] })
  if set.any (fun d => d != me && (s.routePort d).isNone) then s3.endReplica x false
  else
    match a.2 with
    | some (g, ok) => s3.takeReady me tenant g ok
    | none => s3

/-- The peer table's entry for a tenant of a source device (R328, R329). -/
def State.peerEntry (s : State) (tenant device : Nat) : Word32 := s.io.peer.getD (64 * tenant + device) 0

/-- The local tenant that a request acts for: V and the op's bit must be 1, and LTEN is never 0 (R328). -/
def State.peerTenant (s : State) (tenant device bit : Nat) : Option Nat :=
  let e := s.peerEntry tenant device
  let l := (e.extractLsb' 0 4).toNat
  if decide (tenant < 16) && decide (device < 64) && e.getLsbD 31 && e.getLsbD bit && l != 0 then some l
  else none

/-- The bit of a peer entry that allows launch packets (R329). -/
def peerLsend : Nat := 30
/-- The bit of a peer entry that allows GET (R329). -/
def peerGet : Nat := 29
/-- The bit of a peer entry that allows PUT (R329). -/
def peerPut : Nat := 28

/-- A replicated launch packet arrives: checked as LSEND (R328), it acts for the local tenant, and READY
goes back to the issuer (R290); whether the peer table allowed it. No replicated launch carries tenant 0 (R292). -/
def State.receiveLaunch (s : State) (issuer tenant : Nat) (data : List Byte) : State × Bool :=
  match if tenant = 0 then none else s.peerTenant tenant issuer peerLsend with
  | none => (s.tell issuer tenant (.ready (BitVec.ofNat 32 (fieldAt data 4 4)) false), false)
  | some l =>
    match s.takeReplica issuer tenant l data 0 with
    | (s1, some (gen, ok)) => (s1.tell issuer tenant (.ready gen ok), true)
    | (s1, none) => (s1, true)

/-! ### Reading packets (R353) -/

/-- A refusal is reported along the packet's path (R353, R240, R332). -/
def State.refuseLaunch (s : State) (path : PktPath) (tenant status : Nat) : State :=
  match path with
  | .aqi a tag compl _ => s.completeAqi a tenant compl tag (if status = 5 then 5 else 3) 0
  | .successor l => s.log (.succRefused l status)
  | .parlour => s.log (.launchRefused status)

/-- A launch stands in the tree: the request of an AQI completes now, or at the launch's placement where its tables may yet
refuse it (R285, R332; assumption 84). -/
def State.acceptLaunch (s : State) (r : PktRead) (l : Nat) : State :=
  match r.path with
  | .aqi a tag compl _ =>
    match (s.entry l).map (fun e => e.packet.map (·.nplace)) with
    | some (some (_ + 1)) => s.modEntry l (fun e => { e with reply := some r.path })
    | _ => s.completeAqi a r.tenant compl tag 0 l
  | _ => s

/-- A launch packet is read, if it has not been, checked and pushed (R353, R116, R36, R290). -/
def State.readLaunch (s0 : State) (r : PktRead) : State :=
  let s := if r.data.isNone then s0.readRequests r.tenant r.va 128 2 else s0
  match r.data.getD (s0.readVa r.tenant r.va 128 2) with
  | none => s.refuseLaunch r.path r.tenant 5
  | some data =>
    let mask := match r.path with
      | .aqi _ _ _ m => m
      | _ => 0
    if mask ≠ 0 then s.replicate r data mask
    else
      match s.submit r.tenant data r.bound false with
      | (s1, .error st) => s1.refuseLaunch r.path r.tenant st
      | (s1, .ok l) => s1.acceptLaunch r l

/-- The waiting read `i` can be made: it is not a successor that another of its launch stands before (R32, R240), a request
of an AQI while its runner cores are stopped (R344), nor a replicated launch before DEVNUM is locked (R26). -/
def State.readDue (s : State) (i : Nat) : Bool :=
  match s.tree.reads[i]? with
  | some r =>
    match r.path with
    | .successor l => (s.tree.reads.take i).all (fun q => q.path != .successor l)
    | .aqi _ _ _ mask => s.runnerUp && (mask == 0 || s.sec.devLock)
    | _ => true
  | none => false

/-- LAUNCH_PACKET_READ (R353): a waiting read, the successors of a launch in their order (R32, R240), or a packet of the
Parlour's own launches (R292). It waits while the root is full. -/
def execLaunchPacketRead (src : PacketSource) (s : State) : Host.Outcome State Fault Refusal :=
  .next (
    if !s.rootRoom then s
    else
      match src with
      | .pending i =>
        if !s.readDue i then s
        else
          match s.tree.reads[i]? with
          | some r => (s.modTree (fun t => { t with reads := removeAt t.reads i })).readLaunch r
          | none => s
      | .parlour va => s.readLaunch ⟨.parlour, 0, va, 0, none⟩)

/-- SUCCESSOR_RELEASE: the packets in the non-empty slots of a launch that has retired are read as they stand, and are to
be pushed in ascending slot order (R32, R240). -/
def execSuccessorRelease (launch : Nat) (s : State) : Host.Outcome State Fault Refusal :=
  .next (
    match s.entry launch with
    | none => s
    | some e =>
      if e.live || e.level != 0 then s
      else
        let vas := e.succ.filter (· != 0)
        let reads := vas.map (fun va =>
          (⟨.successor launch, e.tenant, va, 0, some (s.readVa e.tenant va 128 2)⟩ : PktRead))
        ((vas.foldl (fun s va => s.readRequests e.tenant va 128 2) s).modEntry launch (fun e =>
          { e with succ := [] })).modTree (fun t => { t with reads := t.reads ++ reads }))

/-! ### The launch unit (R285) -/

/-- A placement table as it stands in memory; nothing when it is unreadable or breaks its limits (R285). -/
def State.placement (s : State) (tenant va : Nat) : Option (List Nat) :=
  match s.readVa tenant va 8 2 with
  | none => none
  | some h =>
    let q := fieldAt h 0 4
    if fieldAt h 4 4 ≠ 0 ∨ q = 0 ∨ 65536 < q then none
    else
      match s.readVa tenant (va + 8) q 4 with
      | none => none
      | some t => if t.all (fun b => decide (b.toNat < 96)) then some (t.map (·.toNat)) else none

/-- The table that a launch takes: the one of least heat, the lowest of several (R285). -/
def State.chooseTable (s : State) (tenant : Nat) (p : Packet) : Option (List Nat) :=
  if p.nplace = 0 then some (natRange 0 96)
  else
    let sum := fun (t : List Nat) => t.foldl (fun n c => n + s.heat c) 0
    leastBy (fun a b => decide (sum a < sum b)) (p.place.filterMap (s.placement tenant))

/-- The requests to host memory that the reading of a launch's placement tables makes (R333). -/
def State.placeRequests (s : State) (tenant : Nat) (p : Packet) : State :=
  p.place.foldl (fun s' va =>
    let s1 := s'.readRequests tenant va 8 2
    match s.readVa tenant va 8 2 with
    | some h => s1.readRequests tenant (va + 8) (Nat.min 65536 (fieldAt h 0 4)) 4
    | none => s1) s

/-- A launch has its placement (R285): it takes an expansion slot; or every table is left out, and it retires as a failed
launch. The AQI request that waits for it completes (R332). -/
def State.placeLaunch (s : State) (slot l : Nat) (e : Entry) (p : Packet) : State :=
  let s1 := s.modEntry l (fun e => { e with reply := none })
  match s.chooseTable e.tenant p with
  | some t =>
    let s2 := (s1.placeRequests e.tenant p).bumpId.modTree (fun x =>
      { x with slots := x.slots.set slot ⟨l, s1.freshId, 0, t⟩ })
    match e.reply with
    | some (.aqi a tag compl _) => s2.completeAqi a e.tenant compl tag 0 l
    | _ => s2
  | none =>
    ((s1.modEntry l (fun e => { e with failed := true })).refuseLaunch (e.reply.getD .parlour) e.tenant 3).retireLaunch l

/-- A free expansion slot (R285). -/
def State.freeSlot (s : State) : Option Nat := (natRange 0 16).find? (fun i => (s.tree.slots.find i).isNone)

/-- The launch unit pops the root's head into a free expansion slot (R285). -/
def State.launchPop (s : State) : State :=
  match (s.sluice 0).items, s.freeSlot with
  | q :: _, some slot =>
    if q.hold || !s.canTake 0 then s
    else
      let s1 := s.popHead 0
      match q.item.owner with
      | .launch l =>
        match s1.entry l with
        | some e =>
          match e.packet with
          | some p => s1.placeLaunch slot l e p
          | none => s1
        | none => s1
      | _ => s1
  | _, _ => s

/-- LAUNCH_POP (R285). -/
def execLaunchPop (s : State) : Host.Outcome State Fault Refusal := .next s.launchPop

/-- The BLOCK item of a launch's block (R276, R285). -/
def blockItem (tenant l : Nat) (p : Packet) (bound : Word32) (cluster lin : Nat) : Item :=
  ⟨launchFields (4096 * 7 + (if p.restartable then 1 else 0) + (if p.cooperative then 2 else 0)) tenant l p
    ((p.blockt + 7) / 8) bound (routeOf 0 cluster) lin, .block l lin, 0, .none⟩

/-- What an expansion slot pushes next, and the state after its push, if it can push (R285). -/
def State.expand (s : State) (slot : Nat) : Option State :=
  match s.tree.slots.find slot with
  | none => none
  | some x =>
    match s.entry x.launch with
    | none => none
    | some e =>
      match e.packet with
      | none => none
      | some p =>
        let cl := x.table.getD (x.next % x.table.length) 0
        match s.pushTop (blockItem e.tenant x.launch p e.bound cl x.next) ordLaunch with
        | none => none
        | some s1 =>
          some (s1.modTree (fun t =>
            { t with
              expanded := true
              slots := if x.next + 1 < p.blocks then t.slots.set slot { x with next := x.next + 1 }
                else t.slots.erase slot }))

/-- The oldest expansion slot that can push pushes one BLOCK item in a Hall cycle (R285). -/
def State.expandOldest (s : State) : State :=
  if s.tree.expanded then s
  else
    match leastBy (fun (a b : Nat × Slot) => decide (a.2.age < b.2.age))
        (s.tree.slots.filter (fun p => (s.expand p.1).isSome)) with
    | none => s
    | some p => (s.expand p.1).getD s

/-- BLOCK_EXPANSION: the slot named is the oldest that can push (R285). -/
def execBlockExpansion (slot : Nat) (s : State) : Host.Outcome State Fault Refusal :=
  .next (
    match s.tree.slots.find slot, s.expand slot with
    | some x, some s1 =>
      if s.tree.expanded || s.tree.slots.any (fun p => decide (p.2.age < x.age) && (s.expand p.1).isSome)
      then s else s1
    | _, _ => s)

/-! ### Room on a cluster (R34, R35, R259) -/

/-- What the resident blocks other than `skip` take of a core: groups, core-store bytes and barrier objects
of single-core blocks (R35). -/
def State.coreUse (s : State) (c : Nat) (skip : List Nat) : Nat × Nat × Nat :=
  s.blocks.foldl (fun n p =>
    let x := p.2
    if x.st == .saved || skip.contains p.1 || x.cluster != clusterOfCore c then n
    else if x.core.isNone then
      (n.1 + x.packet.groupsOn (c % 4), n.2.1 + x.packet.bytesOn (c % 4), n.2.2)
    else if x.core == some c then (n.1 + x.packet.groups, n.2.1 + x.packet.storeBytes, n.2.2 + x.objs.length)
    else n) (0, 0, 0)

/-- Barrier objects in a cluster unit (R215). -/
def State.unitUse (s : State) (cl : Nat) (skip : List Nat) : Nat :=
  s.blocks.foldl (fun n p =>
    if p.2.st == .saved || skip.contains p.1 || p.2.cluster != cl || p.2.core.isSome then n
    else n + p.2.objs.length) 0

/-- The core that a block goes to: none for a block that spans the cluster; nothing when it does not fit
(R35, R286). -/
def State.roomFor (s : State) (cl : Nat) (p : Packet) (bars : Nat) (skip : List Nat) : Option (Option Nat) :=
  if p.single then
    ((natRange (4 * cl) 4).find? (fun c =>
      let u := s.coreUse c skip
      decide (u.1 + p.groups ≤ groupMax) && decide (u.2.1 + p.storeBytes ≤ storeMax) &&
        decide (u.2.2 + bars ≤ objMax))).map some
  else if (natRange 0 4).all (fun i =>
      let u := s.coreUse (4 * cl + i) skip
      decide (u.1 + p.groupsOn i ≤ groupMax) && decide (u.2.1 + p.bytesOn i ≤ storeMax)) &&
      decide (s.unitUse cl skip + bars ≤ objMax) then some none
  else none

/-- 512-byte parts that the resident blocks other than `skip` hold in a bank group (R259). -/
def State.partsUsed (s : State) (cl j : Nat) (skip : List Nat) : Nat :=
  s.blocks.foldl (fun n p =>
    if p.2.st == .saved || skip.contains p.1 || p.2.cluster != cl then n
    else n + (p.2.lparts.filter (· == j)).length) 0

/-- The first `n` banks of a bank group are in SCRATCH mode and outside the staging regions (R259, R301). -/
def Cluster.groupOk (c : Cluster) (j n : Nat) : Bool :=
  (natRange (8 * j) n).all (fun i => c.bankMode i == 1 && !c.inRegion i)

/-- Places the 512-byte parts of a block's Larder scratch, part by part: `n` bytes are left and `used`
counts the parts of each group. Which group of those with room takes a part is a free choice (R259). -/
def placeParts (c : Cluster) (seed : Nat) (used : List Nat) : Nat → Nat → Option (List Nat)
  | 0, n => if n = 0 then some [] else none
  | fuel + 1, n =>
    if n = 0 then some []
    else
      let banks := (Nat.min n 512 + 63) / 64
      let ok := (natRange 0 6).filter (fun j => c.groupOk j banks && decide (used.getD j 0 < 2048))
      match ok[Config.free (seed + fuel) % Nat.max 1 ok.length]? with
      | none => none
      | some j =>
        match placeParts c seed (setAt used j (used.getD j 0 + 1)) fuel (n - 512) with
        | some rest => some (j :: rest)
        | none => none

/-- The bank groups of a block's Larder scratch on a cluster; nothing when there is no room. -/
def State.partsFor (s : State) (cl lscr : Nat) (skip : List Nat) : Option (List Nat) :=
  placeParts (s.cluster cl) s.freeCtr ((natRange 0 6).map (fun j => s.partsUsed cl j skip))
    ((lscr + 511) / 512) lscr

/-- A block fits a cluster once the blocks of `skip` are gone (R286, R287). -/
def State.fitsCluster (s : State) (cl : Nat) (p : Packet) (bars : Nat) (skip : List Nat) : Bool :=
  (s.roomFor cl p bars skip).isSome && (s.partsFor cl p.lscr skip).isSome

/-- The packet of a BLOCK or RESTORE item's block, and the barrier objects it needs. -/
def State.itemPacket (s : State) (it : Item) : Option (Packet × Nat) :=
  match it.owner with
  | .block l _ =>
    match s.entry l with
    | some e => e.packet.map (fun p => (p, p.bars))
    | none => none
  | .restore b => (s.blocks.find b).map (fun x => (x.packet, x.objs.length))
  | _ => none

/-! ### Pre-emption of blocks (R287, R288) -/

/-- How a victim is removed. -/
inductive Mode where
  | drain
  | save
  | flush
  deriving DecidableEq, Repr

/-- Bytes of a block's footprint (R288). -/
def Block.footprint (x : Block) : Nat := x.packet.storeBytes + x.packet.lscr + 8 * x.objs.length

/-- The allowed modes of a victim with their completion estimates and costs, in units of 64 ns (R288). -/
def State.modes (s : State) (x : Block) : List (Mode × Nat × Nat) :=
  let age := s.ticks - x.since
  let save := (x.footprint + s.tree.saverate - 1) / s.tree.saverate
  (if x.packet.drain = 0xFFFF then [] else [(.drain, x.packet.drain - age, x.packet.drain - age)]) ++
  [(.save, save, 2 * save)] ++ (if x.packet.restartable then [(.flush, 0, age)] else [])

/-- The mode of a victim for a push with a bound (R288). -/
def State.modeOf (s : State) (x : Block) (bound : Nat) : Mode :=
  let all := s.modes x
  let meet := all.filter (fun m => bound != 0 && decide (m.2.1 ≤ bound))
  match leastBy (fun a b => decide (a.2.2 < b.2.2)) (if meet.isEmpty then all else meet) with
  | some m => m.1
  | none => .save

/-- The latency bound f5:f4 of an item (R276). -/
def Item.bound (it : Item) : Nat := (it.field 4).toNat + 65536 * (it.field 5).toNat

/-- Blocks of a list are taken as victims until the item fits; nothing when it never does (R287). -/
def State.victims (s : State) (cl : Nat) (p : Packet) (bars : Nat) (skip : List Nat) :
    List Nat → List Nat → Option (List Nat)
  | taken, [] => if s.fitsCluster cl p bars (skip ++ taken) then some taken else none
  | taken, b :: rest =>
    if s.fitsCluster cl p bars (skip ++ taken) then some taken
    else State.victims s cl p bars skip (taken ++ [b]) rest

/-- One victim begins to leave in its mode (R288). -/
def State.evict (s : State) (bound b : Nat) : State :=
  match s.blocks.find b with
  | none => s
  | some x =>
    match s.modeOf x bound with
    | .drain => s.modBlock b (fun x => { x with st := .draining })
    | .save => s.modBlock b (fun x => { x with st := .saving })
    | .flush => s.killBlock b 7

/-- A pre-empting item at the head of a core leaf that does not fit takes victims (R287): the largest s
first, the youngest of several (assumption 38). -/
def State.preemptCore (s : State) (cl : Nat) : State :=
  match (s.sluice (coreLeaf cl)).items with
  | [] => s
  | q :: _ =>
    match s.itemPacket q.item with
    | none => s
    | some (p, bars) =>
      let leaving := (s.blocks.filter (fun x => x.2.cluster == cl && (x.2.st == .draining ||
        x.2.st == .saving))).map (·.1)
      if q.place != .preempt || s.fitsCluster cl p bars leaving then s
      else
        let cands := s.blocks.filter (fun x => x.2.candidate cl && x.2.st == .running &&
          marginMet (s.sluice (coreLeaf cl)).pmargin q.rank x.2.rank)
        let order := sortBy (fun (a b : Nat × Block) =>
          decide ((q.rank - b.2.rank).toInt < (q.rank - a.2.rank).toInt) ||
          ((q.rank - a.2.rank) == (q.rank - b.2.rank) && decide (b.2.age ≤ a.2.age))) cands
        match s.victims cl p bars leaving [] (order.map (·.1)) with
        | none => s
        | some vs => vs.foldl (fun s b => s.evict q.item.bound b) s

/-! ### Moves (R279) -/

/-- A host item's part of a COPY is done (R332): the request completes with its last part. -/
def State.hostPartDone (s : State) (id : Nat) (bad : Bool) : State :=
  match s.io.copies.find? (fun c => c.id == id) with
  | none => s
  | some c =>
    let failed := c.failed || bad
    if c.left ≤ 1 then
      (s.modIo (fun io => { io with copies := io.copies.filter (fun x => x.id != id) })).completeAqi c.aqi
        c.tenant c.compl c.tag (if failed then 5 else 0) 0
    else s.modIo (fun io => { io with copies := io.copies.map (fun x =>
      if x.id = id then { x with left := x.left - 1, failed := failed } else x) })

/-- The record of a route fault (R279, R308). -/
def State.routeRec (s : State) (it : Item) : FaultRec :=
  let r := match it.owner with
    | .engine op _ =>
      match s.ops.find op with
      | some o => { s.groupRec 8 (groupKey o.block o.group) o.pc with handle := o.handle }
      | none => FaultRec.blank 8 it.tenant
    | .block l lin => { FaultRec.blank 8 it.tenant with launch := l, block := lin, set := true }
    | .restore b => s.blockRec 8 b
    | _ => FaultRec.blank 8 it.tenant
  { r with info := (it.field 7).setWidth 32 }

/-- An item that no entry takes is removed and recorded; its operation faults, or its launch is cancelled
(R279). -/
def State.routeFault (s : State) (n : Nat) (it : Item) : State :=
  let s1 := (s.modSluice n (fun x => { x with items := x.items.drop 1, popped := true })).postRecord it.tenant
    (s.routeRec it)
  match it.owner with
  | .engine op _ =>
    match s1.ops.find op with
    | some o => s1.killBlock o.block 1
    | none => s1
  | .block l _ => s1.cancelLevel 0 l
  | .restore b => s1.cancelLevel 0 (s1.launchOf b)
  | .host c _ => s1.hostPartDone c true
  | _ => s1

/-- The head of an inner sluice that no entry takes (R279). -/
def State.strayHead (s : State) (p : Nat) : Option Item :=
  match (s.sluice p).items with
  | [] => none
  | q :: _ =>
    if p = 0 ∨ isLeaf p ∨ !s.canPop p then none
    else if ((s.sluice p).childFor q.item).isNone then some q.item else none

/-- A head that no entry takes is removed (R279). -/
def State.dropStray (s : State) (p : Nat) : State :=
  match s.strayHead p with
  | some it => s.routeFault p it
  | none => s

/-- A move that was granted is applied (R280): the item enters the child, and a pre-empting one in a core leaf takes
victims (R287). -/
def State.applyMove (s : State) (m : Move) : State :=
  let s1 := (s.modTree (fun t => { t with moving := t.moving.erase m })).pushInto m.child m.item.item none
    (ordMove m.parent) false
  if isLeaf m.child && m.child < leafNode 384 && (m.child - 4096) % 4 == 0 then s1.preemptCore (leafCluster m.child)
  else s1

/-- INNER_SLUICE_MOVE (R279, R280): the sluice's head, which the Hall cycle has popped, enters its child after every
re-push and every move of a lower parent; or a head that no entry takes is removed. -/
def execInnerSluiceMove (sluice : Nat) (s : State) : Host.Outcome State Fault Refusal :=
  .next (
    match s.tree.moving with
    | m :: _ => if m.parent = sluice then (s.flushRepush none).applyMove m else s
    | [] => s.dropStray sluice)

/-! ### Admission (R35, R117, R187, R197, R259, R263, R286, R321) -/

/-- The bytes left behind that may stand in byte `o` of new scratch (R259, R321): of Larder scratch those of its bank at
its place in the granule; of core scratch any, since its placement is not architectural. -/
def Freed.at (f : Freed) (parts : List Nat) (o : Nat) : List Host.Cell :=
  match f.core with
  | some _ => f.bytes
  | none => f.bytes.filter (fun c => c.1 % 512 == o % 512 && f.parts.getD (c.1 / 512) 0 == parts.getD (o / 512) 0)

/-- What scratch bytes hold at admission (R321): each byte is 0, or what an earlier block of the tenant left in it,
by free choice (assumption 12). -/
def leftBytes (images : List Freed) (parts : List Nat) (seed n : Nat) : Memory :=
  if images.isEmpty then []
  else
    (natRange 0 n).foldl (fun m o =>
      let x := Config.free (seed + o)
      match images[x % (images.length + 1)]? with
      | none => m
      | some f =>
        let l := f.at parts o
        match l[x / (images.length + 1) % (l.length + 1)]? with
        | some c => Memory.write m o c.2
        | none => m) []

/-- What earlier blocks of a tenant left in a cluster's Larder, or in the core store of one of its cores. -/
def Cluster.leftOf (c : Cluster) (tenant : Nat) (core : Option Nat) : List Freed :=
  c.freed.filter (fun f => f.tenant == tenant && f.core == core)

/-- A thread at group start (R38, R117, R197). -/
def Thread.start (p : Packet) : Thread where
  pc := BitVec.ofNat 64 p.entry
  st := .unstarted
  wait := 0
  regs := []
  tepc := 0
  tcause := 0
  tval := 0
  stacklim := BitVec.ofNat 32 (4 * p.privw)
  privbase := BitVec.ofNat 32 (4 * p.privw)
  token := none
  tokenOp := 0
  rowSeen := []

/-- A group at its start on a core (R117). -/
def Group.start (p : Packet) (core : Nat) : Group :=
  let args : Word64 := BitVec.ofNat 64 p.args
  let g : Group :=
    { core := core
      sregs := []
      preds := 0
      hatches := []
      gtag := 0
      iss := []
      ret := []
      done := []
      attach := []
      bargTmr := none }
  (g.setSreg 2 (Reg.ofVal (args.extractLsb' 0 32))).setSreg 3 (Reg.ofVal (args.extractLsb' 32 32))

/-- The core of group `g` of a block: its one core, or core g mod 4 of its cluster (R35). -/
def groupCore (cl : Nat) (core : Option Nat) (g : Nat) : Nat :=
  match core with
  | some c => c
  | none => 4 * cl + g % 4

/-- A block becomes resident (R35, R286). -/
def State.makeResident (s : State) (cl : Nat) (core : Option Nat) (parts : List Nat) (q : QItem) (l lin : Nat)
    (e : Entry) (p : Packet) : State :=
  let b := s.freshId
  let c := s.cluster cl
  let x : Block :=
    { launch := l
      tenant := e.tenant
      lin := lin
      packet := p
      item := q.item
      rank := q.rank
      cluster := cl
      core := core
      age := s.nextAge
      st := .running
      slots := []
      lmem := leftBytes (c.leftOf e.tenant none) parts s.freeCtr p.lscr
      cmem := leftBytes (c.leftOf e.tenant (some (core.getD (4 * cl)))) [] (s.freeCtr + p.lscr) p.cscr
      lparts := parts
      objs := (natRange 0 p.bars).map (fun i => (i, (⟨false, p.blockt, 0, false, none, [], []⟩ : BarObj)))
      parkedTab := []
      parkedPool := []
      ranges := []
      since := s.ticks
      stall := 0
      stallRep := false }
  let s1 := { s.bumpId with
    nextAge := s.nextAge + 1
    freeCtr := s.freeCtr + p.lscr + p.cscr + parts.length + 1
    blocks := s.blocks.set b x
    groups := (natRange 0 p.groups).foldl (fun m g =>
      m.set (groupKey b g) (Group.start p (groupCore cl core g))) s.groups
    threads := (natRange 0 p.blockt).foldl (fun m t => m.set (threadKey b t) (Thread.start p)) s.threads }
  s1

/-- What the threads of a block wait for from the segmenter goes with the block to another cluster (R231, R318). -/
def State.moveRequests (s : State) (b from_ cl : Nat) : State :=
  let mine := (s.cluster from_).segReqs.filter (fun q => blockOfGroup q.group == b)
  (s.modCluster from_ (fun c => { c with segReqs := c.segReqs.filter (fun q => blockOfGroup q.group != b) })).modCluster
    cl (fun c => { c with segReqs := c.segReqs ++ mine })

/-- Engine items in issue order (R318, R319). -/
def inIssueOrder (items : List QItem) : List QItem :=
  let order := fun (q : QItem) =>
    match q.item.owner with
    | .engine op part => (op, part)
    | _ => (0, 0)
  sortBy (fun (x y : QItem) => decide ((order x).1 < (order y).1) ||
    ((order x).1 == (order y).1 && decide ((order x).2 ≤ (order y).2))) items

/-- A restored block takes up its saved state on a cluster (R210, R319, R320): its ranges are reinstalled, its
barrier objects unparked and R190 applied to each, its attachments taken again and its frozen items pushed again, each
with route index = the restoring cluster. The cluster drops its clean copies, which may be older than what the block has
seen (R268), and the time since admission starts again (R288; assumption 100). -/
def State.restore (s : State) (cl : Nat) (core : Option Nat) (parts : List Nat) (q : QItem) (b : Nat) :
    State :=
  match s.blocks.find b with
  | none => s
  | some x =>
    let banks := (s.blockGroups b).flatMap (fun g =>
      match s.groups.find g with
      | some y => y.attach.map (fun i => (g, i))
      | none => [])
    let s1 := (s.detachBlock b).fenceActs cl 1 scopeCluster
    let s2 := s1.setBlock b { x with
      cluster := cl
      core := core
      rank := q.rank
      age := s1.nextAge
      st := .running
      lparts := parts
      objs := x.objs.mapVals (fun _ o => { o with a := Nat.min barMax o.a })
      parkedTab := []
      parkedPool := []
      ranges := []
      since := s1.ticks
      slots := [] }
    let s3 := { s2 with
      nextAge := s2.nextAge + 1
      freeCtr := s2.freeCtr + parts.length + 1
      groups := s2.groups.mapVals (fun k g =>
        if blockOfGroup k = b then { g with core := groupCore cl core (k % 2048) } else g)
      ops := s2.ops.mapVals (fun _ o => if o.block = b then { o with cluster := cl } else o) }
    let s4 := banks.foldl (fun s p =>
      if (s.cluster cl).bankMode p.2 = 2 then s.attach p.1 cl p.2 true else s) s3
    let s5 := x.ranges.foldl (fun s e => s.addRange e) s4
    let s6 := x.objs.foldl (fun s p => s.completeBar b p.1 false) (s5.moveRequests b x.cluster cl)
    let mine := inIssueOrder ((s6.tree.frozen.filter (fun e => e.1 == b)).map (·.2))
    (s6.settleLate b).modTree (fun t =>
      { t with
        frozen := t.frozen.filter (fun e => e.1 != b)
        repush := t.repush ++ mine.map (fun q =>
          ⟨b, q.item.reroute q.item.routeClass cl, some q.rank, false, t.cycle, none⟩) })

/-- The head of a core leaf is made resident when it fits (R286, R319); one that does not fit
blocks the leaf, and a pre-empting one takes victims (R287). -/
def State.corePop (s : State) (cluster : Nat) : State :=
  let n := coreLeaf cluster
  match (s.sluice n).items with
  | [] => s
  | q :: _ =>
    match s.itemPacket q.item with
    | none => s
    | some (p, bars) =>
      if cluster ≥ 96 ∨ !s.canTake n then s
      else
        match s.roomFor cluster p bars [], s.partsFor cluster p.lscr [] with
        | some core, some parts =>
          match q.item.owner with
          | .block l lin =>
            match s.entry l with
            | some e => (s.popHead n).makeResident cluster core parts q l lin e p
            | none => s
          | .restore b => (s.popHead n).restore cluster core parts q b
          | _ => s
        | _, _ => s.preemptCore cluster

/-- CORE_LEAF_POP (R286). -/
def execCoreLeafPop (cluster : Nat) (s : State) : Host.Outcome State Fault Refusal := .next (s.corePop cluster)

/-! ### Save (R318, R320) -/

/-- Everything that step 2 of a save waits for is done (R318): the block's producers and accesses, its
engine-queue entries, and its popped items. -/
def State.drained (s : State) (b : Nat) : Bool :=
  let cl := s.clusterOfBlock b
  !s.inflight.any (fun o => o.ofBlock b &&
    match o.act with
    | .arrival .. => false
    | .leave _ _ => false
    | .release _ => false
    | _ => true) &&
  (s.cluster cl).engQ.all (fun i =>
    match s.ops.find i with
    | some o => o.block != b
    | none => true) &&
  (((s.cluster cl).pan.toList ++ (s.cluster cl).grn.toList).all (fun r => !s.ownsItem b r.item)) &&
  ((s.cluster cl).copy.toList.all (fun r => !s.ownsItem b r.item)) &&
  (s.io.held ++ s.io.waitPkts).all (fun p => !p.carries (s.ownsItem b)) &&
  s.tree.repush.all (fun e => !s.ownsItem b e.item)

/-- Room for a block in its tenant's save pool (R318). -/
def State.poolRoom (s : State) (x : Block) : Bool :=
  let used := s.blocks.foldl (fun n p =>
    if p.2.tenant == x.tenant && p.2.st == .saved then n + p.2.footprint else n) 0
  decide (used + x.footprint ≤ 65536 * (s.tenant x.tenant).savesize)

/-- Entries of the parked table of a cluster unit (R320). -/
def parkMax : Nat := 64

/-- The RESTORE item of a block (R276); its route is given at its re-push (R286). -/
def restoreItem (b : Nat) (x : Block) : Item :=
  { x.item with
    f := setAt x.item.f 0 (BitVec.ofNat 16 (4096 * 8) ||| (x.item.field 0 &&& 0x0FFF))
    owner := .restore b
    stage := .none }

/-- A block's queued engine items, in issue order (R318). -/
def State.frozenItems (s : State) (b : Nat) : List QItem := inIssueOrder (s.queued (fun q => s.ownsItem b q.item))

/-- BLOCK_SAVE: a block that has come to its end retires (R31); a drained block is saved, its queued items are frozen, its resources are freed and its
RESTORE item is pushed (R318, R320, R321). What its threads have written reaches home, where it reads it after its
restore (R268, R270; assumption 100). -/
def execBlockSave (block : Nat) (s : State) : Host.Outcome State Fault Refusal :=
  .next (
    match s.blocks.find block with
    | none => s
    | some x =>
      if x.st != .saving then s
      else if s.canRetire block then s.retireBlock block
      else if !s.drained block || !s.poolRoom x then s
      else
        let used := s.blocks.foldl (fun n p =>
          if p.2.cluster == x.cluster && p.2.st == .saved then n + p.2.parkedTab.length else n) 0
        let idx := x.objs.map (·.1)
        let items := s.frozenItems block
        let s1 := items.foldl (fun s q => s.releaseStage x.cluster q.item) s
        let s2 := (s1.dropItems (fun q => s1.ownsItem block q.item)).modTree (fun t =>
          { t with frozen := t.frozen ++ items.map (fun q =>
              (block, { q with item := { q.item with stage := .none } })) })
        let s3 := (((s2.releaseEntries block).writeBack x.cluster (fun _ => true)).dropBytes x.cluster
            (inSlabs (s2.blockGroups block))).modCluster x.cluster (fun c => { c with freed := c.freed ++ x.leaves })
        (s3.setBlock block { x with
          st := .saved
          parkedTab := idx.take (parkMax - used)
          parkedPool := idx.drop (parkMax - used)
          ranges := (s.cluster x.cluster).rsb.filter (fun e => e.block == block && e.engOp.isSome) }).repush block
            (restoreItem block x) none)

/-- PARKED_BARRIER_ARRIVAL: an arrival or an exit of a saved block's thread reaches its parked objects: under R190 in the
parked table, as an ADD to A, or a reduction of E, in the save pool, where completion is left to the restore (R320). -/
def execParkedBarrierArrival (id : Nat) (s : State) : Host.Outcome State Fault Refusal :=
  .next (s.perform id (fun s o =>
    match o.act, s.blocks.find o.block with
    | .arrival i n token wait, some x =>
      if x.st != .saved || x.launchBarIdx i then s
      else
        let k := o.members.headD 0
        let s1 := s.retireOp id
        if x.parkedTab.contains i then (s1.receiveArrival id k i n token wait).completeBar o.block i false
        else if x.parkedPool.contains i then
          (s1.receiveArrival id k i 0 token wait).modBar o.block i (fun b => { b with a := b.a + n })
        else s1.receiveArrival id k i n token wait
    | .leave false objs, some x =>
      if x.st != .saved then s
      else x.parkedTab.foldl (fun s i => s.completeBar o.block i false)
        ((s.retireOp id).reduceBars o.block objs.contains)
    | _, _ => s))

end Sys2Proof.Machine
end

