-- ==== Sys2Proof/Machine/Control.lean ====
section
/-! DEFINITION. Lane major opcodes 0x30 to 0x39 (R181 to R201): branches, calls, barriers, BARG, NOP,
YIELD, EXIT, traps, the return from a trap, and the trap-state registers. -/

namespace Sys2Proof.Machine

/-! ### Branches, calls and jumps -/

/-- The target of a word offset, counted from the instruction word (R84, R184, R185). -/
def Issue.target (u : Issue) (off : Word64) : Word64 := u.wordAddr + 4 * off

/-- A control transfer to a target (R183): a misaligned one traps and writes nothing. -/
def transfer (th : Thread) (target : Word64) : LaneAct :=
  if target &&& 3 = 0 then .run (th.goto target) else .trap 3 target

/-- BR on a condition of va (R184). -/
def branchUnit (s : State) (cond : Nat) (va : BitVec 7) (off : BitVec 13) : State :=
  gated s { Use.plain with a := [va.toNat] } (fun u _ th =>
    .run (th.goto (if branchHolds cond (th.reg va.toNat).val then u.target (off.signExtend 64)
      else u.next)))

/-- BR.EQZ (R184). -/
def execBrEqz (_tc : BitVec 2) (va : BitVec 7) (off : BitVec 13) (s : State) :
    Host.Outcome State Fault Refusal :=
  .next (branchUnit s 0 va off)

/-- BR.NEZ (R184). -/
def execBrNez (_tc : BitVec 2) (va : BitVec 7) (off : BitVec 13) (s : State) :
    Host.Outcome State Fault Refusal :=
  .next (branchUnit s 1 va off)

/-- BR.LTZ (R184). -/
def execBrLtz (_tc : BitVec 2) (va : BitVec 7) (off : BitVec 13) (s : State) :
    Host.Outcome State Fault Refusal :=
  .next (branchUnit s 2 va off)

/-- BR.GEZ (R184). -/
def execBrGez (_tc : BitVec 2) (va : BitVec 7) (off : BitVec 13) (s : State) :
    Host.Outcome State Fault Refusal :=
  .next (branchUnit s 3 va off)

/-- BR.GTZ (R184). -/
def execBrGtz (_tc : BitVec 2) (va : BitVec 7) (off : BitVec 13) (s : State) :
    Host.Outcome State Fault Refusal :=
  .next (branchUnit s 4 va off)

/-- BR.LEZ (R184). -/
def execBrLez (_tc : BitVec 2) (va : BitVec 7) (off : BitVec 13) (s : State) :
    Host.Outcome State Fault Refusal :=
  .next (branchUnit s 5 va off)

/-- BR.ALW reads no register (R184). -/
def execBrAlw (_tc : BitVec 2) (off : BitVec 13) (s : State) :
    Host.Outcome State Fault Refusal :=
  .next (gated s Use.plain (fun u _ th => .run (th.goto (u.target (off.signExtend 64)))))

/-- CALL: the address after the unit goes to the pair vd (R185). -/
def execCall (_tc : BitVec 2) (vd : BitVec 7) (off : BitVec 16) (s : State) :
    Host.Outcome State Fault Refusal :=
  .next (gated s { Use.plain with dst := addrRegs vd } (fun u _ th =>
    .run ((th.setPair vd.toNat u.next).goto (u.target (off.signExtend 64)))))

/-- JMPR and RET: PC ← the address operand va (R186). -/
def jumpUnit (s : State) (va : BitVec 7) : State :=
  gated s { Use.plain with a := addrRegs va } (fun _ _ th => transfer th (th.pair va.toNat))

/-- JMPR (R186). -/
def execJmpr (_tc : BitVec 2) (va : BitVec 7) (s : State) :
    Host.Outcome State Fault Refusal :=
  .next (jumpUnit s va)

/-- CALLR: the target is read before the return address is written (R186). -/
def execCallr (_tc : BitVec 2) (vd va : BitVec 7) (s : State) :
    Host.Outcome State Fault Refusal :=
  .next (gated s { Use.plain with a := addrRegs va, dst := addrRegs vd } (fun u _ th =>
    match transfer th (th.pair va.toNat) with
    | .run th' => .run (th'.setPair vd.toNat u.next)
    | act => act))

/-- RET has the effect of JMPR (R186). Neither the debug records of R350 nor the events of R352 name returns, so that the
mark which R186 mentions shows nowhere (assumption 112). -/
def execRet (_tc : BitVec 2) (va : BitVec 7) (s : State) :
    Host.Outcome State Fault Refusal :=
  .next (jumpUnit s va)

/-! ### Barriers -/

/-- A barrier instruction (R182, R188, R189): an index that the block does not hold is an illegal
instruction. -/
def barUnit (s : State) (use : Use) (n : BitVec 11) (arrive : Thread → Option Nat)
    (token wait : Bool) : State :=
  laneSeq s (fun u k th s' =>
    let lim := s.limits u.block
    if (use.illegal u lim.1 lim.2).isNone && !s'.barHeld (blockOf k) n.toNat then
      (s', .trap 1 (tvalWord u.word))
    else
      match gate s use u k th with
      | some a => (s', a)
      | none => s'.barAct u k th n.toNat (arrive th) token wait)

/-- BAR.ARV: one arrival and a token (R188). -/
def execBarArv (_tc : BitVec 2) (n : BitVec 11) (s : State) :
    Host.Outcome State Fault Refusal :=
  .next (barUnit s Use.plain n (fun _ => some 1) true false)

/-- BAR.WT: waits for the token's phase, or the current one (R189). -/
def execBarWt (_tc : BitVec 2) (n : BitVec 11) (s : State) :
    Host.Outcome State Fault Refusal :=
  .next (barUnit s Use.plain n (fun _ => none) false true)

/-- BAR.SYNC: BAR.ARV, then BAR.WT (R188). -/
def execBarSync (_tc : BitVec 2) (n : BitVec 11) (s : State) :
    Host.Outcome State Fault Refusal :=
  .next (barUnit s Use.plain n (fun _ => some 1) true true)

/-- BAR.ARVC: va arrivals, no token (R188). -/
def execBarArvc (_tc : BitVec 2) (va : BitVec 7) (n : BitVec 11) (s : State) :
    Host.Outcome State Fault Refusal :=
  .next (barUnit s { Use.plain with a := [va.toNat] } n
    (fun th => some (th.reg va.toNat).val.toNat) false false)

/-! ### NOP, BARG, EXIT, YIELD -/

/-- NOP (R195). -/
def execNop (_tc : BitVec 2) (s : State) :
    Host.Outcome State Fault Refusal :=
  .next (gated s Use.plain (fun u _ th => .run (th.goto u.next)))

/-- BARG: the thread waits, after the effect of FENCE.rel at GROUP scope (R194). -/
def execBarg (_tc : BitVec 2) (s : State) :
    Host.Outcome State Fault Refusal :=
  .next (laneSeq s (fun u k th s' =>
    match gate s Use.plain u k th with
    | some a => (s', a)
    | none => (s'.fenceOp u.block [k] 2 scopeGroup [],
        .run { th with st := .blocked (.barg u.next) })))

/-- EXIT: the thread is EXITED, holds no token, and the end of the cycle deals with what follows (R196). -/
def execExit (_tc : BitVec 2) (s : State) :
    Host.Outcome State Fault Refusal :=
  .next (laneSeq s (fun u k th s' =>
    match gate s Use.plain u k th with
    | some a => (s', a)
    | none => (s'.modCyc (fun c => { c with exiting := c.exiting ++ [k] }),
        .run { th with st := .exited, token := none, tokenOp := 0 })))

/-- YIELD: DEFERRED for up to 64 issue slots (R56, R195). -/
def execYield (_tc : BitVec 2) (s : State) :
    Host.Outcome State Fault Refusal :=
  .next (gated s Use.plain (fun u _ th => .run { th.goto u.next with st := .deferred 64 }))

/-! ### Traps -/

/-- TRAP: cause 11 with the code (R199). -/
def execTrap (_tc : BitVec 2) (code : BitVec 16) (s : State) :
    Host.Outcome State Fault Refusal :=
  .next (gated s Use.plain (fun _ _ _ => .trap 11 (code.setWidth 64)))

/-- RETT: PC ← TEPC and H ← 0; an illegal instruction while H = 0 (R200). -/
def execRett (_tc : BitVec 2) (s : State) :
    Host.Outcome State Fault Refusal :=
  .next (gated s Use.plain (fun u _ th =>
    if th.inHandler then .run th.afterRett else .trap 1 (tvalWord u.word)))

/-- BRK: halts the thread that the debugger names, past the BRK (assumption 31); else cause 13 (R199). -/
def execBrk (_tc : BitVec 2) (code : BitVec 16) (s : State) :
    Host.Outcome State Fault Refusal :=
  .next (gated s Use.plain (fun u k th =>
    if s.dbgOn && s.namedThread (s.coreOfThread k) == some k then
      .run { th.goto u.next with st := .parked .debug }
    else .trap 13 (code.setWidth 64)))

/-- ILL: an illegal instruction at every use, whose TVAL is its word (R96, R102, R199; assumption 111). -/
def execIll (_tc : BitVec 2) (s : State) :
    Host.Outcome State Fault Refusal :=
  .next (gated s Use.plain (fun u _ _ => .trap 1 (tvalWord u.word)))

/-! ### Trap state -/

/-- Index 0 and 2 of the trap state are 64 bits wide (R197). -/
def wideState (x : BitVec 3) : Bool := x == 0 || x == 2

/-- The registers of an RDTS or WRTS (R182). -/
def stateRegs (r : BitVec 7) (x : BitVec 3) : List Nat :=
  if wideState x then addrRegs r else [r.toNat]

/-- A trap-state register, zero-extended (R197). -/
def Thread.trapState (th : Thread) (x : BitVec 3) : Word64 :=
  match x.toNat with
  | 0 => th.tepc
  | 1 => th.tcause.setWidth 64
  | 2 => th.tval
  | 3 => th.stacklim.setWidth 64
  | _ => th.privbase.setWidth 64

/-- STACKLIM after a write of a value (R197, R201). -/
def newStacklim (v privbase : Word32) : Word32 := (if v.ult privbase then v else privbase) &&& ~~~3

/-- RDTS (R201). -/
def execRdts (_tc : BitVec 2) (vd : BitVec 7) (x : BitVec 3) (s : State) :
    Host.Outcome State Fault Refusal :=
  .next (gated s { Use.plain with dst := stateRegs vd x } (fun u _ th =>
    let v := th.trapState x
    .run ((if wideState x then th.setPair vd.toNat v
      else th.setReg vd.toNat (Reg.ofVal (v.setWidth 32))).goto u.next)))

/-- WRTS (R201). -/
def execWrts (_tc : BitVec 2) (vs : BitVec 7) (x : BitVec 3) (s : State) :
    Host.Outcome State Fault Refusal :=
  .next (gated s { Use.plain with imp := stateRegs vs x } (fun u _ th =>
    let th' := match x.toNat with
      | 0 => { th with tepc := th.pair vs.toNat &&& ~~~3 }
      | 2 => { th with tval := th.pair vs.toNat }
      | _ => { th with stacklim := newStacklim (th.reg vs.toNat).val th.privbase }
    .run (th'.goto u.next)))

end Sys2Proof.Machine
end

