-- ==== Sys2Proof/Machine/Engine.lean ====
section
/-! DEFINITION. Uniform major opcodes 0x10 to 0x17 (R219 to R242): issue of engine operations with their
parameter checks, WAITC and LNCH, the copy segmenter, and the push of engine items (R224, R280). -/

namespace Sys2Proof.Machine

/-! ### Parameter checks (R222, R223) -/

/-- A check: the parameter word that it is charged to, and whether it fails. -/
abbrev Check := Nat × Bool

/-- The first failing word: the lowest index among the words charged with a failing check (R222). -/
def firstBad (cs : List Check) : Option Nat :=
  (cs.filter (·.2)).foldl (fun m c =>
    match m with
    | none => some c.1
    | some n => some (Nat.min n c.1)) none

/-- Words that must be 0. -/
def zeroWords (p : List Word32) (is : List Nat) : List Check := is.map (fun i => (i, par p i != 0))

/-- The highest byte that a descriptor addresses: `len` is the row length, a multiple of 64. Only the last
eight rows can hold it. -/
def Desc.last (d : Desc) (tiles rows len : Nat) : Nat :=
  let o := d.base + 64 * d.tp * (tiles - 1)
  (natRange (rows - 8) (rows - (rows - 8))).foldl (fun n i =>
    let g := len / 64
    let tail := (g - 1) % 8 + 1
    let full := (g - 1) / 8
    let at0 := d.rot * i % 8
    let top := if d.rot = 0 then d.rp * i + len - 1
      else d.rp * i + 512 * full + 64 * (if 8 < at0 + tail then 7 else at0 + tail - 1) + 63
    Nat.max n (o + top)) o

/-- The span of one tile. -/
def Desc.span (d : Desc) (rows len : Nat) : Nat := d.last 1 rows len - d.base + 1

/-- The footprint of an operand: the parameter word that its overlap is charged to, its first and last
byte, and whether the operation writes it. -/
structure Print where
  word  : Nat
  lo    : Nat
  hi    : Nat
  write : Bool
  deriving DecidableEq, Repr

/-- The checks of the descriptor in words i and i + 1 other than its pitches (R223). -/
def descWord (p : List Word32) (lscr i hi : Nat) : List Check :=
  let d := descOf p i
  [(i, d.base % (if d.rot = 0 then 64 else 512) != 0), (i, bitsOf (par p i) 23 6 != 0),
    (i, decide (lscr ≤ hi)), (i + 1, d.rp % (if d.rot = 0 then 64 else 512) != 0)]

/-- The checks of the descriptor in words i and i + 1 of an operand (R223). -/
def descChecks (p : List Word32) (lscr i tiles rows len : Nat) : List Check :=
  let d := descOf p i
  descWord p lscr i (d.last tiles rows len) ++
  [(i + 1, decide (d.rp < len)),
    (i + 1, if tiles ≤ 1 then d.tp != 0 else decide (64 * d.tp < d.span rows len))]

/-- The footprint of an operand with a descriptor. -/
def descPrint (p : List Word32) (i tiles rows len : Nat) (write : Bool) : Print :=
  ⟨i, (descOf p i).base, (descOf p i).last tiles rows len, write⟩

/-- The checks of a table offset in word i (R226). -/
def tableChecks (p : List Word32) (lscr i size mult : Nat) : List Check :=
  let o := (par p i).toNat
  [(i, decide (2 ^ 23 ≤ o)), (i, o % mult != 0), (i, decide (lscr < o + size))]

/-- The footprint of a table. -/
def tablePrint (p : List Word32) (i size : Nat) (write : Bool) : Print :=
  ⟨i, (par p i).toNat, (par p i).toNat + size - 1, write⟩

/-- Written operands that overlap another operand (R223). -/
def overlaps (ps : List Print) : List Check :=
  (ps.filter (·.write)).map (fun x => (x.word, ps.any (fun y =>
    y.word != x.word && decide (x.lo ≤ y.hi) && decide (y.lo ≤ x.hi))))

/-- The fields of word 0 of a PAN or GRN: op or mode, M, N, count and flags (R225, R227). -/
def parOp (p : List Word32) : Nat := bitsOf (par p 0) 28 4
/-- The M code (R225). -/
def parMCode (p : List Word32) : Nat := bitsOf (par p 0) 26 2
/-- M = 64 × 2^code (R225). -/
def parM (p : List Word32) : Nat := 64 * 2 ^ parMCode p
/-- n, with N = 16n (R225). -/
def parN16 (p : List Word32) : Nat := bitsOf (par p 0) 20 6
/-- N (R225). -/
def parN (p : List Word32) : Nat := 16 * parN16 p
/-- P or kb (R225, R227). -/
def parCount (p : List Word32) : Nat := bitsOf (par p 0) 12 8
/-- A flag of word 0. -/
def parFlag (p : List Word32) (i : Nat) : Bool := (par p 0).getLsbD i
/-- A flag outside those of a mask is set. -/
def flagsBeyond (p : List Word32) (mask : Word32) : Bool := (par p 0) &&& 0xFFF &&& ~~~mask != 0
/-- C = ⌈N ÷ 256⌉ (R225). -/
def panPanels (p : List Word32) : Nat := (parN p + 255) / 256

/-- The checks of a staged operand of `size` bytes in words 3 and 4 (R226, R228). -/
def stagedChecks (p : List Word32) (size : Nat) : List Check :=
  [(3, par64 p 3 % 128 != 0), (3, !inGlobal (par64 p 3) size)]

/-- The parameter checks of PAN (R225, R226). -/
def panChecks (p : List Word32) (lscr : Nat) : List Check :=
  let m := parM p
  let n := parN p
  let ps := parCount p
  let c := panPanels p
  let staged := parFlag p 2
  let wSize := 16384 * ps * c
  let w := descOf p 3
  let wLast := w.base + 64 * w.tp * (ps * c - 1) + 16383
  let acts := ps * (33 * m / 8)
  [(0, parOp p != 0), (0, parMCode p == 3), (0, parN16 p == 0), (0, ps == 0), (0, flagsBeyond p 0x1F),
    (0, parFlag p 4 && !parFlag p 0)] ++
  descChecks p lscr 1 ps m 320 ++
  (if staged then stagedChecks p wSize
   else descWord p lscr 3 wLast ++ [(3, w.rot != 0), (4, w.rp != 0), (4, decide (w.tp < 256))]) ++
  descChecks p lscr 5 1 m (4 * n) ++
  tableChecks p lscr 7 acts 4 ++ tableChecks p lscr 8 (4 * ps * n) 4 ++
  tableChecks p lscr 9 (8 * ps * c) 8 ++ zeroWords p [14, 15] ++
  overlaps ([descPrint p 1 ps m 320 false] ++ (if staged then [] else [⟨3, w.base, wLast, false⟩]) ++
    [descPrint p 5 1 m (4 * n) true, tablePrint p 7 acts false, tablePrint p 8 (4 * ps * n) false,
      tablePrint p 9 (8 * ps * c) false])

/-- Bytes of an element of a GRN MM mode (R228). -/
def mmSize (p : List Word32) : Nat := if parOp p = 2 then 2 else 1

/-- K of a GRN MM mode (R227). -/
def mmK (p : List Word32) : Nat := (if parOp p = 2 then 32 else 128) * parCount p

/-- The parameter checks of GRN (R227 to R230). -/
def grnChecks (p : List Word32) (lscr : Nat) : List Check :=
  let m := parM p
  let n := parN p
  let cnt := parCount p
  match parOp p with
  | 3 =>
    [(0, parMCode p != 0), (0, parN16 p != 0), (0, cnt != 0), (0, flagsBeyond p 0x10)] ++
    descChecks p lscr 1 1 128 256 ++ descChecks p lscr 3 1 128 128 ++ descChecks p lscr 5 1 128 128 ++
    tableChecks p lscr 7 512 4 ++ tableChecks p lscr 8 512 4 ++ zeroWords p [9, 14, 15] ++
    overlaps [descPrint p 1 1 128 256 false, descPrint p 3 1 128 128 true, descPrint p 5 1 128 128 true,
      tablePrint p 7 512 true, tablePrint p 8 512 true]
  | 4 =>
    let acts := cnt * (33 * m / 8)
    [(0, parMCode p == 3), (0, parN16 p != 0), (0, cnt == 0), (0, flagsBeyond p 0x10)] ++
    descChecks p lscr 1 cnt m 640 ++ descChecks p lscr 3 cnt m 320 ++ tableChecks p lscr 7 acts 4 ++
    zeroWords p [5, 6, 8, 9, 14, 15] ++
    overlaps [descPrint p 1 cnt m 640 false, descPrint p 3 cnt m 320 true, tablePrint p 7 acts true]
  | _ =>
    let len := mmK p * mmSize p
    let tiles := if parOp p = 2 then 1 else cnt
    let staged := parFlag p 2
    [(0, decide (4 < parOp p)), (0, parMCode p == 3), (0, parN16 p == 0), (0, cnt == 0),
      (0, flagsBeyond p (if parOp p = 2 then 0x15 else 0x14)),
      (0, parOp p == 2 && parFlag p 4 && !parFlag p 0)] ++
    descChecks p lscr 1 1 m len ++
    (if staged then stagedChecks p (n * len) else descChecks p lscr 3 1 n len) ++
    descChecks p lscr 5 tiles m (4 * n) ++ zeroWords p [7, 8, 9, 14, 15] ++
    overlaps ([descPrint p 1 1 m len false] ++ (if staged then [] else [descPrint p 3 1 n len false]) ++
      [descPrint p 5 tiles m (4 * n) true])

/-- An address range lies in the global, Larder scratch or core scratch window, below its limit (R162,
R231). -/
def rangeOk (lscr cscr : Nat) (lo hi : Int) : Bool :=
  let larder : Int := (0xFFF1 * 2 ^ 48 : Nat)
  let core : Int := (0xFFF2 * 2 ^ 48 : Nat)
  (decide (0 ≤ lo) && decide (hi < (2 ^ 52 : Nat))) ||
  (decide (larder ≤ lo) && decide (hi < larder + lscr)) ||
  (decide (core ≤ lo) && decide (hi < core + cscr))

/-- The lowest and highest address that a CPY side addresses (R232). -/
def cpyRange (dst : Bool) (base : Nat) (shape : List (Nat × Int × Int)) : Int × Int :=
  shape.zipIdx.foldl (fun (r : Int × Int) d =>
    let w : Int := ((d.1.1 : Int) - 1) * (if d.2 = 0 then 1 else if dst then d.1.2.2 else d.1.2.1)
    if w < 0 then (r.1 + w, r.2) else (r.1, r.2 + w)) ((base : Int), (base : Int))

/-- D of a CPY (R231). -/
def cpyDims (p : List Word32) : Nat := bitsOf (par p 0) 24 3 + 1

/-- The table of a CPY crosses no limit of its offset (R231). -/
def cpyTableOk (p : List Word32) (lscr : Nat) : Bool :=
  (par p 5).toNat % 16 == 0 && decide ((par p 5).toNat + 16 * cpyDims p ≤ lscr)

/-- An entry of a shape table: extent, reserved word, source and destination stride (R231). -/
def shapeEntry (t : List Byte) (d : Nat) : Nat × Nat × Int × Int :=
  let w := fun i => BitVec.ofNat 32 (leNat ((t.drop (16 * d + 4 * i)).take 4))
  ((w 0).toNat, (w 1).toNat, (w 2).toInt, (w 3).toInt)

/-- A shape table holds its limits (R231). -/
def shapeOk (t : List Byte) (dims : Nat) : Bool :=
  (natRange 0 dims).all (fun d =>
    let e := shapeEntry t d
    e.2.1 == 0 && decide (1 ≤ e.1) &&
    (if d = 0 then decide (e.1 ≤ 16777216) && e.2.2.1 == 0 && e.2.2.2 == 0
     else decide (e.1 ≤ 65535))) &&
  decide (shapeBytes ((natRange 0 dims).map (fun d => ((shapeEntry t d).1, 0, 0))) ≤ 2 ^ 32)

/-- The parameter checks of CPY that its parameter block alone decides, but for the windows of its
addresses (R222, R231). -/
def cpyStatic (p : List Word32) (lscr : Nat) : List Check :=
  [(0, bitsOf (par p 0) 27 5 != 0), (0, bitsOf (par p 0) 1 23 != 0),
    (1, parFlag p 0 && par64 p 1 != 0), (5, !cpyTableOk p lscr)] ++ zeroWords p [7, 8, 9, 14, 15]

/-- The parameter checks of CPY at the segmenter's reading, with the shape table's bytes (R231). -/
def cpyChecks (p : List Word32) (lscr cscr : Nat) (t : List Byte) : List Check :=
  let ok := cpyTableOk p lscr && shapeOk t (cpyDims p)
  let shape := if ok then (natRange 0 (cpyDims p)).map (fun d =>
      ((shapeEntry t d).1, (shapeEntry t d).2.2.1, (shapeEntry t d).2.2.2)) else []
  let src := cpyRange false (par64 p 1) shape
  let dst := cpyRange true (par64 p 3) shape
  cpyStatic p lscr ++ [(1, !parFlag p 0 && !rangeOk lscr cscr src.1 src.2),
    (3, !rangeOk lscr cscr dst.1 dst.2), (5, !ok)]

/-- The parameter checks of GAT and SCT (R233, R234); `row` is the entry that covers ga0. -/
def rowsChecks (p : List Word32) (lscr : Nat) (sct : Bool) (row : Option RowEntry) : List Check :=
  let n := bitsOf (par p 4) 0 16
  let idx := (par p 3).toNat
  [(0, bitsOf (par p 0) 0 28 != 0), (0, if sct then decide (2 < parOp p) else parOp p != 0),
    (3, idx % 4 != 0), (3, decide (lscr < idx + 4 * n)), (4, n == 0), (4, bitsOf (par p 4) 16 16 != 0)] ++
  zeroWords p [7, 8, 9, 14, 15] ++
  (match row with
   | none => [(1, true)]
   | some e =>
     (1, (par64 p 1 - e.base) % 2 ^ e.k != 0) :: descChecks p lscr 5 1 n (2 ^ e.k) ++
     overlaps [descPrint p 5 1 n (2 ^ e.k) (!sct), ⟨3, idx, idx + 4 * n - 1, false⟩])

/-- The parameter checks of FAB (R235). -/
def fabChecks (p : List Word32) (lscr cscr : Nat) : List Check :=
  let n := (par p 5).toNat
  let st := par p 6
  let local_ := fun i => (i, par64 p i % 4 != 0 ||
    !rangeOk lscr cscr (par64 p i) ((par64 p i : Int) + n - 1))
  let remote := fun i => (i, par64 p i % 4 != 0 || !inGlobal (par64 p i) n)
  [(0, decide (2 < parOp p)), (0, bitsOf (par p 0) 0 22 != 0),
    (6, st != 0xFFFF_FFFF && (st.toNat % 4 != 0 || decide (lscr < st.toNat + 4)))] ++
  zeroWords p [7, 8, 9, 14, 15] ++
  (if parOp p = 2 then
     [(1, par64 p 1 % 128 != 0 || !inGlobal (par64 p 1) 128), (3, par64 p 3 != 0), (5, n != 0)]
   else
     [(5, decide (n < 4)), (5, decide (16777216 < n)), (5, n % 4 != 0)] ++
     (if parOp p = 0 then [local_ 1, remote 3] else [remote 1, local_ 3]))

/-! ### Issue (R220, R221) -/

/-- The parameter fault of an engine instruction (R222, R316): the issuing block is killed with cause 3. -/
def State.paramFault (s : State) (u : Issue) (word : Nat) : State :=
  s.killBlockAt u.block 3 (some (u.group, u.pc,
    BitVec.ofNat 64 (bitsOf u.word 24 5) ||| BitVec.ofNat 64 (256 * word)))

/-- The handle of the operation that a group issues next in a class (R221). -/
def handleOf (cls group seq : Nat) : Word32 :=
  BitVec.ofNat 32 (2 ^ 29 * cls + 65536 * (group % 2048) + seq % 65536)

/-- The parameter block of a group. -/
def Group.params (g : Group) (sp : Nat) : List Word32 := (natRange sp 16).map (fun i => (g.sreg i).val)

/-- Entries of a cluster's engine queue (R220). -/
def engQMax : Nat := 64

/-- A free place for one more outstanding operation of a class (R220, R238). -/
def Group.classFree (g : Group) (cls : Nat) : Bool := decide (g.counter cls < 64)

/-- Items of an operation (R220, R231, R235). -/
def opParts (cls : Nat) (p : List Word32) (shape : List (Nat × Int × Int)) : Nat :=
  match cls with
  | 2 => (shapeBytes shape + 65535) / 65536
  | 5 => if parOp p = 2 then 1 else ((par p 5).toNat + 4095) / 4096
  | _ => 1

/-- The operation as it would execute now (R220). -/
def State.newOp (s : State) (u : Issue) (g : Group) (cls : Nat) (home : Bool) (p : List Word32)
    (shape : List (Nat × Int × Int)) : EngOp where
  block := u.block
  group := u.group % 2048
  cluster := s.clusterOfBlock u.block
  cls := cls
  home := home
  handle := handleOf cls u.group (g.iss.getD cls 0)
  seq := g.iss.getD cls 0
  pc := u.pc
  params := p
  rowSeen := u.lanes.flatMap (fun k =>
    match s.threads.find k with
    | some th => th.rowSeen
    | none => [])
  shape := shape
  parts := opParts cls p shape
  pushed := 0
  donePts := []
  status := 0

/-- log2 of the row size that a GAT's range is made of (R233). -/
def State.rowSize (s : State) (b : Nat) (p : List Word32) : Nat :=
  match (s.tenant (s.tenantOfBlock b)).rowEntry (par64 p 1) with
  | some (_, e) => e.k
  | none => 6

/-- Step 5 of an issue (R220): the count rises, the handle is written, the parameter block enters the engine queue, and
the end of the cycle installs the range. -/
def State.issueEngine (s : State) (u : Issue) (g : Group) (sr : Nat) (o : EngOp)
    (range : Option (Bool × Nat × Nat)) : State :=
  let id := s.freshId
  let g1 := { g with iss := g.iss.set o.cls (o.seq + 1) }.setSreg sr (Reg.ofVal o.handle)
  let s1 := s.bumpId.setGroup u.group g1
  let s2 := { s1 with ops := s1.ops.set id o }.modCluster o.cluster (fun c =>
    { c with
      engQ := c.engQ ++ [id]
      segReqs := c.segReqs.filter (fun q => !(q.group == u.group && q.pc == u.pc)) })
  match range with
  | some (core, lo, hi) => s2.modCyc (fun c =>
      { c with late := c.late ++ [.range ⟨o.block, core, lo, hi, true, none, some id⟩] })
  | none => s2

/-- The segmenter's answer for this set, if it stands: for the same words, and for members whose release it
followed (R220, R231). -/
def State.segAnswer (s : State) (u : Issue) (p : List Word32) : Option (List (Nat × Int × Int)) :=
  match (s.cluster (s.clusterOfBlock u.block)).segReqs.find? (fun q =>
    q.group == u.group && q.pc == u.pc && decide (q.params = p) &&
    u.lanes.all (fun k => q.members.contains k)) with
  | some q => q.answer
  | none => none

/-- Asks the segmenter to read the shape table of this set (R231). -/
def State.askSegmenter (s : State) (u : Issue) (p : List Word32) : State :=
  s.modCluster (s.clusterOfBlock u.block) (fun c =>
    if c.segReqs.any (fun q => q.group == u.group && q.pc == u.pc && decide (q.params = p) &&
        u.lanes.all (fun k => q.members.contains k)) then c
    else { c with segReqs := c.segReqs.filter (fun q => !(q.group == u.group && q.pc == u.pc)) ++
      [⟨u.group, u.pc, u.lanes, p, none⟩] })

/-- An engine instruction of a class for its arrival set (R220): parameter checks, release, resources,
execution. -/
def State.engineIssue (s : State) (u : Issue) (g : Group) (sp sr cls : Nat) (home : Bool)
    (checks : List Word32 → Block → List Check) : UniRes :=
  match s.blocks.find u.block with
  | none => .hold s
  | some b =>
    let p := g.params sp
    match firstBad (checks p b) with
    | some w => .gone (s.paramFault u w)
    | none =>
      let c := s.cluster b.cluster
      if s.hasAccess u.lanes then .stay s .engine
      else if engQMax ≤ c.engQ.length then .stay s .queue
      else if !g.classFree cls then .stay s (.counter cls 63)
      else
        match if cls = 2 then s.segAnswer u p else some [] with
        | none => .stay (s.askSegmenter u p) .segmenter
        | some shape =>
          let o := s.newOp u g cls home p shape
          let range := o.range (s.rowSize u.block p)
          if range.isSome && s.rsbFull b.cluster then .stay s .entry
          else .run (s.issueEngine u g sr o range) u.next

/-- An engine word: its sixteen parameter words are sources, and sr its destination (R100, R220). -/
def engineUnit (s : State) (sp sr : BitVec 8) (cls : Nat) (home : Bool)
    (checks : List Word32 → Block → List Check) : State :=
  uniUnit s (natRange sp.toNat 16) [sr.toNat] (fun _ => false) (fun u _ g =>
    s.engineIssue u g sp.toNat sr.toNat cls home checks)

/-- PAN (R225, R226). -/
def execPan (_tc : BitVec 2) (sp sr : BitVec 8) (s : State) : Host.Outcome State Fault Refusal :=
  .next (engineUnit s sp sr 0 false (fun p b => panChecks p b.packet.lscr))

/-- GRN (R227 to R230). -/
def execGrn (_tc : BitVec 2) (sp sr : BitVec 8) (s : State) : Host.Outcome State Fault Refusal :=
  .next (engineUnit s sp sr 1 false (fun p b => grnChecks p b.packet.lscr))

/-- CPY: its parameters are checked when the segmenter reads the shape table (R222, R231). -/
def execCpy (_tc : BitVec 2) (sp sr : BitVec 8) (s : State) : Host.Outcome State Fault Refusal :=
  .next (engineUnit s sp sr 2 false (fun _ _ => []))

/-- The checks of a GAT or SCT of a block. -/
def State.rowsCheck (s : State) (sct : Bool) (p : List Word32) (b : Block) : List Check :=
  rowsChecks p b.packet.lscr sct (((s.tenant b.tenant).rowEntry (par64 p 1)).map (·.2))

/-- GAT.NEAR (R233). -/
def execGatNear (_tc : BitVec 2) (sp sr : BitVec 8) (s : State) : Host.Outcome State Fault Refusal :=
  .next (engineUnit s sp sr 3 false (s.rowsCheck false))

/-- GAT.HOME (R233). -/
def execGatHome (_tc : BitVec 2) (sp sr : BitVec 8) (s : State) : Host.Outcome State Fault Refusal :=
  .next (engineUnit s sp sr 3 true (s.rowsCheck false))

/-- SCT (R234). -/
def execSct (_tc : BitVec 2) (sp sr : BitVec 8) (s : State) : Host.Outcome State Fault Refusal :=
  .next (engineUnit s sp sr 4 true (s.rowsCheck true))

/-- FAB (R235). -/
def execFab (_tc : BitVec 2) (sp sr : BitVec 8) (s : State) : Host.Outcome State Fault Refusal :=
  .next (engineUnit s sp sr 5 false (fun p b => fabChecks p b.packet.lscr b.packet.cscr))

/-! ### WAITC and LNCH (R239 to R242) -/

/-- WAITC: goes on when the counter is at most k, with the effect of FENCE.acq at BLOCK scope (R239). -/
def execWaitc (_tc : BitVec 2) (cls : BitVec 3) (k : BitVec 16) (s : State) :
    Host.Outcome State Fault Refusal :=
  .next (uniUnit s [] [] (fun _ => false) (fun u _ g =>
    if g.counter cls.toNat ≤ k.toNat then .run (s.fenceOp u.block u.lanes 1 scopeBlock []) u.next
    else .stay s (.counter cls.toNat k.toNat)))

/-- A successor address is refused (R240). -/
def badSuccessor (va : Nat) : Bool := va != 0 && (va % 128 != 0 || !inGlobal va 128)

/-- LNCH.SUCC (R222, R240). -/
def execLnchSucc (_tc : BitVec 2) (sa : BitVec 8) (slot : BitVec 3) (s : State) :
    Host.Outcome State Fault Refusal :=
  .next (uniUnit s (uniPair sa.toNat) [] (fun _ => false) (fun u _ g =>
    let va := (g.pair sa.toNat).toNat
    if badSuccessor va then .gone (s.paramFault u 0)
    else .run (s.modEntry (s.launchOf u.block) (fun e =>
      if e.live then { e with succ := setAt e.succ slot.toNat va } else e)) u.next))

/-- LNCH.LMODE: a long-latency producer that comes after FENCE.full at CLUSTER scope (R241). -/
def execLnchLmode (_tc : BitVec 2) (sa : BitVec 8) (mode : BitVec 2) (s : State) :
    Host.Outcome State Fault Refusal :=
  .next (uniUnit s (uniPair sa.toNat) (uniPair sa.toNat) (fun _ => false) (fun u gk g =>
    let mask := (g.pair sa.toNat).toNat % 2 ^ 48
    let d : Dest := .unis gk sa.toNat 2
    let fid := s.freshId
    .run (((s.fenceOp u.block u.lanes 3 scopeCluster []).emptyDest d).issueOp u.block u.lanes
      (.lmode mode.toNat mask d) [fid]) u.next))

/-- LNCH.CANCEL (R33, R242): the set goes on, and the cancel takes effect in a later cycle. -/
def execLnchCancel (_tc : BitVec 2) (sa : BitVec 8) (level : BitVec 2) (s : State) :
    Host.Outcome State Fault Refusal :=
  .next (uniUnit s [sa.toNat] [] (fun _ => false) (fun u _ g =>
    .run (s.requestCancel (s.tenantOfBlock u.block) level.toNat (g.sreg sa.toNat).val.toNat) u.next))

/-! ### The segmenter (R231) -/

/-- The shape of a checked table. -/
def shapeOf (t : List Byte) (dims : Nat) : List (Nat × Int × Int) :=
  (natRange 0 dims).map (fun d =>
    ((shapeEntry t d).1, (shapeEntry t d).2.2.1, (shapeEntry t d).2.2.2))

/-- The unit of a waiting request, for its parameter fault. -/
def SegReq.unit (q : SegReq) : Issue :=
  { Issue.start 2 (blockOfGroup q.group) q.pc q.members with word := 0x9200_0000 }

/-- SEGMENTER_READ: the shape table of a waiting CPY is read and checked (R222, R231). -/
def execSegmenterRead (group : Nat) (s : State) : Host.Outcome State Fault Refusal :=
  .next (
    let b := blockOfGroup group
    match s.blocks.find b with
    | none => s
    | some x =>
      match (s.cluster x.cluster).segReqs.find? (fun q => q.group == group && q.answer.isNone) with
      | none => s
      | some q =>
        if s.hasAccess q.members || !x.runs then s
        else
          let p := q.params
          let want := if cpyTableOk p x.packet.lscr then natRange (par p 5).toNat (16 * cpyDims p) else []
          match s.engLarders b want with
          | .error _ =>
            match firstBad (cpyStatic p x.packet.lscr) with
            | some w => s.paramFault q.unit w
            | none => s.killBlock b 1
          | .ok t =>
            match firstBad (cpyChecks p x.packet.lscr x.packet.cscr t) with
            | some w => s.paramFault q.unit w
            | none => s.modCluster x.cluster (fun c =>
                { c with segReqs := c.segReqs.map (fun r =>
                    if r = q then { q with answer := some (shapeOf t (cpyDims p)) } else r) }))

/-! ### Items (R224, R280) -/

/-- Bytes of part i of a CPY or FAB operation. -/
def EngOp.partBytes (o : EngOp) (i : Nat) : Nat :=
  match o.cls with
  | 2 => Nat.min 65536 (shapeBytes o.shape - 65536 * i)
  | 5 => if parOp o.params = 2 then 128 else Nat.min 4096 ((par o.params 5).toNat - 4096 * i)
  | _ => 0

/-- The cost of part i of an operation (R224). -/
def EngOp.cost (o : EngOp) (i : Nat) : Nat :=
  Nat.min 65535 (match o.cls with
    | 0 => parCount o.params * panPanels o.params
    | 1 => if parOp o.params ≤ 2 then parCount o.params else 1
    | 3 => o.rowCount
    | 4 => o.rowCount
    | _ => (o.partBytes i + 63) / 64)

/-- The destination device of a FAB (R235). -/
def EngOp.device (o : EngOp) : Nat := bitsOf (par o.params 0) 22 6

/-- Part i of an operation as an item (R224): `port` is the fabric port of a FAB. -/
def State.engineItem (s : State) (id : Nat) (o : EngOp) (i port : Nat) : Item :=
  let b := s.blocks.find o.block
  let prio := match b with
    | some x => x.prio
    | none => 0
  let route := match o.cls with
    | 0 => routeOf 1 o.cluster
    | 1 => routeOf 2 o.cluster
    | 5 => routeOf 4 port
    | _ => routeOf 3 o.cluster
  let f0 := BitVec.ofNat 16 (4096 * (o.cls + 1) + bitsOf (par o.params 0) 0 12)
  let f1 := BitVec.ofNat 16 (4096 * s.tenantOfBlock o.block + s.launchOf o.block % 4096)
  let rank := (natRange 10 4).flatMap (fun w =>
    [(par o.params w).extractLsb' 0 16, (par o.params w).extractLsb' 16 16])
  ⟨[f0, f1, BitVec.ofNat 16 prio, BitVec.ofNat 16 (o.cost i), 0, 0, route, o.handle.extractLsb' 0 16] ++ rank,
    .engine id i, 0, .none⟩

/-- An operation completes: it is marked done in its group, and its range is released (R237, R238). -/
def State.completeOp (s : State) (id : Nat) : State :=
  match s.ops.find id with
  | none => s
  | some o =>
    let s1 := { s with ops := s.ops.erase id }.modCluster o.cluster (fun c =>
      { c with rsb := c.rsb.filter (fun e => e.engOp != some id) })
    s1.modGroup (groupKey o.block o.group) (fun g =>
      if g.done.contains (o.cls, o.seq) then g else { g with done := g.done ++ [(o.cls, o.seq)] })

/-- One item of an operation is done. -/
def State.partDone (s : State) (id part : Nat) : State :=
  s.modOp id (fun o =>
    if o.donePts.contains part then o else { o with donePts := o.donePts ++ [part] })

/-- A queue entry frees once its operation's last item has been pushed (R220). -/
def State.notePush (s : State) (cl id : Nat) : State :=
  let s1 := s.modOp id (fun o => { o with pushed := o.pushed + 1 })
  match s1.ops.find id with
  | some o => if o.parts ≤ o.pushed then
      s1.modCluster cl (fun c => { c with engQ := c.engQ.filter (· != id) }) else s1
  | none => s1

/-- A packet for an absent device ends its operation with status 2 (R235, R327). -/
def State.absentPart (s : State) (id part : Nat) : State :=
  (s.modOp id (fun o => { o with status := if o.status = 0 then 2 else o.status })).partDone id part

/-- ENGINE_ITEM_PUSH: the first entry of a cluster's engine queue pushes its next item (R220, R224), after the block that
the launch unit pushes in the Hall cycle (R280). -/
def execEngineItemPush (cluster : Nat) (s : State) : Host.Outcome State Fault Refusal :=
  .next (
    match (s.cluster cluster).engQ with
    | [] => s
    | id :: _ =>
      match s.ops.find id with
      | none => s
      | some o =>
        match if o.cls = 5 then s.routePort o.device else some 0 with
        | none => (s.absentPart id o.pushed).notePush cluster id
        | some port =>
          match s.expandOldest.pushTop (s.engineItem id o o.pushed port) (ordCluster cluster) with
          | some s1 => s1.notePush cluster id
          | none => s)

/-- RET advances past the operations marked done (R238). -/
def Group.retire (g : Group) (cls : Nat) : Nat → Group
  | 0 => g
  | fuel + 1 =>
    let r := g.ret.getD cls 0
    if g.done.contains (cls, r) then
      Group.retire { g with ret := g.ret.set cls (r + 1), done := g.done.filter (· != (cls, r)) } cls fuel
    else g

/-- The end of a cycle for a group's counters (R238). -/
def Group.retireAll (g : Group) : Group :=
  (natRange 0 6).foldl (fun g c => g.retire c 64) g

/-- Every item of an operation is done. -/
def EngOp.finished (o : EngOp) : Bool :=
  decide (o.parts ≤ o.pushed) && (natRange 0 o.parts).all (fun i => o.donePts.contains i)

/-- A FAB writes its status word, if it names one (R235); a bank of it that is not in SCRATCH mode is an operand fault
(R222, R241). -/
def State.writeStatus (s : State) (o : EngOp) : Except EngFail State :=
  if o.cls = 5 ∧ par o.params 6 ≠ 0xFFFF_FFFF then
    s.engWriteLarder o.block (par o.params 6).toNat (leBytes o.status 4)
  else .ok s

/-- ENGINE_OP_COMPLETE: an operation whose items are all done completes (R235, R238). -/
def execEngineOpComplete (op : Nat) (s : State) : Host.Outcome State Fault Refusal :=
  .next (
    match s.ops.find op with
    | none => s
    | some o =>
      if !o.finished then s
      else
        match s.writeStatus o with
        | .error _ => s.killBlock o.block 1
        | .ok s1 =>
          ((s1.completeOp op).modGroup (groupKey o.block o.group) Group.retireAll).retireIfDone o.block)

end Sys2Proof.Machine
end

