-- ==== Sys2Proof/Machine/Matrix.lean ====
section
/-! DEFINITION. The Pan, the Grainer and the copy engine (R71 to R82, R232 to R234, R243, R244, R289, R295
to R305): staging, pops, steps, yields, copies, and resets. -/

namespace Sys2Proof.Machine

/-! ### Operands in Larder scratch -/

/-- Every byte lies in a bank in SCRATCH mode (R222). -/
def State.larderOk (s : State) (x : Block) (os : List Nat) : Bool :=
  os.all (fun o => (s.cluster x.cluster).bankMode (x.bankOf o) == 1)

/-- A little-endian word of Larder scratch. -/
def Block.word (x : Block) (o : Nat) : Word32 := BitVec.ofNat 32 (leNat (Memory.readBytes x.lmem o 4))

/-- A BF16 value of Larder scratch. -/
def Block.half (x : Block) (o : Nat) : Fp := bf16.decode (leNat (Memory.readBytes x.lmem o 2))

/-- A byte of Larder scratch as a number. -/
def Block.byte (x : Block) (o : Nat) : Nat := (Memory.read x.lmem o).toNat

/-- First unit of an engine's region in `Cluster.staged`. -/
def stagedBase (grainer : Bool) : Nat := if grainer then 64 else 0

/-- Units that a complete staging occupies. -/
def Staging.units : Staging → List Nat
  | .none => []
  | .begun us => us
  | .complete us => us

/-- A staged byte (R302). -/
def Cluster.stagedByte (c : Cluster) (us : List Nat) (z : Nat) : Byte :=
  Memory.read (c.staged.getD (us.getD (z / 131072) 0) []) (z % 131072)

/-- Writes of a step: bytes at Larder scratch offsets. -/
abbrev Writes := List (Nat × List Byte)

/-- The writes lie in banks in SCRATCH mode, and the state after them. -/
def State.writeAll (s : State) (x : Block) (b : Nat) (ws : Writes) : Option State :=
  if s.larderOk x (ws.flatMap (fun w => natRange w.1 w.2.length)) then
    some (s.setBlock b { x with lmem := ws.foldl (fun m w => m.writeBytes w.1 w.2) x.lmem })
  else none

/-- What a step of an engine comes to: an operand fault, an illegal T5 byte at an offset of its tile with
its value, or its writes, its cycles, and the running sums that it leaves. -/
inductive StepRes where
  | fault
  | illegal (off val : Nat)
  | done (ws : Writes) (cycles : Nat) (sums : NMap Word32)
  deriving DecidableEq, Repr

/-! ### A Pan step (R73 to R78, R295 to R298) -/

/-- What one step (p, c) of a PAN works on. -/
structure PanStep where
  x     : Block
  p     : List Word32
  /-- the weight byte (column of the panel, byte of the column) -/
  wbyte : Nat → Nat → Nat
  pass  : Nat
  panel : Nat
  entry : Nat

/-- ACT16 (R225). -/
def PanStep.act16 (t : PanStep) : Bool := parFlag t.p 3
/-- Columns of the panel below N (R73). -/
def PanStep.cols (t : PanStep) : Nat := Nat.min 256 (parN t.p - 256 * t.panel)
/-- Pass 0 with INIT (R78). -/
def PanStep.first (t : PanStep) : Bool := t.pass == 0 && parFlag t.p 0
/-- The final pass with OUT_BF16 (R78). -/
def PanStep.converts (t : PanStep) : Bool := t.pass + 1 == parCount t.p && parFlag t.p 1
/-- TZ of the step (R74). -/
def PanStep.zero (t : PanStep) : Bool := t.entry.testBit 32
/-- The weight byte is not read: its strip is skipped in its column group (R74, R298). -/
def PanStep.skips (t : PanStep) (n j : Nat) : Bool := t.entry.testBit (8 * (j / 16) + n / 32)
/-- Bytes of a column that the pass uses (R73). -/
def PanStep.depth (t : PanStep) : Nat := if t.act16 then 32 else 64

/-- The record of the pass in the activation-scale table (R75). -/
def PanStep.record (t : PanStep) : Nat := (par t.p 7).toNat + t.pass * (33 * parM t.p / 8)
/-- The mask bit of row m (R75). -/
def PanStep.masked (t : PanStep) (m : Nat) : Bool :=
  (t.x.byte (t.record + 4 * parM t.p + m / 8)).testBit (m % 8)
/-- Where the weight scale of column n of the panel lies (R75). -/
def PanStep.scaleAt (t : PanStep) (n : Nat) : Nat :=
  (par t.p 8).toNat + 4 * (t.pass * parN t.p + 256 * t.panel + n)
/-- Where C[m][n] of the panel lies (R226). -/
def PanStep.outAt (t : PanStep) (m n : Nat) : Nat := (descOf t.p 5).at 0 m (4 * (256 * t.panel + n))
/-- Where byte j of activation row m lies (R226). -/
def PanStep.actAt (t : PanStep) (m j : Nat) : Nat := (descOf t.p 1).at t.pass m j

/-- The activation that K row k of the pass takes (R75). -/
def PanStep.act (t : PanStep) (m k : Nat) : Int :=
  if t.act16 then (BitVec.ofNat 16 (t.x.byte (t.actAt m (2 * k)) + 256 * t.x.byte (t.actAt m (2 * k + 1)))).toInt
  else (BitVec.ofNat 8 (t.x.byte (t.actAt m k))).toInt

/-- The bytes of the tile that the fill reads (R298), as column and byte, in the order of their offsets. -/
def PanStep.tile (t : PanStep) : List (Nat × Nat) :=
  (natRange 0 t.cols).flatMap (fun n =>
    ((natRange 0 t.depth).filter (fun j => !t.skips n j)).map (fun j => (n, j)))

/-- The exact sum of row m and column n (R78). -/
def PanStep.acc (t : PanStep) (m n : Nat) : Int :=
  (natRange 0 t.depth).foldl (fun a j =>
    if t.skips n j then a
    else
      let b := t.wbyte n j
      (natRange 0 5).foldl (fun a i => a + t.act m (5 * j + i) * t5Digit b i) a) 0

/-- RNBF16 of a word, held as an FP32 word (R78). -/
def outBf16 (v : Word32) : Word32 := BitVec.ofNat 32 (65536 * rnBf16 (f32 v))

/-- The drain's result for an unmasked row and a column (R78). -/
def PanStep.drain (t : PanStep) (m n : Nat) : Word32 :=
  let sc := fMul .rne (t.x.word (t.record + 4 * m)) (t.x.word (t.scaleAt n))
  let prod := (Fp.ofInt (t.acc m n)).mul (f32 sc)
  if t.first then rn .rne prod else rn .rne (fpSum .rne [prod, f32 (t.x.word (t.outAt m n))])

/-- What an element that the pass's arithmetic leaves alone receives: +0, its conversion, or nothing
(R78, R296). -/
def PanStep.idle (t : PanStep) (m n : Nat) : Option Word32 :=
  if t.first then some 0
  else if t.converts then some (outBf16 (t.x.word (t.outAt m n)))
  else none

/-- The writes of a step (R296). -/
def PanStep.writes (t : PanStep) : Writes :=
  (natRange 0 (parM t.p)).flatMap (fun m => (natRange 0 t.cols).filterMap (fun n =>
    let v := if t.zero || t.masked m then t.idle m n
      else some (if t.converts then outBf16 (t.drain m n) else t.drain m n)
    v.map (fun w => (t.outAt m n, leBytes w.toNat 4))))

/-- The rows that the stream takes (R296). -/
def PanStep.live (t : PanStep) : List Nat := (natRange 0 (parM t.p)).filter (fun m => !t.masked m)

/-- The offsets of C that the step reads (R78, R296). -/
def PanStep.outReads (t : PanStep) : List Nat :=
  if t.first then []
  else
    let rows := if t.converts then natRange 0 (parM t.p) else if t.zero then [] else t.live
    rows.flatMap (fun m => (natRange 0 t.cols).flatMap (fun n => natRange (t.outAt m n) 4))

/-- The cycles of a step (R296, R297). -/
def PanStep.cycles (t : PanStep) : Nat := if t.zero then 8 else 18 + t.live.length

/-- A step of a PAN (R295 to R299). -/
def State.panStep (s : State) (x : Block) (o : EngOp) (it : Item) (pass panel : Nat) : StepRes :=
  let p := o.params
  let c := panPanels p
  let map := (par p 9).toNat + 8 * (pass * c + panel)
  if !s.larderOk x (natRange map 8) then .fault
  else
    let tile := 16384 * (pass * c + panel)
    let w := descOf p 3
    let at_ := fun n j => w.base + 64 * w.tp * (pass * c + panel) + 64 * n + j
    let staged := parFlag p 2
    let t : PanStep :=
      { x := x
        p := p
        wbyte := fun n j =>
          if staged then ((s.cluster o.cluster).stagedByte it.stage.units (tile + 64 * n + j)).toNat
          else x.byte (at_ n j)
        pass := pass
        panel := panel
        entry := leNat (Memory.readBytes x.lmem map 8) }
    if t.zero then
      if s.larderOk x t.outReads then .done t.writes t.cycles [] else .fault
    else
      let fill := (if staged then [] else t.tile.map (fun q => at_ q.1 q.2)) ++
        (natRange 0 t.cols).flatMap (fun n => natRange (t.scaleAt n) 4) ++
        natRange (t.record + 4 * parM p) (parM p / 8)
      if !s.larderOk x fill then .fault
      else
        match t.tile.find? (fun q => decide (242 < t.wbyte q.1 q.2)) with
        | some q => .illegal (64 * q.1 + q.2) (t.wbyte q.1 q.2)
        | none =>
          let acts := t.live.flatMap (fun m => natRange (t.record + 4 * m) 4 ++ (descOf p 1).row pass m 320)
          if s.larderOk x (acts ++ t.outReads) then .done t.writes t.cycles [] else .fault

/-! ### A Grainer step (R79 to R82, R300) -/

/-- C′ = ⌈N ÷ 128⌉ (R300). -/
def grnPanels (p : List Word32) : Nat := (parN p + 127) / 128

/-- Columns of a 128-column panel below N. -/
def grnCols (p : List Word32) (c : Nat) : List Nat := natRange (128 * c) (Nat.min 128 (parN p - 128 * c))

/-- The exact sum of products, rounded once; an exact zero is +0 (R79). -/
def sumFp8 (ps : List Fp) : Word32 :=
  let v := rn .rne (fpSum .rne ps)
  if v = 0x8000_0000 then 0 else v

/-- One level of the balanced tree (R80). -/
def treeLevel : List Word32 → List Word32
  | a :: b :: rest => fAdd .rne a b :: treeLevel rest
  | rest => rest

/-- The first level of the tree, over exact products (R80). -/
def treeBase : List Fp → List Word32
  | a :: b :: rest => rn .rne (fpSum .rne [a, b]) :: treeBase rest
  | _ => []

/-- The group sum G of 32 exact products (R80). -/
def groupSum (ps : List Fp) : Word32 :=
  (treeLevel (treeLevel (treeLevel (treeLevel (treeBase ps))))).headD 0

/-- The operands of an MM mode: where A lies, and what element k of column n of B is. -/
structure MmStep where
  x  : Block
  p  : List Word32
  /-- byte j of column n of B -/
  bb : Nat → Nat → Nat

/-- Element k of row m of A as bits (R228). -/
def MmStep.a (t : MmStep) (m k : Nat) : Nat :=
  let d := descOf t.p 1
  if mmSize t.p = 2 then leNat (Memory.readBytes t.x.lmem (d.at 0 m (2 * k)) 2) else t.x.byte (d.at 0 m k)

/-- Element k of column n of B as bits (R228). -/
def MmStep.b (t : MmStep) (n k : Nat) : Nat :=
  if mmSize t.p = 2 then t.bb n (2 * k) + 256 * t.bb n (2 * k + 1) else t.bb n k

/-- The input format of an MM mode (R227). -/
def mmFmt (p : List Word32) : Fmt :=
  match parOp p with
  | 0 => e4m3
  | 1 => e5m2
  | _ => bf16

/-- The exact products of row m and column n over `len` elements from k on. -/
def MmStep.products (t : MmStep) (m n k len : Nat) : List Fp :=
  (natRange k len).map (fun i => ((mmFmt t.p).decode (t.a m i)).mul ((mmFmt t.p).decode (t.b n i)))

/-- The bytes of A and, unless staged, of B that a step reads. -/
def mmReads (p : List Word32) (cols : List Nat) (k len : Nat) : List Nat :=
  let z := mmSize p
  let js := natRange (z * k) (z * len)
  (natRange 0 (parM p)).flatMap (fun m => js.map (fun j => (descOf p 1).at 0 m j)) ++
  (if parFlag p 2 then [] else cols.flatMap (fun n => js.map (fun j => (descOf p 3).at 0 n j)))

/-- A step of an FP8 mode: K-block `blk`, panel `c` (R79, R300). -/
def State.fp8Step (s : State) (t : MmStep) (blk c : Nat) : StepRes :=
  let cols := grnCols t.p c
  if !s.larderOk t.x (mmReads t.p cols (128 * blk) 128) then .fault
  else
    .done ((natRange 0 (parM t.p)).flatMap (fun m => cols.map (fun n =>
      ((descOf t.p 5).at blk m (4 * n), leBytes (sumFp8 (t.products m n (128 * blk) 128)).toNat 4))))
      (14 + parM t.p) []

/-- A step of MM.BF16: panel and group of 32 (R80, R228, R300). -/
def State.bf16Step (s : State) (t : MmStep) (step : Nat) (sums : NMap Word32) : StepRes :=
  let kb := parCount t.p
  let cols := grnCols t.p (step / kb)
  let g := step % kb
  let init := parFlag t.p 0
  let at_ := fun m n => (descOf t.p 5).at 0 m (4 * n)
  let elems := (natRange 0 (parM t.p)).flatMap (fun m => cols.map (fun n => (m, n)))
  let cReads := if g = 0 ∧ !init then elems.flatMap (fun e => natRange (at_ e.1 e.2) 4) else []
  if !s.larderOk t.x (mmReads t.p cols (32 * g) 32 ++ cReads) then .fault
  else
    let next := elems.map (fun e =>
      let gs := groupSum (t.products e.1 e.2 (32 * g) 32)
      let key := parN t.p * e.1 + e.2
      let v := if g = 0 then (if init then gs else fAdd .rne (t.x.word (at_ e.1 e.2)) gs)
        else fAdd .rne (sums.getD key 0) gs
      (e, v))
    .done (if g + 1 = kb then next.map (fun q => (at_ q.1.1 q.1.2, leBytes q.2.toNat 4)) else [])
      (14 + parM t.p)
      (if g + 1 = kb then []
       else next.foldl (fun m q => NMap.set m (parN t.p * q.1.1 + q.1.2) q.2) sums)

/-- The greatest magnitude of the finite values of a block or row (R81, R82); 0 where it has none, for which the spec
gives no value (assumption 121). -/
def amax (xs : List Fp) : Fp :=
  xs.foldl (fun a x =>
    match x with
    | .fin _ m e => if fpLt a (.fin false m e) then .fin false m e else a
    | _ => a) (.fin false 0 0)

/-- t with the scale of R81 equal to 2^t: 0 when amax is 0, else ⌈log2 (amax ÷ 448)⌉. -/
def q2Exp (a : Fp) : Int :=
  match a with
  | .fin _ m e =>
    if m = 0 then 0
    else
      let l := bitLen m
      e - 6 + (l : Int) - (if 8 * m ≤ 7 * 2 ^ l then 3 else 2)
  | _ => 0

/-- x ÷ 2^t in E4M3, saturating (R81). -/
def q2Value (x : Fp) (t : Int) : Nat :=
  rne8 e4m3 true (match x with
    | .fin n m e => .fin n m (e - t)
    | y => y)

/-- Q2 (R81, R229). -/
def State.q2Step (s : State) (x : Block) (p : List Word32) : StepRes :=
  let src := fun m n => (descOf p 1).at 0 m (2 * n)
  let all := natRange 0 128
  if !s.larderOk x (all.flatMap (fun m => (descOf p 1).row 0 m 256)) then .fault
  else
    let rowT := all.map (fun m => q2Exp (amax (all.map (fun n => x.half (src m n)))))
    let colT := all.map (fun n => q2Exp (amax (all.map (fun m => x.half (src m n)))))
    let scale := fun (t : Int) => leBytes (rn .rne (.fin false 1 t)).toNat 4
    .done (all.flatMap (fun m => all.flatMap (fun n =>
        [((descOf p 3).at 0 m n, leBytes (q2Value (x.half (src m n)) (rowT.getD m 0)) 1),
          ((descOf p 5).at 0 n m, leBytes (q2Value (x.half (src m n)) (colT.getD n 0)) 1)])) ++
      all.map (fun m => ((par p 7).toNat + 4 * m, scale (rowT.getD m 0))) ++
      all.map (fun n => ((par p 8).toNat + 4 * n, scale (colT.getD n 0)))) 272 []

/-- One pass of QA (R82, R230). -/
def State.qaStep (s : State) (x : Block) (p : List Word32) (pass : Nat) : StepRes :=
  let m := parM p
  let rows := natRange 0 m
  let rec_ := (par p 7).toNat + pass * (33 * m / 8)
  if !s.larderOk x (rows.flatMap (fun r => (descOf p 1).row pass r 640)) then .fault
  else
    let quant := rows.map (fun r =>
      let xs := (natRange 0 320).map (fun k => x.half ((descOf p 1).at pass r (2 * k)))
      let a := amax xs
      let sc := if a.isZero false then rn .rne (.fin false 1 0) else rn .rne (a.div (.fin false 127 0))
      (sc, xs.map (fun v => quant8 .rne (v.div (f32 sc)))))
    let row := fun r => quant.getD r (0, [])
    let maskByte := fun i => (natRange 0 8).foldl (fun n k =>
      n + if (row (8 * i + k)).2.all (· == 0) then 2 ^ k else 0) 0
    .done (rows.flatMap (fun r => (natRange 0 320).map (fun k =>
        ((descOf p 3).at pass r k, leBytes ((row r).2.getD k 0) 1))) ++
      rows.map (fun r => (rec_ + 4 * r, leBytes (row r).1.toNat 4)) ++
      (natRange 0 (m / 8)).map (fun i => (rec_ + 4 * m + i, leBytes (maskByte i) 1))) (14 + m) []

/-- A step of a GRN (R300). -/
def State.grnStep (s : State) (x : Block) (o : EngOp) (it : Item) (pass step : Nat) (sums : NMap Word32) :
    StepRes :=
  let p := o.params
  let len := mmK p * mmSize p
  let t : MmStep := ⟨x, p, fun n j =>
    if parFlag p 2 then ((s.cluster o.cluster).stagedByte it.stage.units (n * len + j)).toNat
    else x.byte ((descOf p 3).at 0 n j)⟩
  match parOp p with
  | 2 => s.bf16Step t step sums
  | 3 => s.q2Step x p
  | 4 => s.qaStep x p pass
  | _ => s.fp8Step t pass step

/-- Passes of a task (R295, R300). -/
def EngOp.passes (o : EngOp) : Nat :=
  if o.cls = 0 then parCount o.params
  else
    match parOp o.params with
    | 2 => 1
    | 3 => 1
    | _ => parCount o.params

/-- Steps of a pass (R295, R300). -/
def EngOp.steps (o : EngOp) : Nat :=
  if o.cls = 0 then panPanels o.params
  else
    match parOp o.params with
    | 2 => parCount o.params * grnPanels o.params
    | 3 => 1
    | 4 => 1
    | _ => grnPanels o.params

/-! ### Running a task (R295, R299, R303) -/

/-- What the Pan or the Grainer of a cluster holds. -/
def Cluster.run (c : Cluster) (grainer : Bool) : Option EngRun := if grainer then c.grn else c.pan

/-- Sets what the Pan or the Grainer of a cluster holds. -/
def State.setRun (s : State) (cl : Nat) (grainer : Bool) (r : Option EngRun) : State :=
  s.modCluster cl (fun c => if grainer then { c with grn := r } else { c with pan := r })

/-- The leaf of an engine. -/
def engineLeaf (cl : Nat) (grainer : Bool) : Nat := if grainer then grnLeaf cl else panLeaf cl

/-- Engine cycles left of a reset (R305). -/
def Cluster.resetting (c : Cluster) (grainer : Bool) : Nat := if grainer then c.grRst else c.pnRst

/-- The operation and part of an engine's item. -/
def State.opOf (s : State) (it : Item) : Option (Nat × Nat × EngOp) :=
  match it.owner with
  | .engine op part => (s.ops.find op).map (fun o => (op, part, o))
  | _ => none

/-- The operation stages an operand (R225, R227). -/
def EngOp.stages (o : EngOp) : Bool :=
  (o.cls == 0 || (o.cls == 1 && decide (parOp o.params ≤ 2))) && parFlag o.params 2

/-- Bytes of the staged operand (R302). -/
def EngOp.stageSize (o : EngOp) : Nat :=
  if o.cls = 0 then 16384 * parCount o.params * panPanels o.params
  else parN o.params * mmK o.params * mmSize o.params

/-- The item may be popped: nothing of it has still to be staged (R289). -/
def State.stageDone (s : State) (it : Item) : Bool :=
  match s.opOf it with
  | some (_, _, o) =>
    !o.stages ||
    (match it.stage with
     | .complete _ => true
     | _ => false)
  | none => true

/-- The Pan or the Grainer pops its leaf's head (R280, R289, R295, R300, R303). -/
def State.enginePop (s : State) (cl : Nat) (grainer : Bool) : State :=
  let n := engineLeaf cl grainer
  match (s.sluice n).items with
  | [] => s
  | q :: _ =>
    if 96 ≤ cl ∨ ((s.cluster cl).run grainer).isSome ∨ (s.cluster cl).resetting grainer ≠ 0 ∨ !s.canTake n ∨
        !s.stageDone q.item then s
    else (s.popHead n).setRun cl grainer (some ⟨q.item, q.rank, q.item.p0, 0, 0, 0, false, []⟩)

/-- PAN_POP (R295). -/
def execPanPop (cluster : Nat) (s : State) : Host.Outcome State Fault Refusal :=
  .next (s.enginePop cluster false)

/-- GRAINER_POP (R300). -/
def execGrainerPop (cluster : Nat) (s : State) : Host.Outcome State Fault Refusal :=
  .next (s.enginePop cluster true)

/-- What follows a step (R295, R300, R303): the next step or pass, the stop of a marked yield at a pass boundary with the
first pass of the tail, or the end of the task. -/
inductive After where
  | run (r : EngRun)
  | stop (p0 : Nat)
  | done
  deriving DecidableEq, Repr

/-- What follows a step of some cycles (R295, R300, R303). -/
def EngRun.after (r : EngRun) (o : EngOp) (cycles : Nat) (sums : NMap Word32) : After :=
  let r1 := { r with busy := r.busy + cycles, idle := 0, sums := sums }
  if r.step + 1 < o.steps then .run { r1 with step := r.step + 1 }
  else if r.pass + 1 < o.passes then
    (if r.yield then .stop (r.pass + 1) else .run { r1 with pass := r.pass + 1, step := 0 })
  else .done

/-- The record of a ternary data fault (R299, R308). -/
def State.ternaryRec (s : State) (o : EngOp) (p c off val : Nat) : FaultRec :=
  { s.groupRec 9 (groupKey o.block o.group) o.pc with
    handle := o.handle
    info := BitVec.ofNat 32 (p + 256 * c)
    info2 := BitVec.ofNat 64 (off + 65536 * val) }

/-- Pan cycles of a fill (R296, R299). -/
def fillCycles : Nat := 6

/-- A step of the Pan or the Grainer ends: when it has taken its cycles, or those of its fill where that meets an
illegal byte (R295 to R300, R303). -/
def State.engineStep (s : State) (cl : Nat) (grainer : Bool) : State :=
  match (s.cluster cl).run grainer with
  | none => s
  | some r =>
    match s.opOf r.item with
    | none => s
    | some (id, part, o) =>
      match s.blocks.find o.block with
      | none => s
      | some x =>
        match if grainer then s.grnStep x o r.item r.pass r.step r.sums
          else s.panStep x o r.item r.pass r.step with
        | .fault => s.killBlock o.block 1
        | .illegal off val =>
          if r.idle ≠ fillCycles then s
          else (s.postRecord x.tenant (s.ternaryRec o r.pass r.step off val)).killBlock o.block 2
        | .done ws cycles sums =>
          if r.idle ≠ cycles then s
          else
            match s.writeAll x o.block ws with
            | none => s.killBlock o.block 1
            | some s1 =>
              match r.after o cycles sums with
              | .run r1 => s1.setRun cl grainer (some r1)
              | .stop p0 => (s1.setRun cl grainer none).repushLeaf o.block { r.item with p0 := p0 } r.rank
              | .done => ((s1.setRun cl grainer none).releaseStage cl r.item).partDone id part

/-- PAN_STEP (R296). -/
def execPanStep (cluster : Nat) (s : State) : Host.Outcome State Fault Refusal :=
  .next (s.engineStep cluster false)

/-- GRAINER_STEP (R300). -/
def execGrainerStep (cluster : Nat) (s : State) : Host.Outcome State Fault Refusal :=
  .next (s.engineStep cluster true)

/-- TAIL_REPUSH: in the Hall cycle after the stop, the tail that a Pan or a Grainer has left is pushed into its leaf with
its rank (R280, R281, R303). -/
def execTailRepush (cluster : Nat) (grainer : Bool) (s : State) : Host.Outcome State Fault Refusal :=
  .next (if cluster < 96 then s.flushRepush (some (engineLeaf cluster grainer)) else s)

/-! ### Items set aside (R243) -/

/-- A translation fault of an engine's access: the item is set aside, and the fault is on its way to the Hall
(R243, R307). -/
def State.setAside (s : State) (o : EngOp) (it : Item) (rank : BitVec 16) (f : XFault) (write : Bool) : State :=
  let r := { s.groupRec 3 (groupKey o.block o.group) o.pc with handle := o.handle }
  let m : FaultMsg :=
    ⟨s.freshId, r.ofFault (if write then accEngWrite else accEngRead) f, f.stage, some (it, rank), o.block⟩
  s.bumpId.modDesk (fun d => { d with msgs := d.msgs ++ [m] })

/-- What becomes of an engine's failing access (R222, R243). -/
def State.engineFail (s : State) (o : EngOp) (it : Item) (rank : BitVec 16) : EngFail → State
  | .xlate f _ write => s.setAside o it rank f write
  | .operand => s.killBlock o.block 1

/-! ### Staging (R289, R301, R302) -/

/-- COUNT of an engine's region (R301). -/
def Cluster.regionUnits (c : Cluster) (grainer : Bool) : Nat := stagingCount (if grainer then c.stgg else c.stgp)

/-- Units of a region that hold no staging (R302). -/
def Cluster.freeUnits (c : Cluster) (grainer : Bool) : List Nat :=
  (natRange (stagedBase grainer) (c.regionUnits grainer)).filter (fun u => (c.staged.find u).isNone)

/-- The item whose staging would begin next in a leaf (R289, R302). -/
def State.nextStaged (s : State) (cl : Nat) (grainer : Bool) : Option (QItem × EngOp) :=
  let x := s.sluice (engineLeaf cl grainer)
  (x.items.take (x.d + 1)).findSome? (fun q =>
    match s.opOf q.item with
    | some (_, _, o) => if o.stages && q.item.stage == .none then some (q, o) else none
    | none => none)

/-- The staging copy of some item of a leaf is under way. -/
def State.staging (s : State) (cl : Nat) (grainer : Bool) : Option QItem :=
  (s.sluice (engineLeaf cl grainer)).items.find? (fun q =>
    match q.item.stage with
    | .begun _ => true
    | _ => false)

/-- Units that an operand needs (R302). -/
def EngOp.stageUnits (o : EngOp) : Nat := (o.stageSize + 131071) / 131072

/-- A staging copy can begin now (R289, R302). -/
def State.canStage (s : State) (cl : Nat) (grainer : Bool) : Bool :=
  match s.nextStaged cl grainer with
  | some (_, o) => decide (o.stageUnits ≤ ((s.cluster cl).freeUnits grainer).length)
  | none => false

/-- Changes an item that stands in a sluice. -/
def State.modItem (s : State) (n : Nat) (q : QItem) (f : Item → Item) : State :=
  s.modSluice n (fun x => { x with items := x.items.map (fun y => if y = q then { y with item := f y.item } else y) })

/-- An item of a leaf that is eligible for staging and whose operand no free units could ever hold (R302). -/
def State.oversized (s : State) (cl : Nat) (grainer : Bool) : Option EngOp :=
  let x := s.sluice (engineLeaf cl grainer)
  (x.items.take (x.d + 1)).findSome? (fun q =>
    match s.opOf q.item with
    | some (_, _, o) =>
      if o.stages && q.item.stage == .none && decide ((s.cluster cl).regionUnits grainer < o.stageUnits) then some o
      else none
    | none => none)

/-- Operands beyond the whole region are operand faults as soon as their items are eligible (R302). -/
def State.faultOversized (s : State) (cl : Nat) (grainer : Bool) : State :=
  match s.oversized cl grainer with
  | some o => s.killBlock o.block 1
  | none => s

/-- STAGING_START: the copy engine begins the staging of the first eligible item once its units are free;
an eligible operand beyond the whole region is an operand fault (R289, R302). -/
def execStagingStart (cluster : Nat) (grainer : Bool) (s : State) : Host.Outcome State Fault Refusal :=
  .next (
    let c := s.cluster cluster
    if (s.oversized cluster grainer).isSome then s.faultOversized cluster grainer
    else
      match s.nextStaged cluster grainer with
      | none => s
      | some (q, o) =>
        if c.copy.isSome || (s.staging cluster false).isSome || (s.staging cluster true).isSome ||
            !s.canStage cluster grainer then s
        else
          let us := (c.freeUnits grainer).take o.stageUnits
          (s.modItem (engineLeaf cluster grainer) q (fun it => { it with stage := .begun us })).modCluster cluster
            (fun c => { c with staged := us.foldl (fun m u => m.set u []) c.staged }))

/-- The bytes of each unit of a staged operand. -/
def stageImages (us : List Nat) (data : List Byte) : List (Nat × Memory) :=
  us.zipIdx.map (fun u => (u.1, Memory.writeBytes [] 0 ((data.drop (131072 * u.2)).take 131072)))

/-- STAGING_COMPLETE: the staged bytes stand in the region (R236, R243, R302). -/
def execStagingComplete (cluster : Nat) (grainer : Bool) (s : State) : Host.Outcome State Fault Refusal :=
  .next (
    let n := engineLeaf cluster grainer
    match s.staging cluster grainer with
    | none => s
    | some q =>
      match s.opOf q.item with
      | none => s
      | some (_, _, o) =>
        match s.engStage o.block (natRange (par64 o.params 3) o.stageSize) with
        | .ok data =>
          (s.modItem n q (fun it => { it with stage := .complete it.stage.units })).modCluster cluster (fun c =>
            { c with staged := (stageImages q.item.stage.units data).foldl (fun m u => m.set u.1 u.2) c.staged })
        | .error f =>
          ((s.releaseStage cluster q.item).modSluice n (fun x =>
            { x with items := x.items.filter (fun y => y != q) })).engineFail o
            { q.item with stage := .none } q.rank f)

/-- A staging region that a write names keeps the rules of R301. -/
def State.regionOk (s : State) (cl : Nat) (grainer : Bool) (val : Word32) : Bool :=
  let c := s.cluster cl
  let old := if grainer then c.stgg else c.stgp
  let other := if grainer then c.stgp else c.stgg
  let f := stagingFirst val
  let n := stagingCount val
  let inOld := fun i => decide (stagingFirst old ≤ i) && decide (i < stagingFirst old + stagingCount old)
  let inOther := fun i => decide (stagingFirst other ≤ i) && decide (i < stagingFirst other + stagingCount other)
  let banks := natRange f n
  decide (f + n ≤ 48) && banks.all (fun i => !inOther i) &&
  banks.all (fun i => inOld i || (c.bankMode i == 1 && !s.bankHeld cl i none)) &&
  c.staged.all (fun u => decide (u.1 < 64) == grainer)

/-- A write of CL.STGP or CL.STGG (R301). -/
def State.writeRegion (s : State) (cl : Nat) (grainer : Bool) (val : Word32) (off : Nat) : State :=
  let v := val &&& 0x0000_3F3F
  if !s.regionOk cl grainer v then s.log (.regRefused off)
  else s.modCluster cl (fun c => if grainer then { c with stgg := v } else { c with stgp := v })

/-! ### The copy engine (R232 to R234) -/

/-- The copy engine of a cluster is free for an item of its leaf: no staging copy is taken before it (R289). -/
def State.copyFree (s : State) (cl : Nat) : Bool :=
  (s.cluster cl).copy.isNone && (s.staging cl false).isNone && (s.staging cl true).isNone &&
  !s.canStage cl false && !s.canStage cl true

/-- The copy engine takes its leaf's head (R232, R280, R289). -/
def State.copyPop (s : State) (cluster : Nat) : State :=
  let n := copyLeaf cluster
  match (s.sluice n).items with
  | [] => s
  | q :: _ =>
    if 96 ≤ cluster ∨ !s.canTake n ∨ !s.copyFree cluster then s
    else
      let s1 := s.popHead n
      match s1.opOf q.item with
      | none => s1
      | some (_, part, o) =>
        s1.modCluster cluster (fun c => { c with copy := some ⟨q.item, q.rank, o.todo part q.item.p0, []⟩ })

/-- COPY_LEAF_POP (R232). -/
def execCopyLeafPop (cluster : Nat) (s : State) : Host.Outcome State Fault Refusal := .next (s.copyPop cluster)

/-- A CPY segment goes on (R232): a free choice of the bytes to read is read, then a free choice of what has been
read is written, and it is done once nothing is left; a failure stops it, to start again (R243). -/
def State.cpyOnward (s : State) (cl id part : Nat) (o : EngOp) (r : CopyRun) : State :=
  let take := if r.writes.isEmpty then pickSome s.freeCtr r.todo else pickAny s.freeCtr r.todo
  let s0 := (s.drawnN 2).modCluster cl (fun c => { c with copy := none })
  match s0.cpyRead o take.1 with
  | .error f => s0.engineFail o r.item r.rank f
  | .ok got =>
    let all := r.writes ++ got
    let out := if take.1.isEmpty then pickSome (s.freeCtr + 1) all else pickAny (s.freeCtr + 1) all
    match (s0.drawn.engRequests o.block (o.cpyReads take.1)).engWrites o.block out.1 with
    | (s1, some f) => s1.engineFail o r.item r.rank f
    | (s1, none) =>
      if take.2.isEmpty && out.2.isEmpty then s1.partDone id part
      else s1.modCluster cl (fun c => { c with copy := some { r with todo := take.2, writes := out.2 } })

/-- A GAT or SCT goes on (R233, R234): a free choice of the rows left is done; a failure stops it, and the rows
done stand (R243). -/
def State.rowsOnward (s : State) (cl id part : Nat) (o : EngOp) (r : CopyRun) : State :=
  let rows := s.rowsWith o r.todo (pickSome s.freeCtr r.todo).1
  match State.engRows o (s.drawn.modCluster cl (fun c => { c with copy := none })) rows with
  | (s1, rest, fail) =>
    let left := r.todo.filter (fun i => !rows.contains i || rest.contains i)
    match fail with
    | some f => s1.engineFail o { r.item with p0 := o.doneBits left } r.rank f
    | none =>
      if left.isEmpty then s1.partDone id part
      else s1.modCluster cl (fun c => { c with copy := some { r with todo := left } })

/-- COPY_SEGMENT_COMPLETE: the running segment, GAT or SCT goes on, as far as free choices say; the item is done
with its last byte or row (R232 to R234, R243). -/
def execCopySegmentComplete (cluster : Nat) (s : State) : Host.Outcome State Fault Refusal :=
  .next (
    match (s.cluster cluster).copy with
    | none => s
    | some r =>
      match s.opOf r.item with
      | none => s
      | some (id, part, o) =>
        if o.cls = 2 then s.cpyOnward cluster id part o r else s.rowsOnward cluster id part o r)

/-! ### Hang and reset (R244, R304, R305) -/

/-- RESTART_OK of an operation (R225, R227). -/
def EngOp.restartOk (o : EngOp) : Bool := parFlag o.params 4

/-- The running item at a reset of its engine (R244, R305): restarted from pass 0 out of its leaf, or its block is
killed. -/
def State.resetRunning (s : State) (cl : Nat) (grainer : Bool) : State :=
  match (s.cluster cl).run grainer with
  | none => s
  | some r =>
    match s.opOf r.item with
    | none => s.setRun cl grainer none
    | some (_, _, o) =>
      if o.restartOk then (s.setRun cl grainer none).repushLeaf o.block { r.item with p0 := 0 } r.rank
      else s.killBlock o.block 4

/-- A reset of the Pan or the Grainer (R305); one in progress takes no further reset. The leaf's items enter it again in
their order, with their ranks and their staging, each as it stood (assumption 135). -/
def State.resetEngine (s : State) (cl : Nat) (grainer : Bool) : State :=
  if (s.cluster cl).resetting grainer ≠ 0 then s
  else
    let s1 := s.resetRunning cl grainer
    let n := engineLeaf cl grainer
    let items := (s1.sluice n).items
    let s2 := s1.modSluice n (fun x => { x with items := [] })
    let ahead := items.map (·.item.owner)
    let s3 := items.foldl (fun s q =>
      match s.opOf q.item with
      | some (_, _, o) => s.repushLeaf o.block q.item q.rank (some (q.place, ahead.takeWhile (· != q.item.owner)))
      | none => s) s2
    s3.modCluster cl (fun c =>
      if grainer then { c with grRst := 512, grResets := Nat.min 255 (c.grResets + 1) }
      else { c with pnRst := 512, pnResets := Nat.min 255 (c.pnResets + 1) })

/-- The window offset of a cluster's MXCTL (R304). -/
def mxctlOffset (cl : Nat) : Nat := 0x1000000 + 0x10000 * cl + 0x400

/-- PAN_RESET: the Parlour's write (R7, R305). -/
def execPanReset (cluster : Nat) (s : State) : Host.Outcome State Fault Refusal :=
  .next (if cluster < 96 then (s.discard reqParlour (mxctlOffset cluster)).resetEngine cluster false else s)

/-- GRAINER_RESET: the Parlour's write (R7, R305). -/
def execGrainerReset (cluster : Nat) (s : State) : Host.Outcome State Fault Refusal :=
  .next (if cluster < 96 then (s.discard reqParlour (mxctlOffset cluster)).resetEngine cluster true else s)

/-- ENGINE_WATCHDOG: an engine that has completed no step for WDOG × 1,024 of its cycles is reset and the hang
is logged (R304). -/
def execEngineWatchdog (cluster : Nat) (grainer : Bool) (s : State) : Host.Outcome State Fault Refusal :=
  .next (
    let c := s.cluster cluster
    match c.run grainer with
    | none => s
    | some r =>
      if c.wdog = 0 ∨ r.idle < 1024 * c.wdog.toNat then s
      else
        let handle := match s.opOf r.item with
          | some (_, _, o) => o.handle
          | none => 0
        (s.resetEngine cluster grainer).log (.hang cluster grainer handle))

/-- A run after one cycle of its engine. -/
def EngRun.tick (r : EngRun) : EngRun := { r with idle := r.idle + 1 }

/-- One engine cycle of a cluster: hang counts and reset times (R304, R305). -/
def Cluster.tickEngines (c : Cluster) : Cluster :=
  { c with
    pan := c.pan.map EngRun.tick
    grn := c.grn.map EngRun.tick
    pnRst := c.pnRst - 1
    grRst := c.grRst - 1 }

/-- The window offset of a staging region's register (R301). -/
def stageOffset (cl : Nat) (grainer : Bool) : Nat := 0x1000000 + 0x10000 * cl + if grainer then 0x40C else 0x408

/-- STAGING_REGION_WRITE: the Parlour's write (R7, R301). -/
def execStagingRegionWrite (cluster : Nat) (grainer : Bool) (val : BitVec 32) (s : State) :
    Host.Outcome State Fault Refusal :=
  .next (
    let o := stageOffset cluster grainer
    if cluster < 96 then (s.discard reqParlour o).writeRegion cluster grainer val o else s)

end Sys2Proof.Machine
end

