-- ==== Sys2Proof/Machine/CoreCycle.lean ====
section
/-! DEFINITION. The end of a core cycle (R39, R47, R52 to R57, R132, R190, R194, R238, R245 to R252,
R350, R351), a cycle of the Hall's launch barriers and of a cluster's units, and the events of pickers
and barriers that stand in the opcode table by themselves. -/

namespace Sys2Proof.Machine

/-! ### Hatches (R132, R209) -/

/-- The operation concerns a hatch of a group. -/
def HatchOp.names (o : HatchOp) : Nat × Nat :=
  match o with
  | .take g h => (g, h)
  | .put g h _ _ => (g, h)
  | .poison g h => (g, h)

/-- The put that wins among some operations: its order and value (R132). -/
def winningPut (ops : List HatchOp) : Option (Nat × Word32) :=
  ops.foldl (fun best o =>
    match o, best with
    | .put _ _ n v, some (m, _) => if m < n then some (n, v) else best
    | .put _ _ n v, none => some (n, v)
    | _, _ => best) none

/-- A hatch after the operations of one cycle (R131, R132, R209). -/
def Reg.afterOps (r : Reg) (ops : List HatchOp) : Reg :=
  let takes := ops.any (fun o => match o with
    | .take _ _ => true
    | _ => false)
  let poisons := ops.any (fun o => match o with
    | .poison _ _ => true
    | _ => false)
  let r1 := if takes && r.full then r.emptied else r
  match winningPut ops, poisons with
  | some (_, v), true => ⟨v, true, true⟩
  | some (_, v), false => Reg.ofVal v
  | none, true => r1.poisoned
  | none, false => r1

/-- The hatch operations of a cycle take effect (R132). -/
def State.applyHatches (s : State) (ops : List HatchOp) : State :=
  ((ops.map HatchOp.names).eraseDups).foldl (fun s gh =>
    s.modGroup gh.1 (fun g =>
      g.setHatch gh.2 ((g.hatch gh.2).afterOps (ops.filter (fun o => o.names == gh))))) s

/-- The end of the cycle performs what the cycle has put off (R208, R210, R220). -/
def State.applyLate (s : State) (ops : List LateOp) : State :=
  ops.foldl (fun s o =>
    match o with
    | .gtag g v => s.modGroup g (fun x => { x with gtag := v })
    | .attach g cl i on => s.attach g cl i on
    | .range e => if e.engOp.all (fun id => (s.ops.find id).isSome) then s.addRange e else s) s

/-! ### Exits (R193, R196, R210) -/

/-- Detaches a group whose last thread has exited (R210). -/
def State.detachIfEnded (s : State) (g : Nat) : State :=
  if s.threads.any (fun p => groupOf p.1 == g && !p.2.exited) then s
  else
    match s.groups.find g with
    | some x => x.attach.foldl (fun s i => s.attach g (s.clusterOfBlock (blockOfGroup g)) i false) s
    | none => s

/-- The exits of a cycle (R193, R210). -/
def State.applyExits (s : State) (ks : List Nat) : State :=
  ((ks.map groupOf).eraseDups).foldl State.detachIfEnded (ks.foldl State.exitBars s)

/-! ### Waking (R38, R39) -/

/-- The BLOCKED threads that stand with a thread in one arrival set: those of its group at its PC with the
same wait. -/
def State.blockedWith (s : State) (k : Nat) (th : Thread) : List Nat :=
  (s.threads.filter (fun p =>
    groupOf p.1 == groupOf k && p.2.pc == th.pc && p.2.st == th.st)).map (·.1)

/-- What the end of a cycle does to a BLOCKED thread: nothing, READY, or a trap. -/
inductive Waking where
  | stay
  | wake
  | trap (cause : Nat) (tval : Word64)
  deriving DecidableEq, Repr

/-- READY when the awaited event has come. -/
def wakeIf (b : Bool) : Waking := if b then .wake else .stay

/-- A thread blocked on an empty hatch (R52, R130): READY when the hatch is full, dead producer when every
thread outside its set has exited. -/
def State.hatchWaking (s : State) (k : Nat) (th : Thread) (g : Group) (h : Nat) (uniform : Bool) : Waking :=
  let set := if uniform then s.blockedWith k th else [k]
  if (g.hatch h).full then .wake
  else if othersExited s (groupOf k) set then .trap 8 (BitVec.ofNat 64 h)
  else .stay

/-- A thread blocked on an empty FIFO (R53). -/
def State.popWaking (s : State) (cl i : Nat) (ea : Word64) : Waking :=
  if !(s.fifo cl i).isEmpty then .wake
  else if (s.cluster cl).attached.getD i 0 = 0 then .trap 9 ea
  else .stay

/-- The segmenter has answered the set that stands at a PC of a group (R231). -/
def State.segAnswered (s : State) (cl g : Nat) (pc : Word64) : Bool :=
  (s.cluster cl).segReqs.any (fun q => q.group == g && q.pc == pc && q.answer.isSome)

/-- What the end of a core cycle does to a BLOCKED thread (R38, R46, R50, R52, R53, R168, R179, R220,
R239). -/
def State.waking (s : State) (k : Nat) (th : Thread) (w : Wait) : Waking :=
  match s.groups.find (groupOf k) with
  | none => .stay
  | some g =>
    let b := blockOf k
    let cl := s.clusterOfBlock b
    match w with
    | .regs ls us => wakeIf (ls.all (fun r => (th.reg r).full) && us.all (fun r => (g.sreg r).full))
    | .hatch h uniform => s.hatchWaking k th g h uniform
    | .fifoPop i ea => s.popWaking cl i ea
    | .fifoPush i => wakeIf (decide ((s.fifo cl i).length < fifoMax) || (s.cluster cl).bankMode i != 2)
    | .range core lo hi write => wakeIf (!s.rangeHeld b core lo hi write)
    | .entry => wakeIf (decide ((s.cluster cl).rsb.length < rsbMax))
    | .engine => wakeIf (!s.hasAccess (s.blockedWith k th))
    | .system => wakeIf (!s.hostWrites)
    | .queue => wakeIf (decide ((s.cluster cl).engQ.length < engQMax))
    | .segmenter => wakeIf (s.segAnswered cl (groupOf k) th.pc)
    | .counter cls n => wakeIf (decide (g.counter cls ≤ n))
    | .barrier .. => .stay
    | .barg _ => .stay
    | .balloc .. => .stay

/-- What the end of a cycle makes of a thread of a core. -/
def State.wakingOf (s : State) (c : Nat) (k : Nat) (th : Thread) : Waking :=
  match th.st, s.blocks.find (blockOf k) with
  | .blocked w, some b => if b.runs && s.coreOfThread k == c then s.waking k th w else .stay
  | _, _ => .stay

/-- The BLOCKED threads of a core return to READY or trap (R38, R39, R52, R53); each is judged by the state
before any of them changes. -/
def State.wakeThreads (s : State) (c : Nat) : State :=
  (s.threads.map (fun p => (p.1, s.wakingOf c p.1 p.2))).foldl (fun s' p =>
    match p.2 with
    | .stay => s'
    | .wake => s'.modThread p.1 (fun th => { th with st := .ready })
    | .trap cause v =>
      match s'.threads.find p.1 with
      | some th => s'.takeTrap p.1 cause th.pc v
      | none => s') s

/-! ### Wait counts, deferral and the issue floor (R47, R54, R56) -/

/-- Wait counts saturate here (R47). -/
def waitMax : Nat := 65535
/-- The wait count at which a thread enters a floor queue (R54). -/
def floorWait : Nat := 12288

/-- The wait counts of a cycle (R47): up by 1 for those that waited, 0 for those that issued. -/
def State.countWaits (s : State) (c : Cyc) : State :=
  let lanes := if c.issued.isEmpty then [] else c.laneWait.filter (fun k => !c.issued.contains k)
  let unis := c.uniWait.filter (fun k => !c.uissued.contains k)
  let s1 := s.modThreads (lanes ++ unis) (fun th => { th with wait := Nat.min waitMax (th.wait + 1) })
  s1.modThreads (c.issued ++ c.uissued) (fun th => { th with wait := 0 })

/-- Priority and age of a thread's block, and its key: the order in which threads enter a floor queue (R54). -/
def State.floorOrder (s : State) (k : Nat) : Nat × Nat × Nat :=
  match s.blocks.find (blockOf k) with
  | some b => (b.prio, b.age, k)
  | none => (0, 0, k)

/-- The lexicographic order of three numbers. -/
def before3 (x y : Nat × Nat × Nat) : Bool :=
  decide (x.1 < y.1) || (x.1 == y.1 && (decide (x.2.1 < y.2.1) || (x.2.1 == y.2.1 && decide (x.2.2 ≤ y.2.2))))

/-- Those of some threads that enter a floor queue now, in the order of R54: block priority, block age,
group index, lane index. -/
def State.floorEntrants (s : State) (ks q : List Nat) : List Nat :=
  let due := ks.filter (fun k => !q.contains k &&
    match s.threads.find k with
    | some th => decide (floorWait ≤ th.wait)
    | none => false)
  (sortBy before3 (due.map s.floorOrder)).map (·.2.2)

/-- Threads whose wait count has reached 12,288 enter the core's floor queue (R54). -/
def State.enterFloor (s : State) (c : Nat) (ks : List Nat) : State :=
  let new := s.floorEntrants ks (s.core c).floorQ
  if new.isEmpty then s else s.modCore c (fun x => { x with floorQ := x.floorQ ++ new })

/-- Threads at a uniform instruction with full sources enter the uniform floor queue (R54). -/
def State.enterUniFloor (s : State) (c : Nat) (ks : List Nat) : State :=
  let new := s.floorEntrants ks (s.core c).ufloorQ
  if new.isEmpty then s else s.modCore c (fun x => { x with ufloorQ := x.ufloorQ ++ new })

/-- A thread is of a core and has not exited. -/
def State.liveOn (s : State) (c k : Nat) : Bool :=
  match s.threads.find k with
  | some th => !th.exited && s.coreOfThread k == c
  | none => false

/-- Threads that have issued, and threads that are gone, leave the floor queues (R54). -/
def State.leaveFloor (s : State) (cyc : Cyc) : State :=
  let stays := fun (done : List Nat) (k : Nat) => !done.contains k && s.liveOn cyc.core k
  s.modCore cyc.core (fun x =>
    { x with
      floorQ := x.floorQ.filter (stays cyc.issued)
      ufloorQ := x.ufloorQ.filter (stays cyc.uissued) })

/-- Another thread of the core, of equal or more urgent priority, is READY or UNSTARTED in a running block
(R56). -/
def State.outranked (s : State) (c k : Nat) : Bool :=
  match s.blocks.find (blockOf k) with
  | none => false
  | some b =>
    s.threads.any (fun p => p.1 != k && p.2.pickable && s.coreOfThread p.1 == c &&
      match s.blocks.find (blockOf p.1) with
      | some b' => b'.runs && decide (b'.prio ≤ b.prio)
      | none => false)

/-- The deferral of a thread is over (R56). -/
def State.deferralOver (s : State) (c k : Nat) (th : Thread) : Bool :=
  match th.st with
  | .deferred n => decide (n = 0) || !s.outranked c k
  | _ => false

/-- A thread after one more issue slot of its deferral. -/
def Thread.deferTick (th : Thread) : Thread :=
  match th.st with
  | .deferred n => { th with st := .deferred (n - 1) }
  | _ => th

/-- The deferrals of a core at the end of a cycle (R56): an issue slot counts for those that were DEFERRED
before it, and those whose deferral is over become READY. -/
def State.settleDeferred (s : State) (c : Cyc) : State :=
  let s1 := if c.issued.isEmpty then s
    else s.modThreads ((c.laneWait ++ c.uniWait).filter (fun k => !c.issued.contains k && !c.uissued.contains k))
      Thread.deferTick
  let ended := (s1.threads.filter (fun p => s1.coreOfThread p.1 == c.core && s1.deferralOver c.core p.1 p.2)).map
    (·.1)
  s1.modThreads ended (fun th => { th with st := .ready })

/-! ### Slots, classes and time (R42, R57, R245 to R252) -/

/-- The period of a class, in units of 10 ps (R245). -/
def periodOf (cls : Nat) : Nat :=
  match cls with
  | 0 => 60
  | 1 => 72
  | 2 => 87
  | _ => 120

/-- A core after one cycle whose units in X1 have a highest class (R246, R248): T is carried in units of
0.625 ps, 25 of which make one unit of ETIME. -/
def Core.advance (x : Core) (x1 : Nat) : Core :=
  let t := 16 * periodOf (Nat.max x1 (Nat.max x.x2 x.x3)) + x.frac
  { x with
    cycle := x.cycle + 1
    etime := x.etime + BitVec.ofNat 64 (t / 25)
    frac := t % 25
    x3 := x.x2
    x2 := x1 }

/-- The active set of a core after its pickers have taken threads of some groups (R57): 64 groups, the latest picked
last. What the register-cache entries of a group hold has no architectural effect (R57): every register stands once, in
its thread or group (assumption 116). -/
def Core.activate (x : Core) (gs : List Nat) : Core :=
  let l := x.active.filter (fun g => !gs.contains g) ++ gs
  { x with active := l.drop (l.length - 64) }

/-- An issue slot of a core and of a block (R42, R252). -/
def State.countSlot (s : State) (c : Nat) (b : Option Nat) : State :=
  let s1 := s.modCore c (fun x => { x with slot := x.slot + 1, run := if x.mode then x.run + 1 else x.run })
  match b with
  | some b => s1.modBlock b (fun x => { x with slots := x.slots.set c (x.slots.getD c 0 + 1) })
  | none => s1

/-! ### The lane-cycle record (R351) -/

/-- A counter of R351 saturates here. -/
def lcMax : Nat := 2 ^ 48 - 1

/-- The range of a core that holds a PC (R351). -/
def Core.rangeOf (x : Core) (pc : Word64) : Option Nat :=
  (natRange 0 16).find? (fun r => !pc.ult (x.rngBase.getD r 0) && pc.ult (x.rngLim.getD r 0))

/-- Places of each class at one position (R351): `a` hold issued threads, and `d`, `b` and `e` threads of
the lane index are unplaced, stopped, and exited or absent. -/
def placeClasses (a d b e : Nat) : List Nat :=
  let free := 4 - a
  let n1 := Nat.min free d
  let n2 := Nat.min (free - n1) b
  let n3 := Nat.min (free - n1 - n2) e
  [Nat.min 4 a, n1, n2, n3, free - n1 - n2 - n3]

/-- The places of a position in an issue slot, by the states in which its threads stood when the cycle began (R39,
R351). -/
def State.positionClasses (s : State) (c : Cyc) (b p : Nat) : List Nat :=
  let here := fun (k : Nat) => laneOf k == p
  let mine := s.threads.filter (fun q => blockOf q.1 == b && here q.1 && s.coreOfThread q.1 == c.core &&
    !c.issued.contains q.1)
  let absent := match s.blocks.find b with
    | some x =>
      let last := groupKey b (x.packet.groups - 1)
      if x.packet.blockt % 8 ≠ 0 ∧ x.packet.blockt % 8 ≤ p ∧
          (s.groups.find last).map (·.core) = some c.core then 1 else 0
    | none => 0
  placeClasses (c.issued.filter here).length
    (mine.filter (fun q => c.eligible.contains q.1 && !c.placed.contains q.1)).length
    (mine.filter (fun q => c.stopped.contains q.1)).length
    ((mine.filter (fun q => q.2.exited)).length + absent)

/-- Adds an issue slot to the lane-cycle record (R351). -/
def State.recordSlot (s : State) (c : Cyc) : State :=
  match c.block, (s.core c.core).rangeOf c.pc1 with
  | some b, some r =>
    if s.dbgOn && (s.core c.core).lcren then
      let places := (natRange 0 8).map (s.positionClasses c b)
      s.modCore c.core (fun x =>
        { x with lcr := (natRange 0 5).foldl (fun m i =>
            m.put 0 (5 * r + i) (Nat.min lcMax (m.getD (5 * r + i) 0 +
              places.foldl (fun n l => n + l.getD i 0) 0))) x.lcr })
    else s
  | _, _ => s

/-! ### The end of a core cycle -/

/-- The running blocks that a core holds alone. -/
def State.coreBlocks (s : State) (c : Nat) : List Nat :=
  (s.blocks.filter (fun p => p.2.core == some c && p.2.runs)).map (·.1)

/-- The blocks that a core holds alone, though they be saved at the time (R310). -/
def State.heldBlocks (s : State) (c : Nat) : List Nat :=
  (s.blocks.filter (fun p => p.2.core == some c && p.2.st != .saved)).map (·.1)

/-- The groups that a core holds. -/
def State.heldGroups (s : State) (c : Nat) : List Nat :=
  (s.groups.filter (fun p => p.2.core == c &&
    match s.blocks.find (blockOfGroup p.1) with
    | some b => b.st != .saved
    | none => false)).map (·.1)

/-- The groups of running blocks on a core. -/
def State.runningGroups (s : State) (c : Nat) : List Nat :=
  (s.groups.filter (fun p => p.2.core == c &&
    match s.blocks.find (blockOfGroup p.1) with
    | some b => b.runs
    | none => false)).map (·.1)

/-- What an issue slot counts. -/
def State.endSlot (s : State) (c : Cyc) : State :=
  if c.issued.isEmpty then s else (s.recordSlot c).countSlot c.core c.block

/-- The end of a core cycle: what the cycle's units and the events before it bring about takes effect
(R39), and the core's clock goes on (R248). -/
def State.endCycle (s : State) (c : Cyc) : State :=
  let s1 := (((s.applyHatches c.hops).applyLate c.late).countWaits c).leaveFloor c
  let s2 := (s1.endSlot c).applyExits c.exiting
  let s3 := ((s2.enterFloor c.core c.laneWait).enterUniFloor c.core c.uniFull).modCyc (fun x =>
    { x with exiting := [] })
  let s4 := (s3.coreBlocks c.core).foldl State.settleBars s3
  let s5 := (s4.runningGroups c.core).foldl State.settleBarg s4
  let s6 := s5.wakeThreads c.core
  let s7 := (s6.runningGroups c.core).foldl (fun s g => s.modGroup g Group.retireAll) s6
  let s8 := (c.issued ++ c.uissued).foldl State.stepHalt s7
  let s9 := s8.settleDeferred c
  let s10 := (s9.heldBlocks c.core).foldl State.tickBars s9
  let s11 := (s10.heldGroups c.core).foldl State.tickBarg s10
  let s12 := s11.modCore c.core (fun x =>
    (x.activate (c.picked.map groupOf).eraseDups).advance (c.classes.foldl Nat.max 0))
  let blocks := ((s12.coreGroups c.core).map blockOfGroup).eraseDups
  { blocks.foldl State.retireIfDone s12 with cyc := none }

/-- A thread of the block may run again. -/
def State.stirs (s : State) (b : Nat) : Bool :=
  s.threads.any (fun p => blockOf p.1 == b && (p.2.pickable || p.2.deferred))

/-- Threads of a core that are READY or DEFERRED end the stall of their block, and let another be reported (R311). -/
def State.noteStirs (s : State) (c : Nat) : State :=
  (((s.runningGroups c).map blockOfGroup).eraseDups).foldl (fun s b =>
    if s.stirs b then s.modBlock b (fun x => { x with stall := 0, stallRep := false }) else s) s

/-- A core cycle starts: what has come about since the core's last cycle wakes its threads (R39, R46), and the pickers
choose. -/
def State.startCycle (s : State) (c : Nat) : State := ((s.wakeThreads c).noteStirs c).beginCycle c

/-- A cycle that has executed all its units ends. -/
def State.endIfDone (s : State) (core : Nat) : State :=
  match s.cyc with
  | some c => if c.core = core ∧ c.todo = [] then s.endCycle c else s
  | none => s

/-- CORE_CYCLE (R248): the cycle under way on the core ends, once its units are executed; with none under
way, a cycle of the core begins, which ends at once when the pickers take nothing. -/
def execCoreCycle (core : Nat) (s : State) : Host.Outcome State Fault Refusal :=
  .next (
    match s.cyc with
    | some _ => s.endIfDone core
    | none => if core < 384 then (s.startCycle core).endIfDone core else s)

/-! ### Cycles of the Hall and of a cluster -/

/-- The launch's live waiters run its barrier's timer (R310, R342). -/
def State.tickLaunch (s : State) (l : Nat) : State :=
  let s1 := s.modLaunchBar l (fun x => { x with timer := x.timer.map (· + 1) })
  match s1.launchHead l with
  | some b => s1.launchTimeout b
  | none => s1

/-- The Hall's launch barriers in one Hall cycle (R190, R342, R343). -/
def State.launchCycle (s : State) : State :=
  let ls := (s.tree.entries.filter (fun p => p.2.barrier.isSome)).map (·.1)
  ls.foldl (fun s l => ((s.sendInterval l).settleLaunch l).tickLaunch l) s

/-- A block is stalled (R311). -/
def State.stalled (s : State) (b : Nat) : Bool :=
  s.threads.all (fun p => blockOf p.1 != b || p.2.exited ||
    (match p.2.st with
     | .blocked (.fifoPop i _) => (s.cluster (s.clusterOfBlock b)).attached.getD i 0 == 0
     | .blocked (.fifoPush i) => (s.cluster (s.clusterOfBlock b)).attached.getD i 0 == 0
     | .blocked _ => true
     | .parked _ => true
     | _ => false)) &&
  !s.inflight.any (fun o => o.ofBlock b &&
    match o.act with
    | .load .. => true
    | .atom _ _ _ _ _ _ ret => ret.isSome
    | .hallAtom _ _ _ _ _ ret _ _ => ret.isSome
    | .captured .. => true
    | .lrem .. => true
    | .lmode .. => true
    | _ => false) &&
  s.groups.all (fun p => blockOfGroup p.1 != b || (natRange 0 6).all (fun c => p.2.counter c == 0)) &&
  (s.cluster (s.clusterOfBlock b)).rsb.all (fun e => e.block != b)

/-- A stall that has lasted BSTALL cycles is reported once (R306, R311): 0 disables. -/
def State.reportStall (s : State) (b : Nat) : State :=
  match s.blocks.find b with
  | none => s
  | some x =>
    let limit := (s.tenant x.tenant).bstall.toNat
    if limit = 0 ∨ x.stallRep ∨ x.stall < limit ∨ !s.stalled b then s
    else (s.modBlock b (fun x => { x with stallRep := true })).postOpen x.tenant (s.blockRec 7 b) 0 b (.block b)

/-- The stall count of a block in one cycle of the cluster unit (R311). -/
def State.tickStall (s : State) (b : Nat) : State :=
  let stalled := s.stalled b
  let stirs := s.stirs b
  (s.modBlock b (fun x =>
    { x with
      stall := if stalled then x.stall + 1 else 0
      stallRep := x.stallRep && !stirs })).reportStall b

/-- A cycle of a cluster's units (R190, R192, R304, R305, R310, R311). -/
def State.clusterCycle (s : State) (cl : Nat) : State :=
  let here := s.blocks.filter (fun p => p.2.cluster == cl)
  let mine := (here.filter (fun p => p.2.st != .saved)).map (·.1)
  let span := (here.filter (fun p => p.2.st != .saved && p.2.core.isNone)).map (·.1)
  let parked := (here.filter (fun p => p.2.st == .saved)).map (·.1)
  let s1 := span.foldl (fun s b => (s.settleBars b).tickBars b) s
  let s2 := parked.foldl State.tickParked s1
  (mine.foldl State.tickStall s2).modCluster cl Cluster.tickEngines

/-- ENGINE_RESET_END: the last of a reset's cycles passes, as a cycle of the cluster's units (R305). -/
def execEngineResetEnd (cluster : Nat) (grainer : Bool) (s : State) : Host.Outcome State Fault Refusal :=
  .next (if cluster < 96 ∧ (s.cluster cluster).resetting grainer = 1 then s.clusterCycle cluster else s)

/-! ### Events of the pickers -/

/-- The next issue slot of some block of the core is an override slot (R42). -/
def State.overrideDue (s : State) (c : Nat) : Bool :=
  s.blocks.any (fun p => p.2.runs && (p.2.slots.getD c 0 + 1) % 64 == 0)

/-- STARVATION_OVERRIDE: a core begins a cycle in which a block is due its override slot (R42, R253). -/
def execStarvationOverride (core : Nat) (s : State) : Host.Outcome State Fault Refusal :=
  .next (if core < 384 ∧ s.cyc = none ∧ s.overrideDue core then s.startCycle core else s)

/-- FLOOR_QUEUE_ENTRY (R54). -/
def execFloorQueueEntry (core : Nat) (s : State) : Host.Outcome State Fault Refusal :=
  .next (s.enterFloor core (((s.cands core s.freeCtr).filter (fun y => !y.peek.uniform)).map (·.key)))

/-- UNIFORM_FLOOR_QUEUE_ENTRY (R54). -/
def execUniformFloorQueueEntry (core : Nat) (s : State) : Host.Outcome State Fault Refusal :=
  .next (s.enterUniFloor core (((s.cands core s.freeCtr).filter (fun y => y.peek.uniform && y.full)).map (·.key)))

/-- DEFERRAL_END (R56). -/
def execDeferralEnd (thread : Nat) (s : State) : Host.Outcome State Fault Refusal :=
  .next (
    match s.threads.find thread with
    | some th =>
      if s.deferralOver (s.coreOfThread thread) thread th then s.setThread thread { th with st := .ready } else s
    | none => s)

/-- RUN_EXPIRY: a core begins a cycle in which its run has reached its length (R252, step 2). -/
def execRunExpiry (core : Nat) (s : State) : Host.Outcome State Fault Refusal :=
  .next (
    let x := s.core core
    if core < 384 ∧ s.cyc = none ∧ x.mode ∧ x.runLen ≤ x.run then s.startCycle core else s)

/-! ### Events of the barriers -/

/-- The object of a message that has arrived is settled at the end of its holder's cycle (R190): at once,
or, by free choice, together with another message that is still on its way. -/
def State.settleAfter (s : State) (b i : Nat) : State :=
  let more := s.inflight.any (fun o =>
    match o.act with
    | .arrival j _ _ _ => j == i && (o.block == b || (s.isLaunchBar b i && s.launchOf o.block == s.launchOf b))
    | .leave l _ => l == s.isLaunchBar b i && (o.block == b || (l && s.launchOf o.block == s.launchOf b))
    | _ => false)
  if more && s.choice % 2 == 1 then s.drawn
  else if s.isLaunchBar b i then s.drawn.settleLaunch (s.launchOf b)
  else s.drawn.settleBar b i

/-- BARRIER_ARRIVAL_RECEIVE: an arrival, with its wait, or an exit reaches the holder of an object (R192,
R193, R342). -/
def execBarrierArrivalReceive (id : Nat) (s : State) : Host.Outcome State Fault Refusal :=
  .next (s.perform id (fun s o =>
    match o.act with
    | .arrival i n token wait =>
      if s.isSaved o.block && !s.isLaunchBar o.block i then s
      else ((s.retireOp id).receiveArrival id (o.members.headD 0) i n token wait).settleAfter o.block i
    | .leave false objs =>
      if s.isSaved o.block then s
      else
        let s1 := (s.retireOp id).reduceBars o.block objs.contains
        match s1.blocks.find o.block with
        | some x => x.objs.foldl (fun s p => s.settleAfter o.block p.1) s1
        | none => s1
    | .leave true _ => ((s.retireOp id).reduceLaunch (s.launchOf o.block) 1).settleAfter o.block 2047
    | _ => s))

/-- BARRIER_RELEASE_ARRIVAL: a release reaches a core (R192, R343). -/
def execBarrierReleaseArrival (id : Nat) (s : State) : Host.Outcome State Fault Refusal :=
  .next (s.perform id (fun s o =>
    match o.act with
    | .release i =>
      let ks := o.members.filter (fun k =>
        match s.threads.find k with
        | some th => th.waitsBar i true || th.waitsBar i false
        | none => false)
      (s.retireOp id).passThreads ks []
    | _ => s))

/-- LAUNCH_BARRIER_RELEASE (R343). -/
def execLaunchBarrierRelease (launch : Nat) (s : State) : Host.Outcome State Fault Refusal :=
  .next (s.sendInterval launch)

/-- BARRIER_TIMEOUT (R310, R342); of a launch barrier, for the block that its record names. -/
def execBarrierTimeout (block index : Nat) (s : State) : Host.Outcome State Fault Refusal :=
  .next (
    if !s.isLaunchBar block index then s.barTimeout block index
    else if s.launchHead (s.launchOf block) = some block then s.launchTimeout block
    else s)

/-- BARG_TIMEOUT (R310). -/
def execBargTimeout (group : Nat) (s : State) : Host.Outcome State Fault Refusal :=
  .next (s.bargTimeoutOf group)

/-- BLOCK_STALLED (R311). -/
def execBlockStalled (block : Nat) (s : State) : Host.Outcome State Fault Refusal :=
  .next (s.reportStall block)

/-- The request number of a thread that waits for a BALLOC (R215). -/
def Thread.ballocReq (th : Thread) : Option (Nat × Nat × Nat) :=
  match th.st with
  | .blocked (.balloc i sd req) => some (req, i, sd)
  | _ => none

/-- BALLOC_ANSWER: the cluster unit answers the oldest request of a group (assumption 82), and the BALLOC executes (R45,
R215), also while the block is saved and whatever its destination then holds (assumption 136). -/
def execBallocAnswer (group : Nat) (s : State) : Host.Outcome State Fault Refusal :=
  .next (
    let reqs := (s.threads.filter (fun p => groupOf p.1 == group)).filterMap (fun p => p.2.ballocReq)
    match leastBy (fun (x y : Nat × Nat × Nat) => decide (x.1 < y.1)) reqs with
    | none => s
    | some (req, i, sd) =>
      let ks := (s.threads.filter (fun p => groupOf p.1 == group &&
        p.2.ballocReq == some (req, i, sd))).map (·.1)
      let r := s.balloc (blockOfGroup group) i
      let s1 := r.1.modGroup group (fun g => g.setSreg sd (Reg.ofVal r.2))
      let pc := match s.threads.find (ks.headD 0) with
        | some th => th.pc
        | none => 0
      let s2 := s1.partialReport (Issue.start 2 (blockOfGroup group) pc ks)
      ks.foldl State.stepHalt (s2.modThreads ks (fun th => { th.goto (th.pc + 4) with wait := 0 })))

end Sys2Proof.Machine
end

