-- ==== Sys2Proof/Machine/Fabric.lean ====
section
/-! DEFINITION. The fabric (R323 to R328): flits received and replayed, packets sent for FAB operations, the
end-to-end protocol, and requests of other devices. -/

namespace Sys2Proof.Machine

/-! ### The receiving side of a port (R323 to R325) -/

/-- Fabric ports of a device (R25). -/
def portMax : Nat := 18

/-- An acknowledgement frees every flit of the window up to the one it names (R323, R324). -/
def Port.ackTo (p : Port) (seed : Nat) (ackseq : BitVec 12) : Port :=
  match p.window.findIdx? (fun w => w.seq == ackseq) with
  | some i =>
    let q := { p with window := p.window.drop (i + 1) }
    q.pump seed q.queue.length
  | none => p

/-- The flit that a NAK names goes out again, as a tombstone when its copy is uncorrectable (R324, R325). -/
def Port.replayNext (p : Port) (uncorrectable : Bool) : Port :=
  match p.window with
  | [] => p
  | w :: rest =>
    let f := if uncorrectable then tombstoneOf w.flit else w.flit
    { p with
      window := ⟨w.seq, f⟩ :: rest
      wire := p.wire ++ [f]
      replay := Nat.min statMax (p.replay + 1)
      tomb := if f.kind = 1 then Nat.min statMax (p.tomb + 1) else p.tomb }

/-- A NAK: its ACKSEQ acknowledges, and the flit after that one is replayed (R324). -/
def Port.takeNak (p : Port) (seed : Nat) (ackseq : BitVec 12) (uncorrectable : Bool) : Port :=
  let q := p.ackTo seed ackseq
  match q.window with
  | w :: _ => if w.seq = ackseq + 1 then q.replayNext uncorrectable else q
  | [] => q

/-- A packet flit is delivered: its payload joins the packet of its VC, which is whole with its last flit
(R323); the flits of a discarded packet are dropped (R325). -/
def Port.deliver (p : Port) (f : Flit) : Port :=
  let v := f.vc.toNat
  if p.skip.contains v then { p with skip := if f.last then p.skip.erase v else p.skip }
  else
    let a := p.asm.getD v [] ++ [f.payload]
    if f.last then { p with asm := p.asm.erase v, packets := p.packets ++ [a] }
    else { p with asm := p.asm.set v a }

/-- The header of the packet that a flit belongs to, if its header flit was received (R325). -/
def Port.headerOf (p : Port) (f : Flit) : Option (List Byte) :=
  if p.skip.contains f.vc.toNat then none else (p.asm.getD f.vc.toNat []).head?

/-- A tombstone is taken in place of its flit: its whole packet is discarded (R325). -/
def Port.bury (p : Port) (f : Flit) : Port :=
  let v := f.vc.toNat
  let skip := p.skip.erase v
  { p with asm := p.asm.erase v, skip := if f.last then skip else skip ++ [v] }

/-- The expected windowed flit is taken (R324, R325). A tombstone whose packet's header was received asks the source that
the header names for that packet, once DEVNUM is locked (R26); how a header names its source, its destination and its
number is open (Config). -/
def State.takeInOrder (s : State) (n : Nat) (f : Flit) : State :=
  let s1 := s.modPort n (fun p =>
    let q := if f.kind = 1 then p.bury f else p.deliver f
    { q with expSeq := p.expSeq + 1 })
  match if f.kind = 1 ∧ s.sec.devLock then (s.port n).headerOf f else none with
  | some h => s1.post (.retry (Config.headerSource h) (Config.headerDest h) (Config.headerNum h))
  | none => s1

/-- Buffered flits that follow in order are taken too (R324). -/
def State.takeBuffered (n : Nat) : Nat → State → State
  | 0, s => s
  | fuel + 1, s =>
    match (s.port n).buffer.find? (fun f => f.seq == (s.port n).expSeq) with
    | none => s
    | some f => State.takeBuffered n fuel
        ((s.modPort n (fun p => { p with buffer := p.buffer.filter (fun g => g.seq != f.seq) })).takeInOrder n f)

/-- Flits that a receiver buffers beyond the expected one (R324). -/
def bufferMax : Nat := 255

/-- A good windowed flit: delivered with what follows it in order, buffered with a NAK, or discarded
(R324). -/
def State.takeWindowed (s : State) (n : Nat) (f : Flit) : State :=
  let d := (f.seq - (s.port n).expSeq).toNat
  if d = 0 then
    let s1 := State.takeBuffered n ((s.port n).buffer.length + 1) (s.takeInOrder n f)
    s1.modPort n (fun p => p.sendIdle (!p.buffer.isEmpty))
  else if d ≤ bufferMax then
    s.modPort n (fun p =>
      ({ p with buffer := if p.buffer.any (fun g => g.seq == f.seq) then p.buffer else p.buffer ++ [f] }).sendIdle
        true)
  else s

/-- A flit arrives at a port whose link is up (R324): a bad CRC is counted and answered with a NAK; a good
flit acknowledges or NAKs the reverse direction and is taken; one of a packet is not while DEVNUM is not locked, since no
port then carries transaction-layer traffic (R26). -/
def State.takeFlit (s : State) (n : Nat) (f : Flit) : State :=
  if portMax ≤ n ∨ !(s.port n).up then s
  else if !flitGood f then
    s.modPort n (fun p => { p with crcerr := Nat.min statMax (p.crcerr + 1) }.sendIdle true)
  else
    let s1 := if f.nak then
        (s.modPort n (fun p => p.takeNak s.freeCtr f.ackseq (s.choice % 2 == 1))).drawn
      else (s.modPort n (fun p => p.ackTo s.freeCtr f.ackseq)).drawn
    if f.kind.toNat < 2 then (if s.sec.devLock then s1.takeWindowed n f else s1)
    else if f.seq = (s1.port n).expSeq then s1
    else s1.modPort n (fun p => p.sendIdle true)

/-- FLIT_RECEIVE: a flit other than a tombstone (R324). -/
def execFlitReceive (port : Nat) (flit : Flit) (s : State) : Host.Outcome State Fault Refusal :=
  .next (if flit.kind = 1 then s else s.takeFlit port flit)

/-- TOMBSTONE_RECEIVE (R325). -/
def execTombstoneReceive (port : Nat) (flit : Flit) (s : State) : Host.Outcome State Fault Refusal :=
  .next (if flit.kind = 1 then s.takeFlit port flit else s)

/-- FLIT_NAK (R324, R325). -/
def execFlitNak (port : Nat) (ackseq : BitVec 12) (uncorrectable : Bool) (s : State) :
    Host.Outcome State Fault Refusal :=
  .next (
    if portMax ≤ port ∨ !(s.port port).up then s
    else (s.modPort port (fun p => p.takeNak s.freeCtr ackseq uncorrectable)).drawn)

/-- LINK_TRAINING: UP is set, and flits that wait go out (R329). -/
def execLinkTraining (port : Nat) (s : State) : Host.Outcome State Fault Refusal :=
  .next (
    if port < portMax then
      (s.modPort port (fun p => { p with up := true }.pump s.freeCtr p.queue.length)).drawn
    else s)

/-! ### The source's end-to-end protocol (R235, R326) -/

/-- A held packet is released, and what waits for it goes on: packets of its device (R326), and the next message of its
interrupt source (R334). -/
def State.releasePacket (s : State) (h : HeldPkt) : State :=
  let s1 := (s.modIo (fun io => { io with held := io.held.filter (fun x => x != h) })).sendWaiting
  match h.tag with
  | .msg src => s1.nextMessage src
  | _ => s1

/-- A held packet. -/
def State.heldPacket (s : State) (device num : Nat) : Option HeldPkt :=
  s.io.held.find? (fun x => x.packet.dest == device && x.packet.num == num)

/-- A replicated launch packet that did not reach its device, or that it refused, refuses for the device (R290, R326). -/
def State.lostLaunch (s : State) (p : FabPacket) : State :=
  match p.body with
  | .launch data => s.takeReady p.dest p.tenant (BitVec.ofNat 32 (fieldAt data 4 4)) false
  | _ => s

/-- A held packet ends with a status: the first nonzero one of its operation is kept (R235, R326). -/
def State.endPacket (s : State) (h : HeldPkt) (status : Nat) : State :=
  let s1 := s.releasePacket h
  match h.work with
  | none => if status = 0 then s1 else s1.lostLaunch h.packet
  | some (it, _) =>
    match s1.opOf it with
    | none => s1
    | some (id, part, _) =>
      (s1.modOp id (fun o => { o with status := if o.status = 0 then status else o.status })).partDone id part

/-- The request of an operation's part: the data of a PUT or LSEND is read now (R235, R243). -/
def State.packetBody (s : State) (o : EngOp) (part : Nat) : Except EngFail FabBody :=
  let off := 4096 * part
  let n := o.partBytes part
  match parOp o.params with
  | 0 =>
    match s.engReads o.block (natRange (par64 o.params 1 + off) n) with
    | .ok d => .ok (.put (par64 o.params 3 + off) d)
    | .error e => .error e
  | 1 => .ok (.get (par64 o.params 1 + off) n)
  | _ =>
    match s.engReads o.block (natRange (par64 o.params 1) n) with
    | .ok d => .ok (.lsend d)
    | .error e => .error e

/-- The addresses of the local data of an operation's part, which a PUT or an LSEND reads (R235). -/
def EngOp.partReads (o : EngOp) (part : Nat) : List Nat :=
  match parOp o.params with
  | 0 => natRange (par64 o.params 1 + 4096 * part) (o.partBytes part)
  | 1 => []
  | _ => natRange (par64 o.params 1) (o.partBytes part)

/-- The head of a port's leaf is sent, once DEVNUM is locked (R26); a packet for an absent device ends with status 2
(R235, R326, R327). -/
def State.portPop (s : State) (port : Nat) : State :=
  let n := portLeaf port
  match (s.sluice n).items with
  | [] => s
  | q :: _ =>
    if portMax ≤ port ∨ !s.canTake n ∨ !s.sec.devLock then s
    else
      let s1 := s.popHead n
      match s1.opOf q.item with
      | none => s1
      | some (id, part, o) =>
        if (s1.routePort o.device).isNone then s1.absentPart id part
        else
          match s1.packetBody o part with
          | .error f => s1.engineFail o q.item q.rank f
          | .ok body =>
            (s1.engRequests o.block (o.partReads part)).sendPacket
              ⟨⟨o.device, s1.self, s1.tenantOfBlock o.block, 0, body⟩, some (q.item, q.rank), 0, .none⟩

/-- FABRIC_PORT_POP (R235). -/
def execFabricPortPop (port : Nat) (s : State) : Host.Outcome State Fault Refusal := .next (s.portPop port)

/-- The packet asks for data. -/
def FabPacket.isGet (p : FabPacket) : Bool :=
  match p.body with
  | .get _ _ => true
  | _ => false

/-- A message on VC 1 reaches this device, or is forwarded by its route table (R26, R327). -/
def State.arrive (s : State) (m : FabMsg) (f : State → State) : State :=
  if !s.sec.devLock then s else if m.dest = s.self then f s else s.post m

/-- An end-to-end acknowledgement (R326): a GET is done by its data, not by an acknowledgement. -/
def State.takeAck (s : State) (device num status : Nat) : State :=
  match s.heldPacket device num with
  | none => s
  | some h => if FabPacket.isGet h.packet && status == 0 then s else s.endPacket h status

/-- E2E_ACK_RECEIVE (R326). -/
def execE2eAckReceive (route : AnswerRoute) (num status : Nat) (s : State) : Host.Outcome State Fault Refusal :=
  .next (s.arrive (.ack route.dest route.source num status) (fun s => s.takeAck route.source num status))

/-- The data of a GET is written at the local destination (R235); where that faults, the item is set aside (R243). -/
def State.takeData (s : State) (device num : Nat) (data : List Byte) : State :=
  match s.heldPacket device num with
  | none => s
  | some h =>
    match h.packet.body, h.work with
    | .get _ n, some (it, rank) =>
      if data.length ≠ n then s
      else
        match s.opOf it with
        | none => s.releasePacket h
        | some (_, part, o) =>
          match s.engWrites o.block ((natRange (par64 o.params 3 + 4096 * part) n).zip data) with
          | (s1, none) => s1.endPacket h 0
          | (s1, some f) => (s1.releasePacket h).engineFail o it rank f
    | _, _ => s

/-- GET_RESPONSE_RECEIVE (R235). -/
def execGetResponseReceive (route : AnswerRoute) (num : Nat) (data : List (BitVec 8)) (s : State) :
    Host.Outcome State Fault Refusal :=
  .next (s.arrive (.getData route.dest route.source num data) (fun s => s.takeData route.source num data))

/-- A packet is resent whole, at most RETRY times and while its device is not absent; otherwise it ends with status 2
(R326, R327). -/
def State.resend (s : State) (device num : Nat) : State :=
  match s.heldPacket device num with
  | none => s
  | some h =>
    if s.io.retry ≤ h.resends ∨ (s.routePort device).isNone then s.endPacket h 2
    else
      (s.modIo (fun io =>
        { io with held := io.held.map (fun x => if x = h then { x with resends := x.resends + 1 } else x) })).post
        (.request h.packet)

/-- E2E_RETRY_REQUEST (R325, R326). -/
def execE2eRetryRequest (route : AnswerRoute) (num : Nat) (s : State) : Host.Outcome State Fault Refusal :=
  .next (s.arrive (.retry route.dest route.source num) (fun s => s.resend route.source num))

/-- E2E_TIMEOUT (R326). -/
def execE2eTimeout (device num : Nat) (s : State) : Host.Outcome State Fault Refusal :=
  .next (s.resend device num)

/-! ### Requests of other devices (R326 to R328) -/

/-- The numbers of the last packets performed for a source (R326). -/
def State.performedFrom (s : State) (src : Nat) : List Nat := s.io.performed.getD src []

/-- A packet has been performed (R326). -/
def State.notePerformed (s : State) (src num : Nat) : State :=
  s.modIo (fun io =>
    let l := io.performed.getD src [] ++ [num]
    { io with performed := io.performed.set src (l.drop (l.length - heldMax)) })

/-- A packet of another device is acknowledged to its source (R326). -/
def State.acknowledge (s : State) (p : FabPacket) (status : Nat) : State :=
  s.post (.ack p.src p.dest p.num status)

/-- The data of a GET goes back (R235, R323); an address that does not translate, or a poisoned byte, aborts
it. -/
def State.serveGet (s : State) (p : FabPacket) (ten va n : Nat) : State × Bool :=
  match s.readVa ten va n 2 with
  | some d => ((s.readRequests ten va n 2).post (.getData p.src p.dest p.num d), true)
  | none => (s.acknowledge p 3, false)

/-- The bit of a peer entry that allows a packet; none for packets that no entry checks (R328, R329). -/
def FabPacket.peerBit (p : FabPacket) : Option Nat :=
  match p.body with
  | .put _ _ => some peerPut
  | .get _ _ => some peerGet
  | .lsend _ => some peerLsend
  | _ => none

/-- A packet has been performed, and is acknowledged so (R326). -/
def State.performed (s : State) (p : FabPacket) : State := (s.notePerformed p.src p.num).acknowledge p 0

/-- A request that the peer table allows acts for the local tenant (R328). -/
def State.servePeer (s : State) (p : FabPacket) (ten : Nat) : State :=
  match p.body with
  | .put va data =>
    match s.writeVa ten va data 2 with
    | (s1, true) => s1.performed p
    | (s1, false) => s1.acknowledge p 3
  | .get va n =>
    match s.serveGet p ten va n with
    | (s1, true) => s1.notePerformed p.src p.num
    | (s1, false) => s1
  | .lsend packet =>
    match s.submit ten packet 0 false with
    | (s1, .ok _) => s1.performed p
    | (s1, .error _) => s1.acknowledge p 4
  | _ => s

/-- A request of the bridge's group (R333, R334): the bridge issues a host-window access with HPASID of its tenant, or
sends an MSI-X message; nothing while its PCI Express link is held down (R348). -/
def State.bridgeRequest (s : State) (r : BridgeRequest) : State :=
  if s.sec.locked then s
  else
    match r with
    | .write tenant addr data => s.modIo (fun io =>
        { io with pcieOut := io.pcieOut ++ [.write addr (s.tenant tenant).hpasid data] })
    | .read tenant addr n => s.modIo (fun io =>
        { io with pcieOut := io.pcieOut ++ [.read addr (s.tenant tenant).hpasid n] })
    | .msix vec pasid => s.sendMsix vec pasid

/-- A packet of another device is performed and acknowledged (R290, R326, R328, R333, R334). -/
def State.servePacket (s : State) (p : FabPacket) : State :=
  match p.body with
  | .launch data =>
    match s.receiveLaunch p.src p.tenant data with
    | (s1, true) => s1.performed p
    | (s1, false) => s1.acknowledge p 1
  | .ready gen accept => (s.takeReady p.src p.tenant gen accept).performed p
  | .go gen => (s.takeGo p.src p.tenant gen).performed p
  | .drop gen => (s.takeDrop p.src p.tenant gen).performed p
  | .bridge r => if s.sec.bridge then (s.bridgeRequest r).performed p else s
  | _ =>
    match (FabPacket.peerBit p).bind (s.peerTenant p.tenant p.src) with
    | none => s.acknowledge p 1
    | some ten => s.servePeer p ten

/-- A packet whose number is among those performed is acknowledged again: a GET by its data (R326). -/
def State.serveAgain (s : State) (p : FabPacket) : State :=
  match p.body, (FabPacket.peerBit p).bind (s.peerTenant p.tenant p.src) with
  | .get va n, some ten => (s.serveGet p ten va n).1
  | _, _ => s.acknowledge p 0

/-- A packet for another device is forwarded by this one's table (R327). -/
def State.forward (s : State) (p : FabPacket) : State :=
  if (s.routePort p.dest).isNone then s.acknowledge p 2 else s.post (.request p)

/-- A launch packet, READY, GO or DROP, which a runner core handles (R344). -/
def FabPacket.byRunner (p : FabPacket) : Bool :=
  match p.body with
  | .lsend _ => true
  | .launch _ => true
  | .ready _ _ => true
  | .go _ => true
  | .drop _ => true
  | _ => false

/-- A packet that brings a launch to the root (R285, R290). -/
def FabPacket.isLaunch (p : FabPacket) : Bool :=
  match p.body with
  | .lsend _ => true
  | .launch _ => true
  | _ => false

/-- A runner core of launch packets works (R344). -/
def State.launcherUp (s : State) : Bool := s.io.runners.getD 2 true || s.io.runners.getD 3 true

/-- A packet can be taken now: a runner core is there for it (R344), and room at the root for a launch (R285). -/
def State.canServe (s : State) (p : FabPacket) : Bool :=
  (!FabPacket.byRunner p || s.launcherUp) && (!FabPacket.isLaunch p || s.rootRoom)

/-- A numbered packet arrives (R26, R326, R327): it is forwarded, acknowledged again, or performed; it waits while it
cannot be taken. -/
def State.takePacket (s : State) (p : FabPacket) : State :=
  if !s.sec.devLock then s
  else if p.dest ≠ s.self then s.forward p
  else if (s.performedFrom p.src).contains p.num then s.serveAgain p
  else if s.canServe p then s.servePacket p
  else s

/-- FABRIC_PACKET_RECEIVE (R326 to R328). -/
def execFabricPacketReceive (p : FabPacket) (s : State) : Host.Outcome State Fault Refusal := .next (s.takePacket p)

/-- REPLICATED_LAUNCH_RECEIVE (R290). -/
def execReplicatedLaunchReceive (name : PacketName) (tenant : Nat) (packet : List (BitVec 8)) (s : State) :
    Host.Outcome State Fault Refusal :=
  .next (s.takePacket ⟨s.self, name.src, tenant, name.num, .launch packet⟩)

/-- READY_RECEIVE (R290). -/
def execReadyReceive (name : PacketName) (tenant : Nat) (gen : BitVec 32) (accept : Bool) (s : State) :
    Host.Outcome State Fault Refusal :=
  .next (s.takePacket ⟨s.self, name.src, tenant, name.num, .ready gen accept⟩)

/-- GO_RECEIVE (R290). -/
def execGoReceive (name : PacketName) (tenant : Nat) (gen : BitVec 32) (s : State) :
    Host.Outcome State Fault Refusal :=
  .next (s.takePacket ⟨s.self, name.src, tenant, name.num, .go gen⟩)

/-- DROP_RECEIVE (R290). -/
def execDropReceive (name : PacketName) (tenant : Nat) (gen : BitVec 32) (s : State) :
    Host.Outcome State Fault Refusal :=
  .next (s.takePacket ⟨s.self, name.src, tenant, name.num, .drop gen⟩)

/-- BRIDGE_REQUEST_RECEIVE (R333, R334). -/
def execBridgeRequestReceive (p : BridgePacket) (s : State) : Host.Outcome State Fault Refusal :=
  .next (s.takePacket ⟨s.self, p.name.src, 0, p.name.num, .bridge p.req⟩)

end Sys2Proof.Machine
end

