-- ==== Sys2Proof/Machine/Faults.lean ====
section
/-! DEFINITION. Fault records and their answers (R307, R308, R315, R317, R218, R243), tenant reset (R322) and
TLB invalidation (R314). -/

namespace Sys2Proof.Machine

/-! ### Recording translation faults (R315) -/

/-- Takes a translation fault off the list of those on their way to the Hall. -/
def State.takeMsg (s : State) (i : Nat) : State := s.modDesk (fun d => { d with msgs := removeAt d.msgs i })

/-- The queue of a translation fault: tenant 0's for stage 2 (R315). -/
def FaultMsg.queue (m : FaultMsg) : Nat := if m.stage = 2 then 0 else m.fault.ten

/-- The 64 KiB region of the address that the failing stage translates (R315). -/
def FaultMsg.region (m : FaultMsg) : Nat := m.fault.addr / 65536

/-- The unanswered record that a fault joins (R315); each of an engine's stage-1 faults has a record of its own, with
its handle (R243; assumption 69). -/
def State.joined (s : State) (m : FaultMsg) : Option OpenRec :=
  s.desk.open_.find? (fun r =>
    m.fault.kind != 3 && r.queue == m.queue && r.kind == m.fault.kind && r.tenant == m.fault.ten &&
    r.region == m.region)

/-- The agents that a fault stops: a parked thread or arrival set, or an engine item set aside. -/
def FaultMsg.threads (m : FaultMsg) : List Nat := if m.engine.isSome then [] else [m.id]

/-- A fault's agents are added to those of a record. -/
def Answerable.join (w : Answerable) (m : FaultMsg) : Answerable :=
  match w with
  | .agents ms items => .agents (ms ++ m.threads) (items ++ m.engine.toList)
  | w => w

/-- A fault joins a record: NMRG rises while the record still waits for room (R315). -/
def State.joinRec (s : State) (r : OpenRec) (m : FaultMsg) : State :=
  let s1 := s.modDesk (fun d => { d with open_ := d.open_.map (fun x =>
    if x = r then { x with what := x.what.join m } else x) })
  s1.modTenant r.queue (fun t => { t with waiting := t.waiting.map (fun f =>
    if f.tag = r.tag ∧ f.kind = r.kind then { f with nmrg := Nat.min 255 (f.nmrg + 1) } else f) })

/-- A translation fault reaches the Hall: it joins an unanswered record or writes one (R315). -/
def State.recordFault (s : State) (i : Nat) (m : FaultMsg) : State :=
  let s1 := s.takeMsg i
  match s1.joined m with
  | some r => s1.joinRec r m
  | none => s1.postOpen m.queue m.fault m.region m.block (.agents m.threads m.engine.toList)

/-- TRANSLATION_FAULT: of a thread or an arrival set (R315). -/
def execTranslationFault (index : Nat) (s : State) : Host.Outcome State Fault Refusal :=
  .next (
    match s.desk.msgs[index]? with
    | some m => if m.engine.isNone then s.recordFault index m else s
    | none => s)

/-- ENGINE_TRANSLATION_FAULT: of an engine's item that was set aside (R243). -/
def execEngineTranslationFault (index : Nat) (s : State) : Host.Outcome State Fault Refusal :=
  .next (
    match s.desk.msgs[index]? with
    | some m => if m.engine.isSome then s.recordFault index m else s
    | none => s)

/-- FAULT_RECORD_DRAIN: the first record that waits is written once there is room (R307). -/
def execFaultRecordDrain (tenant : Nat) (s : State) : Host.Outcome State Fault Refusal :=
  .next (
    match (s.tenant tenant).waiting with
    | [] => s
    | r :: rest =>
      if (s.tenant tenant).room then
        (s.modTenant tenant (fun t => { t with waiting := rest })).writeRecord tenant r
      else s)

/-! ### Answers (R308) -/

/-- The thread is parked by one of these messages (R315, R218). -/
def Thread.parkedBy (th : Thread) (ms : List Nat) : Bool :=
  match th.st with
  | .parked (.xlate m _ _) => ms.contains m
  | .parked (.upark m _) => ms.contains m
  | _ => false

/-- The threads that an answer acts on. -/
def State.answered (s : State) (ms : List Nat) : List Nat :=
  (s.threads.filter (fun p => p.2.parkedBy ms)).map (·.1)

/-- An answer acts on a thread: now, or at the restore of its block when that is being saved or is saved (R315). -/
def State.answerThread (resume : Bool) (s : State) (k : Nat) : State :=
  match s.blocks.find (blockOf k) with
  | some x => if x.runs then s.settleThread k resume else s.modDesk (fun d => { d with late := d.late ++ [(k, resume)] })
  | none => s

/-- An engine item that was set aside is pushed again with its rank, toward the cluster that its block now
stands on; or it joins the frozen items of a block that is saved (R243, R318). -/
def State.resumeItem (s : State) (it : Item) (rank : BitVec 16) : State :=
  match s.opOf it with
  | some (_, _, o) =>
    match s.blocks.find o.block with
    | some x =>
      if x.st = .saved then
        s.modTree (fun t => { t with frozen := t.frozen ++ [(o.block, ⟨it, rank, .normal, false⟩)] })
      else s.repush o.block (if it.routeClass = 4 then it else it.reroute it.routeClass o.cluster) (some rank)
    | none => s
  | none => s

/-- The record is answered. -/
def State.closeRec (s : State) (r : OpenRec) : State :=
  s.modDesk (fun d => { d with open_ := d.open_.filter (fun x => x != r) })

/-- The agents of a record still exist (R308). -/
def State.agentsLive (s : State) (r : OpenRec) : Bool :=
  match r.what with
  | .agents ms items => !(s.answered ms).isEmpty || items.any (fun p => (s.opOf p.1).isSome)
  | .block b => (s.blocks.find b).isSome
  | .relaunch _ _ _ => true

/-- RESUME of a record (R308). -/
def State.resumeRec (s : State) (r : OpenRec) : State :=
  match r.what with
  | .agents ms items =>
    items.foldl (fun s p => s.resumeItem p.1 p.2) ((s.answered ms).foldl (State.answerThread true) (s.closeRec r))
  | .block _ => s
  | .relaunch l lin it => (s.closeRec r).relaunch l lin it

/-- ABORT of a record (R308). -/
def State.abortRec (s : State) (r : OpenRec) : State :=
  match r.what with
  | .agents ms items =>
    items.foldl (fun s p =>
      match s.opOf p.1 with
      | some (_, _, o) => s.killBlock o.block 1
      | none => s) ((s.answered ms).foldl (State.answerThread false) (s.closeRec r))
  | .block b => (s.closeRec r).killBlock b 5
  | .relaunch l _ _ => (s.closeRec r).blockDone l true

/-- An answer in a tenant's queue (R306, R308); a tenant under reset takes none (R322). -/
def State.answer (s : State) (tenant tag act : Nat) : State :=
  match s.desk.open_.find? (fun r => r.queue == tenant && r.tag == tag) with
  | none => s
  | some r =>
    if (s.tenant tenant).trBusy || !s.agentsLive r then s
    else if act = 1 then s.resumeRec r
    else if act = 2 then s.abortRec r
    else s

/-- The HALL offset of a register of a tenant's fault block (R306). -/
def fqOffset (tenant off : Nat) : Nat := 0x3000 + 0x100 * tenant + off

/-- The Parlour writes a register of a tenant's fault block (R7, R306); no register is there for other tenants. -/
def State.onFault (s : State) (tenant off : Nat) (f : State → State) : State :=
  if tenant < 16 then f (s.discard reqParlour (fqOffset tenant off)) else s

/-- FQANS_RESUME (R308). -/
def execFqansResume (tenant : Nat) (tag : BitVec 24) (s : State) : Host.Outcome State Fault Refusal :=
  .next (s.onFault tenant 0x18 (fun s => s.answer tenant tag.toNat 1))

/-- FQANS_ABORT (R308). -/
def execFqansAbort (tenant : Nat) (tag : BitVec 24) (s : State) : Host.Outcome State Fault Refusal :=
  .next (s.onFault tenant 0x18 (fun s => s.answer tenant tag.toNat 2))

/-! ### The consumed count (R307) -/

/-- A value of CONS keeps PROD − CONS within the queue (R307). -/
def Tenant.consOk (t : Tenant) (cons : Nat) : Bool := decide ((t.prod + 2 ^ 17 - cons) % 2 ^ 17 ≤ 2 ^ t.log2n)

/-- A write of CONS (R307). -/
def State.writeCons (s : State) (tenant cons : Nat) : State :=
  if (s.tenant tenant).consOk cons then s.modTenant tenant (fun t => { t with cons := cons })
  else s.log (.regRefused (fqOffset tenant 0x10))

/-- FQCONS_WRITE (R307). -/
def execFqconsWrite (tenant : Nat) (val : BitVec 32) (s : State) : Host.Outcome State Fault Refusal :=
  .next (s.onFault tenant 0x10 (fun s => s.writeCons tenant (val.extractLsb' 0 17).toNat))

/-! ### Tenant reset (R322) -/

/-- A tenant's sluices lose their node words and tables (R291). -/
def State.clearWords (s : State) (t : Nat) : State :=
  s.modTree (fun x => { x with sluices := x.sluices.mapVals (fun n y =>
    if n != 0 && !isLeaf n && y.tenant == t then { y with nwords := [], tables := [] } else y) })

/-- The launches of a tenant are cancelled and its blocks killed (R322, step 2). -/
def State.cancelTenant (s : State) (t : Nat) : State :=
  let mine := s.tree.entries.filter (fun p => p.2.tenant == t)
  let s1 := mine.foldl (fun s p => s.cancelLevel p.2.level p.1) s
  let left := (s1.blocks.filter (fun p => p.2.tenant == t)).map (·.1)
  left.foldl (fun s b => s.killBlock b 6) s1

/-- A request that would push work: LAUNCH or COPY (R332). -/
def AqiReq.pushes (r : AqiReq) : Bool := r.kind == 0 || r.kind == 2

/-- The work of a tenant that still waits at its sources is dropped (R322, step 1). -/
def State.dropSources (s : State) (t : Nat) : State :=
  let ended := ((s.tree.reads.filter (fun r => r.tenant == t)).filterMap (fun r =>
      match r.path with
      | .aqi a _ _ _ => some a
      | _ => none)) ++ (s.io.copies.filter (fun c => c.tenant == t)).map (·.aqi) ++
    s.tree.entries.filterMap (fun p =>
      match p.2.reply with
      | some (.aqi a _ _ _) => if p.2.tenant = t then some a else none
      | _ => none)
  let s0 := ended.foldl (fun s a => s.endRequests a 1) s
  let s1 := s0.modTree (fun x =>
    { x with
      reads := x.reads.filter (fun r => r.tenant != t)
      entries := x.entries.mapVals (fun _ e => if e.tenant = t then { e with reply := none, succ := [] } else e)
      cancels := x.cancels.filter (fun c => c.1 != t)
      repush := x.repush.filter (fun e => e.item.tenant != t) })
  s1.modIo (fun io =>
    { io with
      copies := io.copies.filter (fun c => c.tenant != t)
      aqis := io.aqis.mapVals (fun _ q => { q with queue := q.queue.filter (fun r => !(r.tenant == t && r.pushes)) })
      hostRun := match io.hostRun with
        | some r => if io.copies.any (fun c => c.id == r.copy && c.tenant == t) then none else some r
        | none => none })

/-- A tenant reset (R322): every step takes place at once, and BUSY falls later. -/
def State.resetTenant (s : State) (t : Nat) : State :=
  if t = 0 ∨ (s.tenant t).trBusy then s.log (.regRefused (fqOffset t 0x28))
  else
    let s1 := ((s.dropSources t).cancelTenant t).dropSources t
    let s2 := ((s1.dropItems (fun q => q.item.tenant == t)).clearWords t).modTree (fun x =>
      { x with frozen := x.frozen.filter (fun e => e.2.item.tenant != t) })
    let s3 := s2.modDesk (fun d =>
      { d with
        open_ := d.open_.filter (fun r => r.queue != t)
        msgs := d.msgs.filter (fun m => m.fault.ten != t) })
    let s4 := s3.modTenant t (fun x => { x with waiting := [], writing := none, prod := 0, cons := 0, trBusy := true })
    { s4 with
      tlb := s4.tlb.filter (fun e => e.tenant != t)
      clusters := s4.clusters.mapVals (fun _ c => { c with rows := c.rows.filter (fun r => r.row.tenant != t) }) }

/-- TENANT_RESET (R322). -/
def execTenantReset (tenant : Nat) (s : State) : Host.Outcome State Fault Refusal :=
  .next (s.onFault tenant 0x28 (fun s => s.resetTenant tenant))

/-- TENANT_RESET_DONE (R322). -/
def execTenantResetDone (tenant : Nat) (s : State) : Host.Outcome State Fault Refusal :=
  .next (s.modTenant tenant (fun t => { t with trBusy := false }))

/-! ### TLB invalidation (R306, R314) -/

/-- An entry that an invalidation of a tenant removes: KIND 1 the stage-1 entries that cover PAGE, 2 all of
stage 1, 3 all (R306). -/
def TlbEnt.invalidated (e : TlbEnt) (t kind page : Nat) : Bool :=
  e.tenant == t &&
  (match kind with
   | 1 => e.stage == 1 && decide (e.base ≤ page) && decide (page < e.base + 2 ^ e.size)
   | 2 => e.stage == 1
   | 3 => true
   | _ => false)

/-- The invalidation in progress ends: no access uses the old entries any more (R314). -/
def State.endInvalidation (s : State) (t : Nat) : State :=
  let x := s.tenant t
  if !x.tlbBusy then s
  else
    { s with tlb := s.tlb.filter (fun e => !e.invalidated t x.tlbKind x.tlbPage) }.modTenant t (fun x =>
      { x with tlbBusy := false, tlbKind := 0, tlbPage := 0 })

/-- A write of TLBICTL: KIND 0 does nothing; one in progress ends first (R306, R314). -/
def State.invalidate (s : State) (t kind : Nat) : State :=
  if kind = 0 then s
  else (s.endInvalidation t).modTenant t (fun x =>
    { x with tlbBusy := true, tlbKind := kind, tlbPage := x.tlbiva })

/-- TLBI_PAGE (R314). -/
def execTlbiPage (tenant : Nat) (s : State) : Host.Outcome State Fault Refusal :=
  .next (s.onFault tenant 0x58 (fun s => s.invalidate tenant 1))

/-- TLBI_STAGE1 (R314). -/
def execTlbiStage1 (tenant : Nat) (s : State) : Host.Outcome State Fault Refusal :=
  .next (s.onFault tenant 0x58 (fun s => s.invalidate tenant 2))

/-- TLBI_ALL (R314). -/
def execTlbiAll (tenant : Nat) (s : State) : Host.Outcome State Fault Refusal :=
  .next (s.onFault tenant 0x58 (fun s => s.invalidate tenant 3))

/-- TLB_INVALIDATION_DONE (R314). -/
def execTlbInvalidationDone (tenant : Nat) (s : State) : Host.Outcome State Fault Refusal :=
  .next (s.endInvalidation tenant)

end Sys2Proof.Machine
end

