-- ==== Sys2Proof/Machine/Registers.lean ====
section
/-! DEFINITION. The register window (R7 to R10, R22, R23): which register an offset names, what it reads, and
what a write does, for every register of the HALL, CL and CORE apertures. -/

namespace Sys2Proof.Machine

/-! ### Names -/

/-- A register of the window. -/
inductive RegName where
  | id
  | config
  | devnum
  | pwrlim
  | pwrstat
  | slew
  | secstat
  | attctl
  | attaddr
  | dbgen
  | heat (j : Nat)
  | saverate
  | ttop (t : Nat)
  | nsel
  | ndata
  | prog (p w : Nat)
  /-- a register of a tenant's fault block, by its offset (R306) -/
  | fault (t off : Nat)
  | peer (t d : Nat)
  | froute (d : Nat)
  | fpstat (p : Nat)
  | e2ectl
  | aqictl (a : Nat)
  | aqilog (a : Nat)
  | aqipas (a e : Nat)
  | irt (i : Nat)
  | hpasid (t : Nat)
  /-- a register of a row-table entry, by its offset (R272) -/
  | row (t e off : Nat)
  /-- CTL, BASE, STAT, HEAD of a sluice or leaf, and PMARGIN of a leaf, by offset (R294) -/
  | node (n off : Nat)
  | child (n i : Nat)
  | lmode (cl i : Nat)
  | rsb (cl : Nat)
  | mxctl (cl : Nat)
  | mxstat (cl : Nat)
  | stage (cl : Nat) (grainer : Bool)
  | rdgrant (c : Nat)
  | resident (c : Nat)
  | classpol (c : Nat)
  | cycle (c : Nat)
  | etime (c : Nat)
  | dbgctl (c : Nat)
  | dbgsel (c : Nat)
  | cmpAddr (c i : Nat)
  | cmpCtl (c i : Nat)
  | rngBase (c r : Nat)
  | rngLim (c r : Nat)
  | lcr (c r k : Nat)
  deriving DecidableEq, Repr

/-- What an offset names: a register and, for a 64-bit register, the half (R7). -/
structure RegRef where
  name : RegName
  wide : Bool
  high : Bool
  deriving DecidableEq, Repr

/-- A 32-bit register. -/
def narrow (n : RegName) : Option RegRef := some ⟨n, false, false⟩

/-- A half of a 64-bit register: `o` is 0 or 4. -/
def half (n : RegName) (o : Nat) : Option RegRef := some ⟨n, true, o == 4⟩

/-- The registers of the sluice or leaf at an offset of its own map (R294). -/
def nodeReg (n o : Nat) : Option RegRef :=
  if o < 0x10 then narrow (.node n o)
  else if isLeaf n then (if o = 0x10 then narrow (.node n o) else none)
  else if 0x40 ≤ o ∧ o < 0x80 then half (.child n ((o - 0x40) / 8)) (o % 8)
  else none

/-- The fault block of a tenant (R306). -/
def faultReg (t o : Nat) : Option RegRef :=
  if o < 8 then half (.fault t 0x00) o
  else if o = 0x1C ∨ o = 0x2C ∨ o = 0x4C ∨ 0x5C ≤ o then none
  else if 0x30 ≤ o ∧ o < 0x48 then half (.fault t (o / 8 * 8)) (o % 8)
  else if 0x50 ≤ o ∧ o < 0x58 then half (.fault t 0x50) (o % 8)
  else narrow (.fault t o)

/-- The registers of a row-table entry (R272). -/
def rowReg (t e o : Nat) : Option RegRef :=
  if 0x50 ≤ o then none
  else if o = 0x18 then narrow (.row t e 0x18)
  else if o = 0x1C then none
  else half (.row t e (o / 8 * 8)) (o % 8)

/-- The single registers of the HALL aperture. -/
def hallFixed (o : Nat) : Option RegRef :=
  match o with
  | 0x000 => narrow .id
  | 0x004 => narrow .config
  | 0x008 => narrow .devnum
  | 0x100 => narrow .pwrlim
  | 0x104 => narrow .pwrstat
  | 0x108 => narrow .slew
  | 0x110 => narrow .secstat
  | 0x114 => narrow .attctl
  | 0x118 => half .attaddr 0
  | 0x11C => half .attaddr 4
  | 0x120 => narrow .dbgen
  | 0x1040 => narrow .saverate
  | 0x1100 => narrow .nsel
  | 0x1104 => narrow .ndata
  | 0x5200 => narrow .e2ectl
  | _ => none

/-- A HALL offset (R24 to R26, R272, R293, R294, R306, R329, R335, R339, R347). -/
def hallReg (o : Nat) : Option RegRef :=
  if 0x80000 ≤ o then nodeReg ((o - 0x80000) / 0x80) (o % 0x80)
  else if 0x10000 ≤ o ∧ o < 0x50000 then
    let w := o % 0x80 / 4
    if w < 24 then narrow (.prog ((o - 0x10000) / 0x80) w) else none
  else if 0x8000 ≤ o ∧ o < 0x10000 then rowReg ((o - 0x8000) / 0x800) (o % 0x800 / 0x80) (o % 0x80)
  else if 0x7400 ≤ o ∧ o < 0x7440 then narrow (.hpasid ((o - 0x7400) / 4))
  else if 0x7000 ≤ o ∧ o < 0x7200 then half (.irt ((o - 0x7000) / 8)) (o % 8)
  else if 0x6000 ≤ o ∧ o < 0x6200 then
    let a := (o - 0x6000) / 0x40
    let x := o % 0x40
    if x = 0 then narrow (.aqictl a)
    else if x = 8 then narrow (.aqilog a)
    else if 0x10 ≤ x ∧ x < 0x30 then narrow (.aqipas a ((x - 0x10) / 4))
    else none
  else if 0x5100 ≤ o ∧ o < 0x5190 then half (.fpstat ((o - 0x5100) / 8)) (o % 8)
  else if 0x5000 ≤ o ∧ o < 0x5100 then narrow (.froute ((o - 0x5000) / 4))
  else if 0x4000 ≤ o ∧ o < 0x5000 then narrow (.peer ((o - 0x4000) / 0x100) (o % 0x100 / 4))
  else if 0x3000 ≤ o ∧ o < 0x4000 then faultReg ((o - 0x3000) / 0x100) (o % 0x100)
  else if 0x2000 ≤ o ∧ o < 0x2260 then nodeReg (portLeaf ((o - 0x2000) / 0x20)) (o % 0x20)
  else if 0x1080 ≤ o ∧ o < 0x10C0 then narrow (.ttop ((o - 0x1080) / 4))
  else if 0x1000 ≤ o ∧ o < 0x1030 then narrow (.heat ((o - 0x1000) / 4))
  else hallFixed o

/-- A CL offset of a cluster (R258, R294, R301, R304). -/
def clReg (cl o : Nat) : Option RegRef :=
  if 0x200 ≤ o ∧ o < 0x20C then narrow (.lmode cl ((o - 0x200) / 4))
  else if o = 0x20C then narrow (.rsb cl)
  else if 0x300 ≤ o ∧ o < 0x380 then nodeReg (coreLeaf cl + (o - 0x300) / 0x20) (o % 0x20)
  else if o = 0x400 then narrow (.mxctl cl)
  else if o = 0x404 then narrow (.mxstat cl)
  else if o = 0x408 then narrow (.stage cl false)
  else if o = 0x40C then narrow (.stage cl true)
  else none

/-- A CORE offset of a core (R58, R59, R250, R251, R349, R351). -/
def coreReg (c o : Nat) : Option RegRef :=
  if 0x400 ≤ o ∧ o < 0x800 then
    let x := o % 0x40
    if x < 0x28 then half (.lcr c ((o - 0x400) / 0x40) (x / 8)) (o % 8) else none
  else if 0x300 ≤ o ∧ o < 0x400 then
    let r := (o - 0x300) / 0x10
    if o % 0x10 < 8 then half (.rngBase c r) (o % 8) else half (.rngLim c r) (o % 8)
  else if 0x110 ≤ o ∧ o < 0x190 then
    let i := (o - 0x110) / 0x10
    if o % 0x10 < 8 then half (.cmpAddr c i) (o % 8)
    else if o % 0x10 = 8 then narrow (.cmpCtl c i)
    else none
  else
    match o with
    | 0x040 => narrow (.rdgrant c)
    | 0x044 => narrow (.resident c)
    | 0x048 => narrow (.classpol c)
    | 0x050 => half (.cycle c) 0
    | 0x054 => half (.cycle c) 4
    | 0x058 => half (.etime c) 0
    | 0x05C => half (.etime c) 4
    | 0x100 => narrow (.dbgctl c)
    | 0x104 => narrow (.dbgsel c)
    | _ => none

/-- The register that a window offset names (R22). -/
def regAt (o : Nat) : Option RegRef :=
  if o < 0x100000 then hallReg o
  else if 0x1000000 ≤ o ∧ o < 0x1600000 then clReg ((o - 0x1000000) / 0x10000) (o % 0x10000)
  else if 0x2000000 ≤ o ∧ o < 0x2600000 then coreReg ((o - 0x2000000) / 0x4000) (o % 0x4000)
  else none

/-! ### Reads -/

/-- A bit at a place. -/
def bitAt (b : Bool) (n : Nat) : Nat := if b then 2 ^ n else 0

/-- The leaf or sluice that NSEL names, and the key of its word: in the node words, or in the tables
(R293). -/
def nselTarget (v : Word32) : Option (Nat × Bool × Nat) :=
  let space := bitsOf v 30 2
  let node := bitsOf v 18 12
  let which := bitsOf v 8 3
  let index := bitsOf v 0 6
  let n := match space with
    | 0 => some node
    | 1 => if node < 384 then some (leafNode node) else none
    | 2 => if node < 19 then some (leafNode (384 + node)) else none
    | _ => none
  match n with
  | none => none
  | some n =>
    if which = 0 then some (n, false, index)
    else if which ≤ 4 then some (n, true, 64 * (which - 1) + index)
    else none

/-- Groups resident on a core, barrier objects in use on it, and blocks with a group there (R59). -/
def State.residentWord (s : State) (c : Nat) : Nat :=
  let gs := s.coreGroups c
  let blocks := (gs.map blockOfGroup).eraseDups
  let bars := s.blocks.foldl (fun n p =>
    if p.2.core == some c && p.2.st != .saved then n + p.2.objs.length else n) 0
  2 ^ 22 * gs.length + 2 ^ 10 * bars + blocks.length

/-- The named thread of a core is halted (R350). -/
def State.namedHalted (s : State) (c : Nat) : Bool :=
  match s.namedThread c with
  | some k =>
    match s.threads.find k with
    | some th => th.st == .parked .debug
    | none => false
  | none => false

/-- A register of a tenant's fault block (R306). -/
def Tenant.faultReg (t : Tenant) (off : Nat) : Nat :=
  match off with
  | 0x00 => t.fqbase
  | 0x08 => bitAt t.fqen 31 + t.log2n
  | 0x0C => t.prod
  | 0x10 => t.cons
  | 0x14 => bitAt (t.pending == 2 ^ t.log2n) 31 + bitAt t.waited 0
  | 0x20 => t.bartmo.toNat
  | 0x24 => t.bstall.toNat
  | 0x28 => bitAt t.trBusy 31
  | 0x30 => t.s1root
  | 0x38 => t.s2root
  | 0x40 => t.savebase
  | 0x48 => t.savesize
  | 0x50 => t.tlbiva
  | 0x58 => bitAt t.tlbBusy 31
  | _ => 0

/-- A register of a row-table entry (R272). -/
def RowEntry.reg (e : RowEntry) (off : Nat) : Nat :=
  match off with
  | 0x00 => e.base
  | 0x08 => e.limit
  | 0x10 => e.verBase
  | 0x18 => bitAt e.valid 31 + e.k
  | 0x20 => e.near
  | 0x28 => e.stale
  | 0x30 => e.lag1
  | 0x38 => e.lag2
  | 0x40 => e.lag4
  | _ => e.lag16

/-- A register of a sluice or leaf (R294). -/
def Sluice.reg (x : Sluice) (n off : Nat) : Nat :=
  let leaf := isLeaf n
  match off with
  | 0x00 =>
    if leaf then 2 ^ 16 * x.prog + 2 ^ 12 * x.dNext
    else bitAt x.en 31 + 2 ^ 27 * x.tenant + 2 ^ 16 * x.prog + x.cap
  | 0x04 => x.b.toNat
  | 0x08 => bitAt x.rwf 31 + x.items.length
  | 0x0C =>
    match x.items with
    | q :: _ => 2 ^ 31 + q.rank.toNat
    | [] => 0
  | _ => x.pmargin.toNat

/-- A child entry as its register (R294). -/
def Child.word (c : Child) : Nat :=
  bitAt c.v 63 + bitAt c.leaf 62 + 2 ^ 56 * c.cls.toNat + 2 ^ 44 * c.child + 2 ^ 33 * c.lo + 2 ^ 22 * c.hi

/-- The value of a register: 64 bits for a 64-bit register (R9). -/
def State.regValue (s : State) (r : RegName) : Nat :=
  match r with
  | .id => 0x0096_1001
  | .config => bitAt s.sec.bridge 23 + 2 ^ 16 * 0x60 + 2 ^ 11 * 0x12 + 2 ^ 7 * 8 + 2 ^ 4 * 4
  | .devnum => bitAt s.sec.devLock 31 + s.sec.devnum.toNat
  | .pwrlim => s.sec.pwrlim
  | .pwrstat => 2 ^ 16 * s.sec.avg + 2 ^ 8 * s.sec.temp + s.sec.step
  | .slew => s.sec.slew
  | .secstat => bitAt s.sec.locked 31 + bitAt s.sec.erased 30 + bitAt s.sec.keyerase 29 + bitAt s.dbgOn 28 +
      4 * s.sec.boot + s.sec.src.toNat
  | .attctl => bitAt s.sec.attBusy 30 + bitAt s.sec.attErr 29
  | .attaddr => s.sec.attaddr
  | .dbgen => bitAt s.sec.dbgen 0
  | .heat j => (natRange 0 8).foldl (fun n i => n + 16 ^ i * s.heat (8 * j + i)) 0
  | .saverate => s.tree.saverate
  | .ttop t => bitAt (s.tenant t).ttopV 31 + (s.tenant t).ttop
  | .nsel => s.tree.nsel.toNat
  | .ndata =>
    match nselTarget s.tree.nsel with
    | some (n, false, i) => ((s.sluice n).nwords.getD i 0).toNat
    | some (n, true, i) => ((s.sluice n).tables.getD i 0).toNat
    | none => 0
  | .prog p w => (s.tree.progWord p w).toNat
  | .fault t off => (s.tenant t).faultReg off
  | .peer t d => (s.io.peer.getD (64 * t + d) 0).toNat
  | .froute d => (s.io.froute.getD d 0).toNat
  | .fpstat p =>
    let x := s.io.ports.getD p Port.reset
    2 ^ 48 * x.crcerr + 2 ^ 32 * x.replay + 2 ^ 16 * x.tomb + bitAt x.up 0
  | .e2ectl => 2 ^ 24 * s.io.bridgeDev + 2 ^ 16 * s.io.retry + s.io.tmo
  | .aqictl a => bitAt (s.io.aqis.getD a Aqi.reset).en 31 + (s.io.aqis.getD a Aqi.reset).tenant
  | .aqilog a =>
    let q := s.io.aqis.getD a Aqi.reset
    2 ^ 28 * q.lcode + 2 ^ 20 * q.count + q.pasid.toNat
  | .aqipas a e =>
    let x := (s.io.aqis.getD a Aqi.reset).pas.getD e (false, 0)
    bitAt x.1 31 + x.2.toNat
  | .irt i =>
    let e := s.irt i
    bitAt e.v 63 + bitAt e.mask 62 + bitAt e.pend 61 + 2 ^ 32 * e.pasid.toNat + e.vec.toNat
  | .hpasid t => (s.tenant t).hpasid.toNat
  | .row t e off => ((s.tenant t).rows.getD e RowEntry.reset).reg off
  | .node n off => (s.sluice n).reg n off
  | .child n i =>
    match (s.sluice n).child.find i with
    | some c => c.word
    | none => 0
  | .lmode cl i => (natRange 0 16).foldl (fun n k => n + 4 ^ k * (s.cluster cl).bankMode (16 * i + k)) 0
  | .rsb cl => (s.cluster cl).rsb.length
  | .mxctl cl => (s.cluster cl).wdog.toNat
  | .mxstat cl =>
    let c := s.cluster cl
    2 ^ 24 * c.grResets + 2 ^ 16 * c.pnResets + bitAt (c.grRst != 0) 3 + bitAt (c.pnRst != 0) 2 +
      bitAt c.grn.isSome 1 + bitAt c.pan.isSome 0
  | .stage cl g => (if g then (s.cluster cl).stgg else (s.cluster cl).stgp).toNat
  | .rdgrant c => (s.core c).grant
  | .resident c => s.residentWord c
  | .classpol c =>
    let x := s.core c
    2 ^ 24 * (if x.mode then x.k else 0) + 2 ^ 8 * x.runLen + bitAt x.mode 0
  | .cycle c => (s.core c).cycle.toNat
  | .etime c => (s.core c).etime.toNat
  | .dbgctl c =>
    let x := s.core c
    bitAt x.lcren 3 + bitAt x.dmode 2 + bitAt x.dstep 1 + bitAt (s.namedHalted c) 0
  | .dbgsel c => (s.core c).dbgsel.toNat
  | .cmpAddr c i => ((s.core c).cmpAddr.getD i 0).toNat
  | .cmpCtl c i => ((s.core c).cmpCtl.getD i 0).toNat
  | .rngBase c r => ((s.core c).rngBase.getD r 0).toNat
  | .rngLim c r => ((s.core c).rngLim.getD r 0).toNat
  | .lcr c r k => (s.core c).lcr.getD (5 * r + k) 0

/-! ### Writes of single registers -/

/-- A field of a written value. -/
def fld (v lo n : Nat) : Nat := v / 2 ^ lo % 2 ^ n

/-- HALL.DEVNUM: LOCK fixes DEVNUM until reset, and packets that wait for it go out (R26). -/
def State.writeDevnum (s : State) (v : Nat) : State :=
  if s.sec.devLock then s
  else (s.modSec (fun x => { x with devnum := BitVec.ofNat 6 v, devLock := v.testBit 31 })).sendWaiting

/-- HALL.PWRLIM: the nearer bound of 300 to 1,800 (R339). -/
def State.writeLimit (s : State) (v : Nat) : State :=
  s.modSec (fun x => { x with pwrlim := Nat.max 300 (Nat.min 1800 v) })

/-- HALL.ATTCTL.GO: a report starts, unless one is in progress (R347). -/
def State.startAttestation (s : State) : State :=
  if s.sec.attBusy then s else s.modSec (fun x => { x with attBusy := true, attAlarm := false })

/-- CORE.CLASSPOL (R251). -/
def Core.writeClasspol (x : Core) (v : Nat) : Core :=
  let mode := v.testBit 0
  let l := Nat.max 8 (Nat.min 256 (fld v 8 9))
  if mode && !x.mode then { x with mode := true, runLen := l, k := 0, run := 0 }
  else { x with mode := mode, runLen := l }

/-- Item slots that the root and the inner sluices reserve (R278, R291): enabled ones, and disabled ones that
hold items. -/
def State.slotsUsed (s : State) : Nat :=
  let root := if (s.tree.sluices.find 0).isSome then 0 else (Sluice.reset 0).cap + 1
  s.tree.sluices.foldl (fun n p =>
    if !isLeaf p.1 && (p.2.en || !p.2.items.isEmpty) then n + p.2.cap + 1 else n) root

/-- The checks of R291 hold for a sluice as it stands, were it enabled. -/
def State.enableOk (s : State) (n : Nat) : Bool :=
  let x := s.sluice n
  let s1 := s.setSluice n { x with en := true }
  x.child.all (fun c => !c.2.v || c.2.leaf ||
    (c.2.child != 0 && (s.sluice c.2.child).en && (s.sluice c.2.child).tenant == x.tenant)) &&
  decide (s1.slotsUsed ≤ 65536) && s.tree.progOk x.prog

/-- The window offset of a sluice's or leaf's first register (R22, R294). -/
def nodeOffset (n : Nat) : Nat :=
  if !isLeaf n then 0x80000 + 0x80 * n
  else
    let l := n - 4096
    if l < 384 then 0x1000000 + 0x10000 * (l / 4) + 0x300 + 0x20 * (l % 4) else 0x2000 + 0x20 * (l - 384)

/-- SL.CTL (R291, R294). -/
def State.writeSluice (s : State) (n v : Nat) : State :=
  let x := s.sluice n
  let en := v.testBit 31
  if x.en then (if en then s else s.setSluice n { x with en := false })
  else
    let s1 := s.setSluice n { x with tenant := fld v 27 4, prog := fld v 16 11, cap := fld v 0 12 }
    if !en then s1
    else if s1.enableOk n then s1.modSluice n (fun x => { x with en := true })
    else s1.log (.regRefused (nodeOffset n))

/-- LF.CTL: a program that fails its check leaves the former one, and the depth holds from the next Hall cycle on (R284,
R294). -/
def State.writeLeaf (s : State) (n v : Nat) : State :=
  let matrix := decide (n < leafNode 384) && ((n - 4096) % 4 == 1 || (n - 4096) % 4 == 2)
  let s1 := if matrix then s.modSluice n (fun x => { x with dNext := fld v 12 4 }) else s
  if s.tree.progOk (fld v 16 11) then s1.modSluice n (fun x => { x with prog := fld v 16 11 })
  else s1.log (.regRefused (nodeOffset n))

/-- A register of a sluice or leaf (R294). -/
def State.writeNode (s : State) (n off v : Nat) : State :=
  match off with
  | 0x00 => if isLeaf n then s.writeLeaf n v else s.writeSluice n v
  | 0x04 => s.modSluice n (fun x =>
      if (if isLeaf n then !x.items.isEmpty else x.en) then x else { x with b := BitVec.ofNat 16 v })
  | 0x08 => if v.testBit 31 then s.modSluice n (fun x => { x with rwf := false }) else s
  | 0x10 => s.modSluice n (fun x => { x with pmargin := BitVec.ofNat 16 v })
  | _ => s

/-- SL.CHILD: ignored while EN = 1 (R294). -/
def State.writeChild (s : State) (n i v : Nat) : State :=
  s.modSluice n (fun x =>
    if x.en then x
    else
      let c : Child := ⟨v.testBit 63, v.testBit 62, BitVec.ofNat 6 (fld v 56 6), fld v 44 12, fld v 33 11, fld v 22 11⟩
      { x with child := x.child.put ⟨false, false, 0, 0, 0, 0⟩ i c })

/-- A program slot is named by an enabled sluice or by a leaf (R284): every leaf and the root name slot 0 at
reset. -/
def State.progNamed (s : State) (p : Nat) : Bool :=
  s.tree.sluices.any (fun q => (isLeaf q.1 || q.2.en) && q.2.prog == p) ||
  (p == 0 && ((natRange 0 403).any (fun l => (s.tree.sluices.find (leafNode l)).isNone) ||
    (s.tree.sluices.find 0).isNone))

/-- A word of the program store (R284). -/
def State.writeProg (s : State) (p w v : Nat) : State :=
  if s.progNamed p then s.log (.regRefused (0x10000 + 0x80 * p + 4 * w))
  else s.modTree (fun t => { t with progs := t.progs.set p (setAt (t.prog p) w (BitVec.ofNat 32 v)) })

/-- HALL.NDATA (R293): `req` and the offset for the log when NSEL names nothing. -/
def State.writeNdata (s : State) (req v : Nat) : State :=
  match nselTarget s.tree.nsel with
  | none => s.log (.regError req 0x1104)
  | some (n, false, i) => s.modSluice n (fun x => { x with nwords := x.nwords.put 0 i (BitVec.ofNat 32 v) })
  | some (n, true, i) => s.modSluice n (fun x => { x with tables := x.tables.put 0 i (BitVec.ofNat 32 v) })

/-- The checks of a row-table entry that is to become valid (R273). -/
def RowEntry.ok (e : RowEntry) : Bool :=
  decide (6 ≤ e.k) && decide (e.k ≤ 12) && decide (e.base < e.limit) && e.base % 2 ^ e.k == 0 &&
  e.limit % 2 ^ e.k == 0 && e.verBase % 4 == 0 &&
  (let n := 4 * ((e.limit - e.base) / 2 ^ e.k)
   inGlobal e.verBase n && (decide (e.verBase + n ≤ e.base) || decide (e.limit ≤ e.verBase)))

/-- Changes a row-table entry. -/
def State.setRow (s : State) (t i : Nat) (e : RowEntry) : State :=
  s.modTenant t (fun x => { x with rows := x.rows.put RowEntry.reset i e })

/-- The window offset of a register of a row-table entry (R272). -/
def rowOffset (t e off : Nat) : Nat := 0x8000 + 0x800 * t + 0x80 * e + off

/-- HALL.ROWCTL: a write of VALID = 1 that fails its checks has no effect and is logged (R272, R273). -/
def State.writeRowctl (s : State) (t i v : Nat) : State :=
  let e := (s.tenant t).rows.getD i RowEntry.reset
  if e.valid then s.setRow t i { e with valid := v.testBit 31 }
  else
    let e1 := { e with k := fld v 0 4 }
    if !v.testBit 31 then s.setRow t i e1
    else if e1.ok then s.setRow t i { e1 with valid := true }
    else s.log (.regRefused (rowOffset t i 0x18))

/-- A register of a row-table entry (R272, R273). -/
def State.writeRow (s : State) (t i off v : Nat) : State :=
  let e := (s.tenant t).rows.getD i RowEntry.reset
  let addr := v % 2 ^ 52
  let count := v % 2 ^ 48
  match off with
  | 0x00 => if e.valid then s else s.setRow t i { e with base := addr }
  | 0x08 => if e.valid then s else s.setRow t i { e with limit := addr }
  | 0x10 => if e.valid then s else s.setRow t i { e with verBase := addr }
  | 0x18 => s.writeRowctl t i v
  | 0x20 => s.setRow t i { e with near := count }
  | 0x28 => s.setRow t i { e with stale := count }
  | 0x30 => s.setRow t i { e with lag1 := count }
  | 0x38 => s.setRow t i { e with lag2 := count }
  | 0x40 => s.setRow t i { e with lag4 := count }
  | _ => s.setRow t i { e with lag16 := count }

/-- A register of a tenant's fault block (R306). -/
def State.writeFault (s : State) (t off v : Nat) : State :=
  let root := v % 2 ^ 52 / 2 ^ 16 * 2 ^ 16
  match off with
  | 0x00 => s.modTenant t (fun x => { x with fqbase := v % 2 ^ 52 })
  | 0x08 => s.modTenant t (fun x =>
      { x with
        fqen := v.testBit 31
        log2n := if 6 ≤ fld v 0 5 ∧ fld v 0 5 ≤ 16 then fld v 0 5 else 6 })
  | 0x10 => s.writeCons t (fld v 0 17)
  | 0x14 => if v.testBit 0 then s.modTenant t (fun x => { x with waited := false }) else s
  | 0x18 => s.answer t (fld v 0 24) (fld v 30 2)
  | 0x20 => s.modTenant t (fun x => { x with bartmo := BitVec.ofNat 32 v })
  | 0x24 => s.modTenant t (fun x => { x with bstall := BitVec.ofNat 32 v })
  | 0x28 => if v.testBit 0 then s.resetTenant t else s
  | 0x30 => s.modTenant t (fun x => { x with s1root := root })
  | 0x38 => s.modTenant t (fun x => { x with s2root := root })
  | 0x40 => s.modTenant t (fun x => { x with savebase := root })
  | 0x48 => s.modTenant t (fun x => { x with savesize := v % 2 ^ 32 })
  | 0x50 => s.modTenant t (fun x => { x with tlbiva := root })
  | 0x58 => s.invalidate t (fld v 0 2)
  | _ => s

/-- CL.LMODE: each bank whose field changes is switched or refused; code 3 keeps its mode (R241, R258). -/
def State.writeLmode (s : State) (cl i v : Nat) : State :=
  (natRange 0 16).foldl (fun s k =>
    let m := fld v (2 * k) 2
    let b := 16 * i + k
    if m = 3 ∨ m = (s.cluster cl).bankMode b ∨ s.bankRefused cl b none then s else s.switchBank cl b m) s

/-- CL.MXCTL (R304). -/
def State.writeMxctl (s : State) (cl v : Nat) : State :=
  let s1 := s.modCluster cl (fun c => { c with wdog := BitVec.ofNat 16 v })
  let s2 := if v.testBit 16 then s1.resetEngine cl false else s1
  if v.testBit 17 then s2.resetEngine cl true else s2

/-- HALL.AQICTL: TENANT 0 stores EN = 0 (R335). -/
def State.writeAqictl (s : State) (a v : Nat) : State :=
  s.modIo (fun io =>
    let q := io.aqis.getD a Aqi.reset
    let q2 := { q with en := v.testBit 31 && fld v 0 4 != 0, tenant := fld v 0 4 }
    { io with aqis := io.aqis.put Aqi.reset a q2 })

/-- HALL.AQIPAS (R335). -/
def State.writeAqipas (s : State) (a e v : Nat) : State :=
  s.modIo (fun io =>
    let q := io.aqis.getD a Aqi.reset
    let q2 := { q with pas := q.pas.put (false, 0) e (v.testBit 31, BitVec.ofNat 20 v) }
    { io with aqis := io.aqis.put Aqi.reset a q2 })

/-- HALL.IRT: clearing MASK while PEND is 1 sends one message and clears PEND (R334, R335). -/
def State.writeIrt (s : State) (i v : Nat) : State :=
  let old := s.irt i
  let e : IrtEnt := ⟨v.testBit 63, v.testBit 62, old.pend, BitVec.ofNat 20 (fld v 32 20), BitVec.ofNat 8 v⟩
  let put := fun (s : State) (e : IrtEnt) =>
    s.modIo (fun io => { io with irt := io.irt.put IrtEnt.reset i e })
  if old.pend && !e.mask then (put s { e with pend := false }).unmask i e else put s e

/-- CORE.DBGCTL: RUN resumes the halted named thread (R349, R350). -/
def State.debugResume (s : State) (c : Nat) : State :=
  match s.namedThread c with
  | some k => if s.namedHalted c then s.modThread k (fun th => { th with st := .ready }) else s
  | none => s

/-- CORE.DBGCTL (R349). -/
def State.writeDbgctl (s : State) (c v : Nat) : State :=
  let s1 := s.modCore c (fun x =>
    { x with lcren := v.testBit 3, dmode := v.testBit 2, dstep := v.testBit 1 })
  if v.testBit 0 && s.dbgOn then s1.debugResume c else s1

/-- HALL.E2ECTL (R329). -/
def State.writeE2e (s : State) (v : Nat) : State :=
  s.modIo (fun io =>
    { io with bridgeDev := fld v 24 6, retry := fld v 16 8, tmo := if fld v 0 16 = 0 then 1 else fld v 0 16 })

/-- HALL.FROUTE: ports 18 to 31 store V = 0 (R329). -/
def frouteWord (v : Nat) : Word32 :=
  BitVec.ofNat 32 (bitAt (v.testBit 31 && decide (fld v 0 5 < 18)) 31 + fld v 0 5)

/-- HALL.HEAT j (R293). -/
def State.writeHeat (s : State) (j v : Nat) : State :=
  s.modTree (fun t => { t with heat := (natRange 0 8).foldl (fun m i => m.put 0 (8 * j + i) (fld v (4 * i) 4)) t.heat })

/-- Applies a write of a whole register (R9, R10): reserved and read-only fields of the value are not
taken. -/
def State.regWrite (s : State) (req : Nat) (r : RegName) (v : Nat) : State :=
  match r with
  | .devnum => s.writeDevnum v
  | .pwrlim => s.writeLimit (fld v 0 11)
  | .attctl => if v.testBit 31 then s.startAttestation else s
  | .attaddr => s.modSec (fun x => { x with attaddr := v % 2 ^ 52 })
  | .dbgen => s.modSec (fun x => { x with dbgen := x.dbgen || v.testBit 0 })
  | .heat j => s.writeHeat j v
  | .saverate => s.modTree (fun t => { t with saverate := if fld v 0 16 = 0 then 1 else fld v 0 16 })
  | .ttop t => s.modTenant t (fun x => { x with ttopV := v.testBit 31, ttop := fld v 0 12 })
  | .nsel => s.modTree (fun t => { t with nsel := BitVec.ofNat 32 v &&& 0xFFFC_073F })
  | .ndata => s.writeNdata req v
  | .prog p w => s.writeProg p w v
  | .fault t off => s.writeFault t off v
  | .peer t d => s.modIo (fun io => { io with peer := io.peer.put 0 (64 * t + d) (BitVec.ofNat 32 v &&& 0xF000_000F) })
  | .froute d => s.modIo (fun io => { io with froute := io.froute.put 0 d (frouteWord v) })
  | .e2ectl => s.writeE2e v
  | .aqictl a => s.writeAqictl a v
  | .aqipas a e => s.writeAqipas a e v
  | .irt i => s.writeIrt i v
  | .hpasid t => s.modTenant t (fun x => { x with hpasid := BitVec.ofNat 20 v })
  | .row t e off => s.writeRow t e off v
  | .node n off => s.writeNode n off v
  | .child n i => s.writeChild n i v
  | .lmode cl i => s.writeLmode cl i v
  | .mxctl cl => s.writeMxctl cl v
  | .stage cl g => s.writeRegion cl g (BitVec.ofNat 32 v) (stageOffset cl g)
  | .rdgrant c => s.modCore c (fun x => { x with grant := Nat.max 8 (Nat.min 96 (fld v 0 7)) })
  | .classpol c => s.modCore c (fun x => x.writeClasspol v)
  | .dbgctl c => s.writeDbgctl c v
  | .dbgsel c => s.modCore c (fun x => { x with dbgsel := BitVec.ofNat 32 (v % 2 ^ 12) })
  | .cmpAddr c i => s.modCore c (fun x => { x with cmpAddr := x.cmpAddr.put 0 i (BitVec.ofNat 64 v) })
  | .cmpCtl c i => s.modCore c (fun x => { x with cmpCtl := x.cmpCtl.put 0 i (BitVec.ofNat 32 v &&& 0xF000_0000) })
  | .rngBase c r => s.modCore c (fun x => { x with rngBase := x.rngBase.put 0 r (BitVec.ofNat 64 v) })
  | .rngLim c r => s.modCore c (fun x => { x with rngLim := x.rngLim.put 0 r (BitVec.ofNat 64 v) })
  | .lcr c r k => s.modCore c (fun x => { x with lcr := x.lcr.put 0 (5 * r + k) (v % 2 ^ 48) })
  | .id | .config | .pwrstat | .slew | .secstat | .fpstat _ | .aqilog _ | .rsb _ | .mxstat _ | .resident _
  | .cycle _ | .etime _ => s

/-! ### Accesses (R7, R8, R22) -/

/-- The CORE debug registers (R349, R351). -/
def RegName.debug : RegName → Bool
  | .dbgctl _ => true
  | .dbgsel _ => true
  | .cmpAddr _ _ => true
  | .cmpCtl _ _ => true
  | .rngBase _ _ => true
  | .rngLim _ _ => true
  | .lcr _ _ _ => true
  | _ => false

/-- A host write is permitted (R345). -/
def State.hostMay (s : State) (r : RegName) : Bool :=
  match r with
  | .pwrlim => true
  | .rdgrant _ => true
  | .classpol _ => true
  | _ => r.debug && s.dbgOn

/-- A requester reaches a register: the Parlour and the host through BAR2 every one, the debugger only the CORE debug
registers while debug is enabled, and nobody else any (R23, R349; assumption 142). -/
def State.reaches (s : State) (req : Nat) (r : RegName) : Bool :=
  if req = reqDebug then r.debug && s.dbgOn else req == reqParlour || req == reqHost

/-- The offset of the first word of a register. -/
def RegRef.base (r : RegRef) (off : Nat) : Nat := if r.high then off - 4 else off

/-- A register access error is logged (R8, R22). -/
def State.regError (s : State) (req off : Nat) : State := s.log (.regError req off)

/-- A write that reaches its register (R7). -/
def State.applyWrite (s : State) (req off : Nat) (r : RegRef) (val : Word32) : State :=
  let o := r.base off
  let s1 := s.discard req o
  if !r.wide then s1.regWrite req r.name val.toNat
  else if !r.high then s1.modDesk (fun d => { d with heldLow := d.heldLow.set req (o, val) })
  else
    let low := match s1.desk.heldLow.find req with
      | some (_, w) => w.toNat
      | none => s1.regValue r.name % 2 ^ 32
    (s1.modDesk (fun d => { d with heldLow := d.heldLow.erase req })).regWrite req r.name
      (2 ^ 32 * val.toNat + low)

/-- A register write (R7, R8, R22, R23): `size` is the access's size in bytes. -/
def State.writeReg (s : State) (req off size : Nat) (val : Word32) : State :=
  if size ≠ 4 ∨ off % 4 ≠ 0 then s.regError req off
  else
    match regAt off with
    | none => s.regError req off
    | some r => if s.reaches req r.name then s.applyWrite req off r val else s.regError req off

/-- A host write through BAR2 of a bridge (R23, R345): refused ones are logged. -/
def State.hostWrite (s : State) (off size : Nat) (val : Word32) : State :=
  if !s.sec.bridge then s
  else if size ≠ 4 ∨ off % 4 ≠ 0 then s.regError reqHost off
  else
    match regAt off with
    | none => s.regError reqHost off
    | some r => if s.hostMay r.name then s.applyWrite reqHost off r val else s.log (.hostRefused off)

/-- A requester's read answers a value. -/
def State.answerRead (s : State) (req : Nat) (v : Nat) : State :=
  s.modDesk (fun d => { d with reads := d.reads.set req (BitVec.ofNat 32 v) })

/-- A read of a register (R7, R9): NDATA that names nothing reads 0 and is logged (R293). -/
def State.applyRead (s : State) (req off : Nat) (r : RegRef) : State :=
  let o := r.base off
  let s1 := s.discard req o
  let v := s1.regValue r.name
  if !r.wide then
    let s2 := if r.name = .ndata ∧ (nselTarget s.tree.nsel).isNone then s1.regError req off else s1
    s2.answerRead req v
  else if !r.high then
    (s1.modDesk (fun d => { d with latched := d.latched.set req (o, BitVec.ofNat 32 (v / 2 ^ 32)) })).answerRead
      req v
  else
    match s1.desk.latched.find req with
    | some (_, w) => (s1.modDesk (fun d => { d with latched := d.latched.erase req })).answerRead req w.toNat
    | none => s1.answerRead req (v / 2 ^ 32)

/-- A register read (R7, R8, R22). -/
def State.readReg (s : State) (req off size : Nat) : State :=
  if req = reqHost ∧ !s.sec.bridge then s
  else if size ≠ 4 ∨ off % 4 ≠ 0 then (s.regError req off).answerRead req 0
  else
    match regAt off with
    | none => (s.regError req off).answerRead req 0
    | some r => if s.reaches req r.name then s.applyRead req off r else (s.regError req off).answerRead req 0

/-! ### Events -/

/-- REGISTER_WRITE: by the Parlour or the debugger, or by the host under R345. -/
def execRegisterWrite (req off size : Nat) (val : BitVec 32) (s : State) : Host.Outcome State Fault Refusal :=
  .next (if req = reqHost then s.hostWrite off size val else s.writeReg req off size val)

/-- REGISTER_READ (R7). -/
def execRegisterRead (req off size : Nat) (s : State) : Host.Outcome State Fault Refusal :=
  .next (s.readReg req off size)

/-- HOST_REGISTER_WRITE (R345). -/
def execHostRegisterWrite (off size : Nat) (val : BitVec 32) (s : State) : Host.Outcome State Fault Refusal :=
  .next (s.hostWrite off size val)

/-- DEVNUM_WRITE (R26). -/
def execDevnumWrite (val : BitVec 32) (s : State) : Host.Outcome State Fault Refusal :=
  .next (s.writeReg reqParlour 0x008 4 val)

/-- CLASSPOL_WRITE (R251). -/
def execClasspolWrite (core : Nat) (val : BitVec 32) (s : State) : Host.Outcome State Fault Refusal :=
  .next (if core < 384 then s.writeReg reqParlour (0x2000000 + 0x4000 * core + 0x048) 4 val else s)

/-- LMODE_REGISTER_WRITE (R258). -/
def execLmodeRegisterWrite (cluster reg : Nat) (val : BitVec 32) (s : State) :
    Host.Outcome State Fault Refusal :=
  .next (
    if cluster < 96 ∧ reg < 3 then s.writeReg reqParlour (0x1000000 + 0x10000 * cluster + 0x200 + 4 * reg) 4 val
    else s)

/-- SLUICE_ENABLE (R291). -/
def execSluiceEnable (sluice : Nat) (val : BitVec 32) (s : State) : Host.Outcome State Fault Refusal :=
  .next (
    if sluice < 4096 ∧ val.getLsbD 31 then s.writeReg reqParlour (nodeOffset sluice) 4 val else s)

/-- SLUICE_DISABLE (R291). -/
def execSluiceDisable (sluice : Nat) (val : BitVec 32) (s : State) : Host.Outcome State Fault Refusal :=
  .next (
    if sluice < 4096 ∧ !val.getLsbD 31 then s.writeReg reqParlour (nodeOffset sluice) 4 val else s)

/-- LEAF_PROG_WRITE (R284, R294). -/
def execLeafProgWrite (leaf : Nat) (val : BitVec 32) (s : State) : Host.Outcome State Fault Refusal :=
  .next (if leaf < 403 then s.writeReg reqParlour (nodeOffset (leafNode leaf)) 4 val else s)

/-- PROG_STORE_WRITE (R284). -/
def execProgStoreWrite (slot word : Nat) (val : BitVec 32) (s : State) : Host.Outcome State Fault Refusal :=
  .next (
    if slot < 2048 ∧ word < 24 then s.writeReg reqParlour (0x10000 + 0x80 * slot + 4 * word) 4 val else s)

/-- NDATA_WRITE (R293). -/
def execNdataWrite (val : BitVec 32) (s : State) : Host.Outcome State Fault Refusal :=
  .next (s.writeReg reqParlour 0x1104 4 val)

/-- ROW_ENTRY_VALIDATE: a write that sets VALID (R273). -/
def execRowEntryValidate (tenant entry : Nat) (val : BitVec 32) (s : State) :
    Host.Outcome State Fault Refusal :=
  .next (
    if tenant < 16 ∧ entry < 16 ∧ val.getLsbD 31 then s.writeReg reqParlour (rowOffset tenant entry 0x18) 4 val
    else s)

/-- ROW_ENTRY_DEREGISTER: a write that clears VALID (R273). -/
def execRowEntryDeregister (tenant entry : Nat) (s : State) : Host.Outcome State Fault Refusal :=
  .next (
    let e := (s.tenant tenant).rows.getD entry RowEntry.reset
    if tenant < 16 ∧ entry < 16 ∧ e.valid then
      s.writeReg reqParlour (rowOffset tenant entry 0x18) 4 (BitVec.ofNat 32 (e.k % 16))
    else s)

/-- The high word of an interrupt remapping entry with MASK cleared. -/
def IrtEnt.unmasked (e : IrtEnt) : Word32 := BitVec.ofNat 32 (bitAt e.v 31 + bitAt e.pend 29 + e.pasid.toNat)

/-- IRT_UNMASK: the Parlour writes the high word of an entry with MASK cleared, and its other fields as they stand (R7,
R334). -/
def execIrtUnmask (source : Nat) (s : State) : Host.Outcome State Fault Refusal :=
  .next (
    if source < 64 then s.writeReg reqParlour (0x7000 + 8 * source + 4) 4 (s.irt source).unmasked
    else s)

/-- DEBUG_RUN: 1 is written to CORE.DBGCTL.RUN by the debugger (R349, R350). -/
def execDebugRun (core : Nat) (s : State) : Host.Outcome State Fault Refusal :=
  .next (
    if core < 384 ∧ s.dbgOn then (s.discard reqDebug (0x2000000 + 0x4000 * core + 0x100)).debugResume core else s)

/-- ATTESTATION: the Parlour writes GO (R347). -/
def execAttestation (s : State) : Host.Outcome State Fault Refusal :=
  .next (s.writeReg reqParlour 0x114 4 0x8000_0000)

end Sys2Proof.Machine
end

