-- ==== Sys2Proof/Machine/Host.lean ====
section
/-! DEFINITION. The host's side of the bridge (R330 to R333): notify writes and requests, the Hall transfer
engine, requests of other devices to the bridge, and the runner cores (R344). -/

namespace Sys2Proof.Machine

/-! ### AQIs (R331, R332) -/

/-- An AQI. -/
def State.aqi (s : State) (a : Nat) : Aqi := s.io.aqis.getD a Aqi.reset

/-- Changes an AQI. -/
def State.modAqi (s : State) (a : Nat) (f : Aqi → Aqi) : State :=
  s.modIo (fun io => { io with aqis := io.aqis.put Aqi.reset a (f (io.aqis.getD a Aqi.reset)) })

/-- TAG of a request packet (R332). -/
def reqTag (p : List Byte) : Word32 := BitVec.ofNat 32 (fieldAt p 0 4)
/-- PRIO of a request packet (R332). -/
def reqPrio (p : List Byte) : Nat := fieldAt p 4 1
/-- ORDER of a request packet (R332). -/
def reqOrder (p : List Byte) : Bool := fieldAt p 5 1 % 2 == 1
/-- COMPL of a request packet (R332). -/
def reqCompl (p : List Byte) : Nat := fieldAt p 8 8
/-- BOUND of a request packet (R332). -/
def reqBound (p : List Byte) : Word32 := BitVec.ofNat 32 (fieldAt p 16 4)

/-- The first byte of a request packet that its kind does not use (R332). -/
def reqEnd (kind : Nat) : Nat :=
  match kind with
  | 0 => 0x28
  | 1 => 0x1D
  | 2 => 0x2C
  | 3 => 0x38
  | 4 => 0x19
  | _ => 0x1C

/-- A field lies beyond its limit (R332). -/
def reqLimits (kind : Nat) (p : List Byte) : Bool :=
  match kind with
  | 0 => fieldAt p 0x18 8 % 128 == 0
  | 1 => decide (fieldAt p 0x1C 1 ≤ 3)
  | 2 => decide (4 ≤ fieldAt p 0x28 4) && fieldAt p 0x28 4 % 4 == 0
  | 3 => decide (fieldAt p 0x18 1 ≤ 15) && fieldAt p 0x1A 6 == 0
  | 4 => decide (fieldAt p 0x18 1 ≤ 15)
  | 5 => fieldAt p 0x1B 1 % 64 == 0
  | 6 => fieldAt p 0x18 4 / 2 ^ 17 == 0
  | _ => false

/-- A request is well formed: its kind is 0 to 6, its reserved and unused bytes are 0, and its fields are
within their limits (R332). -/
def reqOk (kind : Nat) (p : List Byte) : Bool :=
  decide (kind ≤ 6) && fieldAt p 4 1 / 64 == 0 && fieldAt p 5 1 / 2 == 0 && fieldAt p 6 2 == 0 &&
  fieldAt p 0x14 4 == 0 && (p.drop (reqEnd kind)).all (· == 0) && reqLimits kind p

/-! ### COPY (R332) -/

/-- HOST items of a COPY (R332). -/
def HostCopy.parts (c : HostCopy) : Nat := (c.bytes + 4095) / 4096

/-- Bytes of part i of a COPY. -/
def HostCopy.partBytes (c : HostCopy) (i : Nat) : Nat := Nat.min 4096 (c.bytes - 4096 * i)

/-- Part i of a COPY as a HOST item (R276). What its rank fields hold is open. -/
def State.hostItem (s : State) (c : HostCopy) (i : Nat) : Item :=
  ⟨[BitVec.ofNat 16 (4096 * 10 + 2), BitVec.ofNat 16 (4096 * c.tenant + c.aqi), BitVec.ofNat 16 c.prio,
      BitVec.ofNat 16 ((c.partBytes i + 63) / 64), c.bound.extractLsb' 0 16, c.bound.extractLsb' 16 16,
      routeOf 5 0, c.tag.extractLsb' 0 16] ++
      (natRange s.freeCtr 8).map (fun k => BitVec.ofNat 16 (Config.free k)),
    .host c.id i, 0, .none⟩

/-- The items of a COPY are pushed while its tenant's top sluice takes them, after the block that the launch unit pushes in
the Hall cycle (R280, R332). -/
def State.pushParts (id : Nat) : Nat → State → State
  | 0, s => s
  | fuel + 1, s =>
    match s.io.copies.find? (fun c => c.id == id) with
    | none => s
    | some c =>
      if c.parts ≤ c.pushed then s
      else
        match s.expandOldest.pushTop (s.hostItem c c.pushed) ordHost with
        | none => s
        | some s1 => State.pushParts id fuel ((s1.drawnN 8).modIo (fun io =>
            { io with copies := io.copies.map (fun x =>
                if x.id = id then { x with pushed := x.pushed + 1 } else x) }))

/-- Every COPY that waits to push goes on. -/
def State.pushCopies (s : State) : State :=
  s.io.copies.foldl (fun s c => State.pushParts c.id (c.parts - c.pushed) s) s

/-- COPY: the request and its items (R332). -/
def State.startCopy (s : State) (a : Nat) (r : AqiReq) : State :=
  let p := r.bytes
  let c : HostCopy :=
    { id := s.freshId
      aqi := a
      tenant := r.tenant
      tag := reqTag p
      compl := reqCompl p
      src := fieldAt p 0x18 8
      dst := fieldAt p 0x20 8
      bytes := fieldAt p 0x28 4
      prio := reqPrio p
      bound := reqBound p
      pushed := 0
      left := (fieldAt p 0x28 4 + 4095) / 4096
      failed := false }
  State.pushParts c.id c.parts (s.bumpId.modIo (fun io => { io with copies := io.copies ++ [c] }))

/-! ### ROWREG and ROWDEREG (R273, R332) -/

/-- ROWREG: the version words are cleared, then the counters, then VALID is set; the status (R273, R332). The Parlour
writes the entry's registers, ROWCTL last, so that it holds and has latched nothing of any other afterwards (R7). -/
def State.registerRow (s0 : State) (t : Nat) (p : List Byte) : State × Nat :=
  let i := fieldAt p 0x18 1
  let s := s0.discard reqParlour (rowOffset t i 0x18)
  let old := (s.tenant t).rows.getD i RowEntry.reset
  let e : RowEntry :=
    { RowEntry.reset with
      base := fieldAt p 0x20 8
      limit := fieldAt p 0x28 8
      verBase := fieldAt p 0x30 8
      k := fieldAt p 0x19 1 }
  if old.valid ∨ !e.ok ∨ 2 ^ 52 ≤ e.base ∨ 2 ^ 52 ≤ e.limit then (s.log (.regRefused (rowOffset t i 0x18)), 3)
  else
    let n := 4 * ((e.limit - e.base) / 2 ^ e.k)
    match s.writeVa t e.verBase (List.replicate n 0) (n / 65536 + 2) with
    | (s1, false) => (s1, 5)
    | (s1, true) => (s1.setRow t i { e with valid := true }, 0)

/-- ROWDEREG clears VALID: the Parlour writes ROWCTL (R7, R273). -/
def State.deregisterRow (s : State) (t : Nat) (p : List Byte) : State :=
  let i := fieldAt p 0x18 1
  (s.discard reqParlour (rowOffset t i 0x18)).setRow t i { (s.tenant t).rows.getD i RowEntry.reset with valid := false }

/-! ### Requests (R331, R332) -/

/-- A request that has started completes with a status. -/
def State.finishRequest (s : State) (a : Nat) (r : AqiReq) (status : Nat) : State :=
  s.completeAqi a r.tenant (reqCompl r.bytes) (reqTag r.bytes) status 0

/-- A request is applied (R332), with the register writes by which the Parlour applies it (R7); one that would push work of a tenant under reset is dropped (R322; assumption 71). -/
def State.runRequest (s : State) (a : Nat) (r : AqiReq) : State :=
  let p := r.bytes
  if r.pushes && (s.tenant r.tenant).trBusy then s.endRequests a 1
  else if !reqOk r.kind p then s.finishRequest a r 2
  else
    match r.kind with
    | 0 => s.modTree (fun t =>
        { t with reads := t.reads ++
            [⟨.aqi a (reqTag p) (reqCompl p) (fieldAt p 0x20 8), r.tenant, fieldAt p 0x18 8, reqBound p, none⟩] })
    | 1 => (s.cancelBy r.tenant (fieldAt p 0x1C 1) (fieldAt p 0x18 4)).finishRequest a r 0
    | 2 => s.startCopy a r
    | 3 =>
      let x := s.registerRow r.tenant p
      x.1.finishRequest a r x.2
    | 4 => (s.deregisterRow r.tenant p).finishRequest a r 0
    | 5 => ((s.discard reqParlour (faultOffset r.tenant 0x18)).answer r.tenant (fieldAt p 0x18 3) (fieldAt p 0x1B 1 / 64)).finishRequest a r 0
    | _ => ((s.discard reqParlour (faultOffset r.tenant 0x10)).writeCons r.tenant (fieldAt p 0x18 4)).finishRequest a r 0

/-- The head of an AQI's queue can be started: one with ORDER waits for every earlier request of its AQI (R332). -/
def Aqi.startable (q : Aqi) : Option AqiReq :=
  match q.queue with
  | r :: _ => if reqOrder r.bytes && q.busy != 0 then none else some r
  | [] => none

/-- The AQI whose head arrived first among those that can be started (R331). -/
def State.nextAqi (s : State) : Option (Nat × AqiReq) :=
  leastBy (fun (x y : Nat × AqiReq) => decide (x.2.arrived < y.2.arrived))
    ((natRange 0 8).filterMap (fun a => (s.aqi a).startable.map (fun r => (a, r))))

/-- The runner cores take the requests of the AQIs in the order of their arrival (R331), at most `fuel` of them. -/
def State.serveSome : Nat → State → State
  | 0, s => s
  | fuel + 1, s =>
    match if s.runnerUp then s.nextAqi else none with
    | none => s
    | some (a, r) =>
      State.serveSome fuel
        ((s.modAqi a (fun q => { q with queue := q.queue.drop 1, busy := q.busy + 1 })).runRequest a r)

/-- Requests that an AQI's queue holds (R331). -/
def aqiMax : Nat := 64

/-- The runner cores serve the AQIs as far as they can. -/
def State.serveAqis (s : State) : State := State.serveSome (8 * aqiMax) s

/-- A refusal at the notify page is recorded (R331, R335). -/
def State.refuseNotify (s : State) (a lcode : Nat) (pasid : Option (BitVec 20)) : State :=
  s.modAqi a (fun q =>
    { q with
      lcode := lcode
      count := Nat.min 255 (q.count + 1)
      pasid := pasid.getD q.pasid })

/-- An AQI accepts requests with a PASID (R331). -/
def Aqi.accepts (q : Aqi) (p : BitVec 20) : Bool := q.en && q.pas.any (fun e => e.2.1 && e.2.2 == p)

/-- The host through BAR0 as a requester. -/
def reqBar0 : Nat := 3

/-- A host access to BAR0 (R330, R331): a read answers 0, and a write outside the notify pages is dropped. -/
def State.notify (s : State) (w : NotifyWrite) : State :=
  if !s.sec.bridge then s
  else if w.read then s.answerRead reqBar0 0
  else if 8 ≤ w.aqi then s
  else
    match w.pasid with
    | none => s.refuseNotify w.aqi 1 none
    | some pasid =>
      if w.size ≠ 64 ∨ !w.aligned ∨ w.bytes.length ≠ 64 then s.refuseNotify w.aqi 1 none
      else
        let q := s.aqi w.aqi
        if !q.accepts pasid then s.refuseNotify w.aqi 2 (some pasid)
        else if aqiMax ≤ q.queue.length then
          s.recordAqi w.aqi q.tenant (reqCompl w.bytes) (reqTag w.bytes) 4 0
        else
          (s.bumpId.modAqi w.aqi (fun q =>
            { q with queue := q.queue ++ [⟨s.freshId, w.kind, q.tenant, w.bytes⟩] })).serveAqis

/-- A notify write of a row of the opcode table: the row's kind, or a kind that none has (R332). -/
def State.notifyKind (s : State) (kind : Nat) (w : NotifyWrite) : State :=
  if w.kind = kind ∨ 6 < w.kind then s.notify w else s

/-- AQI_LAUNCH (R332). -/
def execAqiLaunch (w : NotifyWrite) (s : State) : Host.Outcome State Fault Refusal := .next (s.notifyKind 0 w)

/-- AQI_CANCEL (R332). -/
def execAqiCancel (w : NotifyWrite) (s : State) : Host.Outcome State Fault Refusal := .next (s.notifyKind 1 w)

/-- AQI_COPY (R332). -/
def execAqiCopy (w : NotifyWrite) (s : State) : Host.Outcome State Fault Refusal := .next (s.notifyKind 2 w)

/-- AQI_ROWREG (R273, R332). -/
def execAqiRowreg (w : NotifyWrite) (s : State) : Host.Outcome State Fault Refusal := .next (s.notifyKind 3 w)

/-- AQI_ROWDEREG (R273, R332). -/
def execAqiRowdereg (w : NotifyWrite) (s : State) : Host.Outcome State Fault Refusal := .next (s.notifyKind 4 w)

/-- AQI_FQANSWER (R306, R308, R332). -/
def execAqiFqanswer (w : NotifyWrite) (s : State) : Host.Outcome State Fault Refusal := .next (s.notifyKind 5 w)

/-- AQI_FQCONS (R307, R332). -/
def execAqiFqcons (w : NotifyWrite) (s : State) : Host.Outcome State Fault Refusal := .next (s.notifyKind 6 w)

/-! ### The Hall transfer engine (R332) -/

/-- The head of the host-transfer leaf is taken and its source read; one that cannot be read ends its part (R332). -/
def State.hostPop (s : State) : State :=
  match (s.sluice hostLeaf).items with
  | [] => s
  | q :: _ =>
    if s.io.hostRun.isSome || !s.canTake hostLeaf then s
    else
      let s1 := s.popHead hostLeaf
      match q.item.owner with
      | .host id part =>
        match s1.io.copies.find? (fun c => c.id == id) with
        | none => s1
        | some c =>
          match s1.readVa c.tenant (c.src + 4096 * part) (c.partBytes part) 2 with
          | some d =>
            (s1.readRequests c.tenant (c.src + 4096 * part) (c.partBytes part) 2).modIo (fun io =>
              { io with hostRun := some ⟨id, part, d, none⟩ })
          | none => s1.hostPartDone id true
      | _ => s1

/-- HOST_TRANSFER_POP (R332). -/
def execHostTransferPop (s : State) : Host.Outcome State Fault Refusal := .next s.hostPop

/-- The Hall transfer engine is free of its part, which is done. -/
def State.hostEnd (s : State) (id : Nat) (failed : Bool) : State :=
  (s.modIo (fun io => { io with hostRun := none })).hostPartDone id failed

/-- The Hall transfer engine writes its part; the part is done with its last byte, which in the host window is performed
with the write that holds it (R332, R333). -/
def State.hostWriteOut (s : State) (r : HostRun) : State :=
  match s.io.copies.find? (fun c => c.id == r.copy) with
  | none => s.modIo (fun io => { io with hostRun := none })
  | some c =>
    match s.writeVa c.tenant (c.dst + 4096 * r.part) r.data 2 with
    | (s1, ok) =>
      match s1.newOps s with
      | [] => s1.hostEnd r.copy (!ok)
      | ids => s1.modIo (fun io => { io with hostRun := some { r with data := [], sent := some (!ok, ids) } })

/-- HOST_TRANSFER_COMPLETE: the part is written, and the COPY completes with its last byte (R332). -/
def execHostTransferComplete (id : Nat) (s : State) : Host.Outcome State Fault Refusal :=
  .next (
    match s.io.hostRun with
    | none => s
    | some r =>
      if r.copy ≠ id then s
      else
        match r.sent with
        | none => s.hostWriteOut r
        | some (failed, ids) => if s.underway ids then s else s.hostEnd id failed)

/-! ### The PCI Express function of a bridge (R330) -/

/-- What PF0 presents (R330): its IDs, the sizes of its BARs in bytes by number, the entries of its MSI-X table, the width
of a PASID, and the features that it does not support or advertise. -/
structure Pf0 where
  vendor   : BitVec 16
  device   : BitVec 16
  bars     : NMap Nat
  msix     : Nat
  pasid    : Nat
  pasidExecute    : Bool
  pasidPrivileged : Bool
  sriov    : Bool
  ats      : Bool
  pri      : Bool
  flr      : Bool
  deriving DecidableEq, Repr

/-- PF0 of a device with BRIDGE = 1; another device's port holds its link down (R14, R330). -/
def State.pf0 (s : State) : Option Pf0 :=
  if s.sec.bridge then
    some {
      vendor := Config.vendorId
      device := 0x0096
      bars := [(0, 32768), (2, 67108864), (4, 65536)]
      msix := 256
      pasid := 20
      pasidExecute := false
      pasidPrivileged := false
      sriov := false
      ats := false
      pri := false
      flr := false }
  else none

/-! ### Runner cores and the Hall's cycle -/

/-- The oldest completion record that has been written and not yet announced is half handled: it is taken again from the
start (R344). -/
def retakeJob : List RunnerJob → List RunnerJob
  | [] => []
  | .record a t c tag st info (some _) :: rest => .record a t c tag st info none :: rest
  | j :: rest => j :: retakeJob rest

/-- A runner core stops; `half` says whether it was in the middle of the oldest item under way (R344). -/
def State.stopRunner (s : State) (runner : Nat) (half : Bool) : State :=
  if runner < 6 then
    s.modIo (fun io =>
      { io with
        runners := setAt io.runners runner false
        jobs := if half && decide (4 ≤ runner) then retakeJob io.jobs else io.jobs })
  else s

/-! ### The host's accesses to BAR4 (R330) -/

/-- A pending MSI-X message of an entry that is no longer masked leaves (R330; assumption 127). -/
def State.flushMsix (s : State) (entry : Nat) : State :=
  match s.io.msixPend.find entry with
  | some pasid =>
    if (s.msixWord entry 3).getLsbD 0 then s
    else (s.modIo (fun io => { io with msixPend := io.msixPend.erase entry })).sendMsix entry pasid
  | none => s

/-- A host access to BAR4 of a bridge whose link is not held down (R330, R348): it writes a word of an entry of the MSI-X
table, or reads one, or reads the entry's pending bit as word 4. -/
def State.bar4 (s : State) (entry word : Nat) (value : Option Word32) : State :=
  if !s.sec.bridge || s.sec.locked || decide (256 ≤ entry) || decide (5 ≤ word) then s
  else
    match value with
    | some v =>
      if word = 4 then s
      else
        (s.modIo (fun io => { io with
          msixTable := io.msixTable.put (if word = 3 then 1 else 0) (4 * entry + word)
            (if word = 3 then v &&& 1 else v) })).flushMsix entry
    | none =>
      s.answerRead reqBar0 (if word = 4 then (if (s.io.msixPend.find entry).isSome then 1 else 0)
        else (s.msixWord entry word).toNat)

/-! ### The Parlour's cores (R14, R344; assumption 125) -/

/-- Firmware changes the registers of the main core. -/
def State.runMain (s : State) (h : MainHart) : State := s.modIo (fun io => { io with mainHart := h })

/-- Firmware changes the registers of a runner core that works. -/
def State.runRunner (s : State) (runner : Nat) (h : RunnerHart) : State :=
  if decide (runner < 6) && s.io.runners.getD runner false then
    s.modIo (fun io => { io with runnerHarts := io.runnerHarts.put RunnerHart.reset runner h })
  else s

/-- RUNNER_RESTART: a runner core works again, and takes what waits for it from the start (R344). -/
def execRunnerRestart (runner : Nat) (s : State) : Host.Outcome State Fault Refusal :=
  .next (
    if runner < 6 then (s.modIo (fun io => { io with runners := setAt io.runners runner true })).runJobs.serveAqis
    else s)

/-! ### The Hall cycle (R280) -/

/-- The unit of a leaf takes its head, or the launch unit the root's (R280). -/
def State.takeHead (s : State) (n : Nat) : State :=
  if n = 0 then s.launchPop
  else if n = hostLeaf then s.hostPop
  else if leafNode 384 ≤ n then s.portPop (n - leafNode 384)
  else
    match (n - 4096) % 4 with
    | 0 => s.corePop (leafCluster n)
    | 1 => s.enginePop (leafCluster n) false
    | 2 => s.enginePop (leafCluster n) true
    | _ => s.copyPop (leafCluster n)

/-- The unit of a leaf, or the launch unit, requests a pop now: it is free, and the leaf holds a head that it may take
(R280, R285, R289). -/
def State.wants (s : State) (n : Nat) : Bool :=
  match (s.sluice n).items with
  | [] => false
  | q :: _ =>
    let cl := leafCluster n
    if n = 0 then !q.hold && s.freeSlot.isSome
    else if !isLeaf n then false
    else if n = hostLeaf then s.io.hostRun.isNone
    else if leafNode 384 ≤ n then true
    else
      match (n - 4096) % 4 with
      | 0 => true
      | 1 => (s.cluster cl).pan.isNone && (s.cluster cl).pnRst == 0 && s.stageDone q.item
      | 2 => (s.cluster cl).grn.isNone && (s.cluster cl).grRst == 0 && s.stageDone q.item
      | _ => s.copyFree cl

/-- The pops requested before a Hall cycle are made, its moves are granted and its pushes begin (R280). -/
def State.openPushes (s : State) : State :=
  let s1 := s.tree.asks.foldl State.takeHead s
  let s2 := s1.tree.sluices.foldl (fun s p => s.dropStray p.1) s1
  s2.grantMoves.modTree (fun t => { t with pushing := true })

/-- Operands that no staging region could hold are faults where their items have become eligible (R302). -/
def State.faultAllOversized (s : State) : State :=
  (natRange 0 96).foldl (fun s cl => (s.faultOversized cl false).faultOversized cl true) s

/-- The rest of a Hall cycle (R280): its re-pushes, then its moves, then a block of the oldest expansion slot that can push
and the parts of COPY requests; then it ends, and the units request their next pops. -/
def State.closeCycle (s : State) : State :=
  let s1 := s.flushRepush none
  let s2 := s1.tree.moving.foldl State.applyMove s1
  let s3 := s2.expandOldest.pushCopies.launchCycle.faultAllOversized
  s3.hallTick ((s3.tree.sluices.map (·.1)).filter s3.wants)

/-- A turn of the Hall: the first half of a Hall cycle, its pops and what it grants, or the second (R280, R331). -/
def State.hallTurn (s : State) : State :=
  let s1 := s.serveAqis
  if s1.tree.pushing then s1.closeCycle else s1.openPushes

end Sys2Proof.Machine
end

