-- ==== Sys2Proof/Machine/LaneFloat.lean ====
section
/-! DEFINITION. Lane major opcodes 0x10 to 0x1B (R139 to R157): floating-point arithmetic, conversions,
scaled accumulation, quantisation, dot products and ternary digits. -/

namespace Sys2Proof.Machine

/-- xmod values of an instruction that takes a rounding mode (R141). -/
def roundXmod (x : Nat) : Bool := decide (x < 4)

/-- xmod values of an FP8 narrowing: a byte and NSAT (R141). -/
def narrowXmod (x : Nat) : Bool := x / 2 % 2 == 0

/-- xmod values of an FP8 widening: a byte (R141). -/
def widenXmod (x : Nat) : Bool := x % 4 == 0

/-- xmod values of CVT.F32.BF16: HI (R141). -/
def hiXmod (x : Nat) : Bool := decide (x ≤ 1)

/-- Every xmod value (R141). -/
def anyXmod (_x : Nat) : Bool := true

/-- The rounding mode of the unit (R141). -/
def LaneVals.mode (o : LaneVals) : Round := Round.ofCode o.x

/-- The byte that xmod[3:2] names (R141). -/
def LaneVals.byte (o : LaneVals) : Nat := o.x / 4

/-- NSAT (R141). -/
def LaneVals.sat (o : LaneVals) : Bool := o.x % 2 == 0

/-- FADD (R143). -/
def execFadd (_tc : BitVec 2) (vd va vb : BitVec 7) (s : State) : Host.Outcome State Fault Refusal :=
  .next (lrUnit s ((Use.ab vd va vb).withX roundXmod) vd (fun o => fAdd o.mode o.a o.b))

/-- FSUB (R143). -/
def execFsub (_tc : BitVec 2) (vd va vb : BitVec 7) (s : State) : Host.Outcome State Fault Refusal :=
  .next (lrUnit s ((Use.ab vd va vb).withX roundXmod) vd (fun o => fSub o.mode o.a o.b))

/-- FMUL (R143). -/
def execFmul (_tc : BitVec 2) (vd va vb : BitVec 7) (s : State) : Host.Outcome State Fault Refusal :=
  .next (lrUnit s ((Use.ab vd va vb).withX roundXmod) vd (fun o => fMul o.mode o.a o.b))

/-- FMIN (R144). -/
def execFmin (_tc : BitVec 2) (vd va vb : BitVec 7) (s : State) : Host.Outcome State Fault Refusal :=
  .next (lrUnit s (Use.ab vd va vb) vd (fun o => fMin o.a o.b))

/-- FMAX (R144). -/
def execFmax (_tc : BitVec 2) (vd va vb : BitVec 7) (s : State) : Host.Outcome State Fault Refusal :=
  .next (lrUnit s (Use.ab vd va vb) vd (fun o => fMax o.a o.b))

/-- FFMA (R143). -/
def execFfma (_tc : BitVec 2) (vd va vb : BitVec 7) (s : State) : Host.Outcome State Fault Refusal :=
  .next (lrUnit s (((Use.ab vd va vb).withC).withX roundXmod) vd (fun o => fFma o.mode o.a o.b o.c))

/-- FSEQ (R145). -/
def execFseq (_tc : BitVec 2) (vd va vb : BitVec 7) (s : State) : Host.Outcome State Fault Refusal :=
  .next (lrUnit s (Use.ab vd va vb) vd (fun o => boolWord (fpEq (f32 o.a) (f32 o.b))))

/-- FSLT (R145). -/
def execFslt (_tc : BitVec 2) (vd va vb : BitVec 7) (s : State) : Host.Outcome State Fault Refusal :=
  .next (lrUnit s (Use.ab vd va vb) vd (fun o => boolWord (fpLt (f32 o.a) (f32 o.b))))

/-- FSLE (R145). -/
def execFsle (_tc : BitVec 2) (vd va vb : BitVec 7) (s : State) : Host.Outcome State Fault Refusal :=
  .next (lrUnit s (Use.ab vd va vb) vd (fun o => boolWord (fpLt (f32 o.a) (f32 o.b) || fpEq (f32 o.a) (f32 o.b))))

/-- FSUN (R145). -/
def execFsun (_tc : BitVec 2) (vd va vb : BitVec 7) (s : State) : Host.Outcome State Fault Refusal :=
  .next (lrUnit s (Use.ab vd va vb) vd (fun o => boolWord ((f32 o.a).isNan || (f32 o.b).isNan)))

/-- HADD2 (R146). -/
def execHadd2 (_tc : BitVec 2) (vd va vb : BitVec 7) (s : State) : Host.Outcome State Fault Refusal :=
  .next (lrUnit s (Use.ab vd va vb) vd (fun o => bf2 (fun a b _ => hAdd a b) o.a o.b 0))

/-- HMUL2 (R146). -/
def execHmul2 (_tc : BitVec 2) (vd va vb : BitVec 7) (s : State) : Host.Outcome State Fault Refusal :=
  .next (lrUnit s (Use.ab vd va vb) vd (fun o => bf2 (fun a b _ => hMul a b) o.a o.b 0))

/-- HFMA2 (R146). -/
def execHfma2 (_tc : BitVec 2) (vd va vb : BitVec 7) (s : State) : Host.Outcome State Fault Refusal :=
  .next (lrUnit s ((Use.ab vd va vb).withC) vd (fun o => bf2 hFma o.a o.b o.c))

/-- HMAX2 (R146). -/
def execHmax2 (_tc : BitVec 2) (vd va vb : BitVec 7) (s : State) : Host.Outcome State Fault Refusal :=
  .next (lrUnit s (Use.ab vd va vb) vd (fun o => bf2 (fun a b _ => minMax bf16 true a b) o.a o.b 0))

/-- FRCP (R147). -/
def execFrcp (_tc : BitVec 2) (vd va : BitVec 7) (s : State) : Host.Outcome State Fault Refusal :=
  .next (lrUnit s ((Use.one vd va).withX roundXmod) vd (fun o => fRcp o.mode o.a))

/-- FRSQ (R147). -/
def execFrsq (_tc : BitVec 2) (vd va : BitVec 7) (s : State) : Host.Outcome State Fault Refusal :=
  .next (lrUnit s ((Use.one vd va).withX roundXmod) vd (fun o => fRsq o.mode o.a))

/-- FEX2 (R147). -/
def execFex2 (_tc : BitVec 2) (vd va : BitVec 7) (s : State) : Host.Outcome State Fault Refusal :=
  .next (lrUnit s ((Use.one vd va).withX roundXmod) vd (fun o => fEx2 o.mode o.a))

/-- FLG2 (R147). -/
def execFlg2 (_tc : BitVec 2) (vd va : BitVec 7) (s : State) : Host.Outcome State Fault Refusal :=
  .next (lrUnit s ((Use.one vd va).withX roundXmod) vd (fun o => fLg2 o.mode o.a))

/-- FDIV (R143). -/
def execFdiv (_tc : BitVec 2) (vd va vb : BitVec 7) (s : State) : Host.Outcome State Fault Refusal :=
  .next (lrUnit s ((Use.ab vd va vb).withX roundXmod) vd (fun o => fDiv o.mode o.a o.b))

/-- FSQRT (R147). -/
def execFsqrt (_tc : BitVec 2) (vd va : BitVec 7) (s : State) : Host.Outcome State Fault Refusal :=
  .next (lrUnit s ((Use.one vd va).withX roundXmod) vd (fun o => fSqrt o.mode o.a))

/-- FSCL (R148). -/
def execFscl (_tc : BitVec 2) (vd va vb : BitVec 7) (s : State) : Host.Outcome State Fault Refusal :=
  .next (lrUnit s ((Use.ab vd va vb).withX roundXmod) vd (fun o => fScl o.mode o.a o.b))

/-- FFRC (R148). -/
def execFfrc (_tc : BitVec 2) (vd va : BitVec 7) (s : State) : Host.Outcome State Fault Refusal :=
  .next (lrUnit s (Use.one vd va) vd (fun o => fFrc o.a))

/-- CVT.F32.S32 (R149). -/
def execCvtF32S32 (_tc : BitVec 2) (vd va : BitVec 7) (s : State) : Host.Outcome State Fault Refusal :=
  .next (lrUnit s ((Use.one vd va).withX roundXmod) vd (fun o => rn o.mode (Fp.ofInt o.a.toInt)))

/-- CVT.S32.F32 (R70, R149). -/
def execCvtS32F32 (_tc : BitVec 2) (vd va : BitVec 7) (s : State) : Host.Outcome State Fault Refusal :=
  .next (lrUnit s (Use.one vd va) vd (fun o => cvtS32 o.a))

/-- CVT.F32.BF16: exact widening of the half that HI names (R149). -/
def execCvtF32Bf16 (_tc : BitVec 2) (vd va : BitVec 7) (s : State) : Host.Outcome State Fault Refusal :=
  .next (lrUnit s ((Use.one vd va).withX hiXmod) vd (fun o => rn .rne (bf16.decode (bfElem o.a (o.x % 2)))))

/-- CVT.BF16.F32 (R149). -/
def execCvtBf16F32 (_tc : BitVec 2) (vd va vb : BitVec 7) (s : State) : Host.Outcome State Fault Refusal :=
  .next (lrUnit s (Use.ab vd va vb) vd (fun o => bfPack (rnBf16 (f32 o.a)) (rnBf16 (f32 o.b))))

/-- CVT.E4M3.F32: byte k of vd (R150). -/
def execCvtE4m3F32 (_tc : BitVec 2) (vd va : BitVec 7) (s : State) : Host.Outcome State Fault Refusal :=
  .next (lrUnit s (((Use.one vd va).implicit vd).withX narrowXmod) vd (fun o => setByte o.d o.byte (rne8 e4m3 o.sat (f32 o.a))))

/-- CVT.F32.E4M3: byte k of va (R150). -/
def execCvtF32E4m3 (_tc : BitVec 2) (vd va : BitVec 7) (s : State) : Host.Outcome State Fault Refusal :=
  .next (lrUnit s ((Use.one vd va).withX widenXmod) vd (fun o => rn .rne (e4m3.decode (getByte o.a o.byte))))

/-- CVT.E5M2.F32: byte k of vd (R150). -/
def execCvtE5m2F32 (_tc : BitVec 2) (vd va : BitVec 7) (s : State) : Host.Outcome State Fault Refusal :=
  .next (lrUnit s (((Use.one vd va).implicit vd).withX narrowXmod) vd (fun o => setByte o.d o.byte (rne8 e5m2 o.sat (f32 o.a))))

/-- CVT.F32.E5M2: byte k of va (R150). -/
def execCvtF32E5m2 (_tc : BitVec 2) (vd va : BitVec 7) (s : State) : Host.Outcome State Fault Refusal :=
  .next (lrUnit s ((Use.one vd va).withX widenXmod) vd (fun o => rn .rne (e5m2.decode (getByte o.a o.byte))))

/-- SCACC: one rounding of va × vb + vd (R151). -/
def execScacc (_tc : BitVec 2) (vd va vb : BitVec 7) (s : State) : Host.Outcome State Fault Refusal :=
  .next (lrUnit s (((Use.ab vd va vb).implicit vd).withX roundXmod) vd (fun o => fFma o.mode o.a o.b o.d))

/-- SCACC.2: s ← RN(vb × vc), then RN(va × s + vd) (R151). -/
def execScacc2 (_tc : BitVec 2) (vd va vb : BitVec 7) (s : State) : Host.Outcome State Fault Refusal :=
  .next (lrUnit s ((((Use.ab vd va vb).withC).implicit vd).withX roundXmod) vd (fun o => fFma o.mode o.a (fMul o.mode o.b o.c) o.d))

/-- QNT8: byte k of vd from the exact product (R152). -/
def execQnt8 (_tc : BitVec 2) (vd va vb : BitVec 7) (s : State) : Host.Outcome State Fault Refusal :=
  .next (lrUnit s (((Use.ab vd va vb).implicit vd).withX anyXmod) vd (fun o => setByte o.d o.byte (quant8 o.mode ((f32 o.a).mul (f32 o.b)))))

/-- QNTE4: byte k of vd from the exact product (R152). -/
def execQnte4 (_tc : BitVec 2) (vd va vb : BitVec 7) (s : State) : Host.Outcome State Fault Refusal :=
  .next (lrUnit s (((Use.ab vd va vb).implicit vd).withX narrowXmod) vd (fun o => setByte o.d o.byte (rne8 e4m3 o.sat ((f32 o.a).mul (f32 o.b)))))

/-- DP4 (R153). -/
def execDp4 (_tc : BitVec 2) (vd va vb : BitVec 7) (s : State) : Host.Outcome State Fault Refusal :=
  .next (lrUnit s ((Use.ab vd va vb).implicit vd) vd (fun o => dp4 o.a o.b o.d))

/-- DP4U (R153). -/
def execDp4u (_tc : BitVec 2) (vd va vb : BitVec 7) (s : State) : Host.Outcome State Fault Refusal :=
  .next (lrUnit s ((Use.ab vd va vb).implicit vd) vd (fun o => dp4u o.a o.b o.d))

/-- DP2H (R153). -/
def execDp2h (_tc : BitVec 2) (vd va vb : BitVec 7) (s : State) : Host.Outcome State Fault Refusal :=
  .next (lrUnit s (((Use.ab vd va vb).implicit vd).withX roundXmod) vd (fun o => dp2h o.mode o.a o.b o.d))

/-- TRN.Q: the digit code at position xmod (R154). -/
def execTrnQ (_tc : BitVec 2) (vd va vb : BitVec 7) (s : State) : Host.Outcome State Fault Refusal :=
  .next (lrUnit s (((Use.ab vd va vb).implicit vd).withX anyXmod) vd (fun o => trnQ o.a o.b o.d o.x))

/-- TRN.PK (R155). -/
def execTrnPk (_tc : BitVec 2) (vd va : BitVec 7) (s : State) : Host.Outcome State Fault Refusal :=
  .next (lrUnit s (Use.one vd va) vd (fun o => trnPk o.a))

/-- TRN.UP: an illegal T5 byte traps with TVAL = va and writes nothing (R155). -/
def execTrnUp (_tc : BitVec 2) (vd va : BitVec 7) (s : State) : Host.Outcome State Fault Refusal :=
  .next (gated s (Use.one vd va) (fun u _ th =>
    let a := (th.reg va.toNat).val
    if trnUpIllegal a then .trap 5 (tvalWord a)
    else .run ((th.setReg vd.toNat (Reg.ofVal (trnUp a))).goto u.next)))

/-- TRN.DG: code 0b10 at position vb[3:0] traps with TVAL = va (R156). -/
def execTrnDg (_tc : BitVec 2) (vd va vb : BitVec 7) (s : State) : Host.Outcome State Fault Refusal :=
  .next (gated s (Use.ab vd va vb) (fun u k th =>
    let o := laneVals s (Use.ab vd va vb) u k th
    let c := codeAt o.a (o.b.toNat % 16)
    if c = 2 then .trap 5 (tvalWord o.a)
    else .run ((th.setReg vd.toNat (Reg.ofVal (BitVec.ofInt 32 (codeDigit c)))).goto u.next)))

/-- TRN.CHK4 (R157). -/
def execTrnChk4 (_tc : BitVec 2) (vd va : BitVec 7) (s : State) : Host.Outcome State Fault Refusal :=
  .next (lrUnit s (Use.one vd va) vd (fun o => byteTest o.a (fun b => decide (242 < b))))

/-- TRN.Z4 (R157). -/
def execTrnZ4 (_tc : BitVec 2) (vd va : BitVec 7) (s : State) : Host.Outcome State Fault Refusal :=
  .next (lrUnit s (Use.one vd va) vd (fun o => byteTest o.a (fun b => b == 121)))

end Sys2Proof.Machine
end

