-- ==== Sys2Proof/Machine/Power.lean ====
section
/-! DEFINITION. Power-on reset and secure boot (R346), the power policy (R340), the security alarm (R348),
attestation (R347), PMBus (R341) and the IEEE 1149.1 port (R349). -/

namespace Sys2Proof.Machine

/-! ### Power-on reset (R25, R346 to R348) -/

/-- A SHA-512 digest as its bytes, first byte highest. -/
def digestBytes (d : BitVec 512) : List Byte := (leBytes d.toNat 64).reverse

/-- An image verifies (R346): its header holds its digest, its key is the fused one, the signature covers the digest and
the version, and the version is not below the rollback counter. -/
def Sec.verifies (x : Sec) (i : BootImage) : Bool :=
  i.digest == Config.sha512 i.image && Config.sha512 i.key == x.keyHash &&
  Config.ecdsaValid i.key (digestBytes i.digest ++ leBytes i.version.toNat 4) i.signature &&
  decide (x.rollback.toNat ≤ i.version.toNat)

/-- Stages of boot: boot ROM, Parlour firmware and runner images (R346). -/
def bootStages : Nat := 3

/-- The stage whose verification fails first, counted from 1; 0 when none does (R346). -/
def Sec.failedStage (x : Sec) (stages : List BootImage) : Nat :=
  match (natRange 0 bootStages).find? (fun i => !(stages[i]?).any x.verifies) with
  | some i => i + 1
  | none => 0

/-- What survives a power-on reset: fuses, straps, and the identity key or its erasure (R346 to R348); the
strap and what secure boot finds are new. The first good boot generates the key, unless it was erased. -/
def Sec.powerOn (x : Sec) (strap : Bool) (stages : List BootImage) (newKey : Nat) : Sec :=
  { Sec.reset with
    bridge := strap
    keyerase := x.keyerase
    fuseDbg := x.fuseDbg
    rollback := x.rollback
    keyHash := x.keyHash
    pmStrap := x.pmStrap
    erased := x.erased
    key := if x.erased then none
      else if x.key.isNone && x.failedStage stages == 0 then some newKey
      else x.key
    boot := x.failedStage stages
    digests := (stages.take bootStages).map (fun i => Config.sha512 i.image) }

/-- POWER_ON_RESET (R346): everything else is as after reset. -/
def execPowerOnReset (strap : Bool) (stages : List BootImage) (s : State) : Host.Outcome State Fault Refusal :=
  .next { State.reset with
    sec := s.sec.powerOn strap stages s.choice, freeCtr := s.freeCtr + 1, turns := s.turns }

/-! ### The security alarm (R348) -/

/-- The Hall cycle under way ends (R280). -/
def State.endHallCycle (s : State) : State := if s.tree.pushing then s.closeCycle else s

/-- What an alarm does at the end of its Hall cycle (R348): the key is erased, or the device locks and its links go
down. -/
def State.alarmed (s : State) (source : BitVec 2) : State :=
  if s.sec.keyerase then
    s.modSec (fun x => { x with src := source, key := none, erased := true, attAlarm := x.attBusy })
  else
    (natRange 0 18).foldl (fun s n => s.modPort n (fun p => { p with up := false }))
      (s.modSec (fun x => { x with src := source, locked := true, attAlarm := x.attBusy }))

/-- The security alarm acts at the end of the Hall cycle; later alarms change nothing (R348). -/
def State.alarm (s : State) (source : BitVec 2) : State :=
  if source = 0 ∨ s.sec.src ≠ 0 then s else s.endHallCycle.alarmed source

/-- SECURITY_ALARM (R348). -/
def execSecurityAlarm (source : BitVec 2) (s : State) : Host.Outcome State Fault Refusal :=
  .next (s.alarm source)

/-! ### The power policy (R340) -/

/-- The throttle step after a window (R340). -/
def nextThrottle (step avg limit : Nat) : Nat :=
  if limit < avg then Nat.min 3 (step + 1)
  else if 10 * avg < 9 * limit then step - 1
  else step

/-- GRANT at a throttle step (R340). -/
def throttleGrant (step : Nat) : Nat := if step = 0 then 64 else 96 / 2 ^ step

/-- The temperature that raises the alarm, in °C (R340). -/
def alarmTemp : Nat := 105

/-- The Parlour writes CORE.RDGRANT of every core (R7, R340). -/
def State.writeGrants (s : State) (grant : Nat) : State :=
  (natRange 0 384).foldl (fun s c =>
    (s.discard reqParlour (0x2000000 + 0x4000 * c + 0x040)).modCore c (fun x => { x with grant := grant })) s

/-- POWER_WINDOW (R340). -/
def execPowerWindow (avg temp : Nat) (s : State) : Host.Outcome State Fault Refusal :=
  .next (
    let step := nextThrottle s.sec.step avg s.sec.pwrlim
    let s1 := s.modSec (fun x => { x with avg := Nat.min 2047 avg, temp := Nat.min 255 temp, step := step })
    let s2 := if step = s.sec.step then s1
      else s1.writeGrants (throttleGrant step)
    if alarmTemp ≤ temp then s2.alarm 3 else s2)

/-! ### Attestation (R347) -/

/-- The report without its signature (R347): the nonce, HALL.ID, DEVNUM, the digests of the stages and the
rollback counter. -/
def State.reportBody (s : State) : List Byte :=
  s.homeBytes s.sec.attaddr 64 ++ leBytes (s.regValue .id) 4 ++ leBytes (s.regValue .devnum) 4 ++
  s.sec.digests.flatMap digestBytes ++ leBytes s.sec.rollback.toNat 4

/-- ATTESTATION_DONE: the report is written after the nonce; without the key, or after an alarm, it carries
no signature and ERR is set (R347, R348). The random number that a signature takes comes with the event. -/
def execAttestationDone (rand : Nat) (s : State) : Host.Outcome State Fault Refusal :=
  .next (
    if !s.sec.attBusy then s
    else
      let signature := match s.sec.key with
        | some k => if s.sec.attAlarm then none else some (Config.ecdsaSign k s.reportBody rand)
        | none => none
      (s.drawn.homeWrite (s.sec.attaddr + 64) (s.reportBody ++ signature.getD [])).modSec (fun x =>
        { x with attBusy := false, attErr := signature.isNone, attAlarm := false }))

/-! ### PMBus (R341) -/

/-- The device's PMBus address (R341). -/
def State.pmAddr (s : State) : BitVec 7 := BitVec.ofNat 7 (0x40 + s.sec.pmStrap)

/-- A value given in thousandths, in units of 2^(k − 16), rounded to the nearest. -/
def scaled (milli : Int) (k : Nat) : Int := (2 * milli * 65536 + 1000 * 2 ^ k) / (2000 * 2 ^ k)

/-- LINEAR11 (R341): a signed 11-bit mantissa and a signed 5-bit exponent, the smallest that the mantissa
allows. -/
def linear11 (milli : Int) : BitVec 16 :=
  match (natRange 0 32).find? (fun k => decide (-1024 ≤ scaled milli k) && decide (scaled milli k ≤ 1023)) with
  | some k => BitVec.ofInt 5 (k - 16) ++ BitVec.ofInt 11 (scaled milli k)
  | none => BitVec.ofInt 5 15 ++ BitVec.ofInt 11 (if milli < 0 then -1024 else 1023)

/-- A PMBus read: an answer at the device's own address, a NACK at another. -/
def State.pmAnswer (s : State) (addr : BitVec 7) (v : BitVec 16) : State :=
  s.modSec (fun x => { x with pmOut := if addr = s.pmAddr then some v else none })

/-- READ_POUT (R341). -/
def execReadPout (addr : BitVec 7) (milliwatts : Int) (s : State) : Host.Outcome State Fault Refusal :=
  .next (s.pmAnswer addr (linear11 milliwatts))

/-- READ_TEMPERATURE_1 (R341). -/
def execReadTemperature1 (addr : BitVec 7) (millidegrees : Int) (s : State) :
    Host.Outcome State Fault Refusal :=
  .next (s.pmAnswer addr (linear11 millidegrees))

/-- READ_VIN (R341). -/
def execReadVin (addr : BitVec 7) (millivolts : Int) (s : State) : Host.Outcome State Fault Refusal :=
  .next (s.pmAnswer addr (linear11 millivolts))

/-- READ_IOUT (R341). -/
def execReadIout (addr : BitVec 7) (milliamps : Int) (s : State) : Host.Outcome State Fault Refusal :=
  .next (s.pmAnswer addr (linear11 milliamps))

/-- The command codes that the slave supports for a read, or for a write (R341); those of the four measurements are
PMBus's own (assumption 119). -/
def pmSupports (write : Bool) (cmd : BitVec 8) : Bool :=
  cmd == 0xD0 || (!write && (cmd == 0x88 || cmd == 0x8C || cmd == 0x8D || cmd == 0x96))

/-- A command that is not supported is NACKed (R341). -/
def State.pmNack (s : State) : State := s.modSec (fun x => { x with pmOut := none })

/-- Command 0xD0, read; a command that is not supported is NACKed, and the measurements have rows of their own (R341). -/
def execPmbusLimitRead (c : PmbusCommand) (s : State) : Host.Outcome State Fault Refusal :=
  .next (
    if !pmSupports false c.cmd then s.pmNack
    else if c.cmd = 0xD0 then s.pmAnswer c.addr (BitVec.ofNat 16 s.sec.pwrlim)
    else s)

/-- Command 0xD0, written; any other is NACKed (R339, R341). -/
def execPmbusLimitWrite (c : PmbusCommand) (val : BitVec 16) (s : State) :
    Host.Outcome State Fault Refusal :=
  .next (if !pmSupports true c.cmd || c.addr != s.pmAddr then s.pmNack else s.writeLimit val.toNat)

/-! ### The IEEE 1149.1 port (R349) -/

/-- The identification code (R349). -/
def idcodeWord : Word32 := 0x009600F3

/-- IDCODE: its bits leave lowest first. -/
def execIdcode (s : State) : Host.Outcome State Fault Refusal :=
  .next (s.modSec (fun x => { x with jtag := (natRange 0 32).map (fun i => idcodeWord.getLsbD i) }))

/-- BYPASS: one stage between the port's input and its output. -/
def execBypass (bits : List Bool) (s : State) : Host.Outcome State Fault Refusal :=
  .next (s.modSec (fun x => { x with jtag := (false :: bits).take bits.length }))

/-- BOUNDARY_SCAN: the pins leave as they stand. -/
def execBoundaryScan (pins : List Bool) (s : State) : Host.Outcome State Fault Refusal :=
  .next (s.modSec (fun x => { x with jtag := pins }))

end Sys2Proof.Machine
end

