-- ==== Sys2Proof/Machine/Dispatch.lean ====
section
/-! DEFINITION. What each instruction and event does: one arm for every row of the opcode table. -/

namespace Sys2Proof.Machine

/-- The effect of an instruction or event on the machine (R2). -/
def exec (i : Instr) (s : State) : Host.Outcome State Fault Refusal :=
  match i with
  | .mod vc tea teb tec us sidx xmod => Sys2Proof.Machine.execMod vc tea teb tec us sidx xmod s
  | .limm imm => Sys2Proof.Machine.execLimm imm s
  | .add tc vd va vb => Sys2Proof.Machine.execAdd tc vd va vb s
  | .sub tc vd va vb => Sys2Proof.Machine.execSub tc vd va vb s
  | .min tc vd va vb => Sys2Proof.Machine.execMin tc vd va vb s
  | .max tc vd va vb => Sys2Proof.Machine.execMax tc vd va vb s
  | .minu tc vd va vb => Sys2Proof.Machine.execMinu tc vd va vb s
  | .maxu tc vd va vb => Sys2Proof.Machine.execMaxu tc vd va vb s
  | .absd tc vd va vb => Sys2Proof.Machine.execAbsd tc vd va vb s
  | .addsat tc vd va vb => Sys2Proof.Machine.execAddsat tc vd va vb s
  | .and tc vd va vb => Sys2Proof.Machine.execAnd tc vd va vb s
  | .or tc vd va vb => Sys2Proof.Machine.execOr tc vd va vb s
  | .xor tc vd va vb => Sys2Proof.Machine.execXor tc vd va vb s
  | .andn tc vd va vb => Sys2Proof.Machine.execAndn tc vd va vb s
  | .shl tc vd va vb => Sys2Proof.Machine.execShl tc vd va vb s
  | .shr tc vd va vb => Sys2Proof.Machine.execShr tc vd va vb s
  | .sar tc vd va vb => Sys2Proof.Machine.execSar tc vd va vb s
  | .ror tc vd va vb => Sys2Proof.Machine.execRor tc vd va vb s
  | .mul tc vd va vb => Sys2Proof.Machine.execMul tc vd va vb s
  | .mulhi tc vd va vb => Sys2Proof.Machine.execMulhi tc vd va vb s
  | .mulhiu tc vd va vb => Sys2Proof.Machine.execMulhiu tc vd va vb s
  | .mad tc vd va vb => Sys2Proof.Machine.execMad tc vd va vb s
  | .div tc vd va vb => Sys2Proof.Machine.execDiv tc vd va vb s
  | .divu tc vd va vb => Sys2Proof.Machine.execDivu tc vd va vb s
  | .rem tc vd va vb => Sys2Proof.Machine.execRem tc vd va vb s
  | .remu tc vd va vb => Sys2Proof.Machine.execRemu tc vd va vb s
  | .seq tc vd va vb => Sys2Proof.Machine.execSeq tc vd va vb s
  | .sne tc vd va vb => Sys2Proof.Machine.execSne tc vd va vb s
  | .slt tc vd va vb => Sys2Proof.Machine.execSlt tc vd va vb s
  | .sltu tc vd va vb => Sys2Proof.Machine.execSltu tc vd va vb s
  | .sel tc vd va vb => Sys2Proof.Machine.execSel tc vd va vb s
  | .clz tc vd va => Sys2Proof.Machine.execClz tc vd va s
  | .popc tc vd va => Sys2Proof.Machine.execPopc tc vd va s
  | .brev tc vd va => Sys2Proof.Machine.execBrev tc vd va s
  | .addi tc vd va imm => Sys2Proof.Machine.execAddi tc vd va imm s
  | .shli tc vd va n => Sys2Proof.Machine.execShli tc vd va n s
  | .shri tc vd va n => Sys2Proof.Machine.execShri tc vd va n s
  | .sari tc vd va n => Sys2Proof.Machine.execSari tc vd va n s
  | .rori tc vd va n => Sys2Proof.Machine.execRori tc vd va n s
  | .bfx tc vd va vb => Sys2Proof.Machine.execBfx tc vd va vb s
  | .bfxu tc vd va vb => Sys2Proof.Machine.execBfxu tc vd va vb s
  | .bfi tc vd va vb => Sys2Proof.Machine.execBfi tc vd va vb s
  | .prmb tc vd va vb => Sys2Proof.Machine.execPrmb tc vd va vb s
  | .movi tc vd imm => Sys2Proof.Machine.execMovi tc vd imm s
  | .movs tc vd sb => Sys2Proof.Machine.execMovs tc vd sb s
  | .hget tc vd h => Sys2Proof.Machine.execHget tc vd h s
  | .htake tc vd h => Sys2Proof.Machine.execHtake tc vd h s
  | .hput tc vs h => Sys2Proof.Machine.execHput tc vs h s
  | .rdls tc vd n => Sys2Proof.Machine.execRdls tc vd n s
  | .xlnIdx tc vd va vb => Sys2Proof.Machine.execXlnIdx tc vd va vb s
  | .xlnXor tc vd va vb => Sys2Proof.Machine.execXlnXor tc vd va vb s
  | .xlnUp tc vd va vb => Sys2Proof.Machine.execXlnUp tc vd va vb s
  | .xlnDn tc vd va vb => Sys2Proof.Machine.execXlnDn tc vd va vb s
  | .voteAny tc vd va => Sys2Proof.Machine.execVoteAny tc vd va s
  | .voteAll tc vd va => Sys2Proof.Machine.execVoteAll tc vd va s
  | .voteBal tc vd va => Sys2Proof.Machine.execVoteBal tc vd va s
  | .xred tc vd va => Sys2Proof.Machine.execXred tc vd va s
  | .fadd tc vd va vb => Sys2Proof.Machine.execFadd tc vd va vb s
  | .fsub tc vd va vb => Sys2Proof.Machine.execFsub tc vd va vb s
  | .fmul tc vd va vb => Sys2Proof.Machine.execFmul tc vd va vb s
  | .fmin tc vd va vb => Sys2Proof.Machine.execFmin tc vd va vb s
  | .fmax tc vd va vb => Sys2Proof.Machine.execFmax tc vd va vb s
  | .ffma tc vd va vb => Sys2Proof.Machine.execFfma tc vd va vb s
  | .fseq tc vd va vb => Sys2Proof.Machine.execFseq tc vd va vb s
  | .fslt tc vd va vb => Sys2Proof.Machine.execFslt tc vd va vb s
  | .fsle tc vd va vb => Sys2Proof.Machine.execFsle tc vd va vb s
  | .fsun tc vd va vb => Sys2Proof.Machine.execFsun tc vd va vb s
  | .hadd2 tc vd va vb => Sys2Proof.Machine.execHadd2 tc vd va vb s
  | .hmul2 tc vd va vb => Sys2Proof.Machine.execHmul2 tc vd va vb s
  | .hfma2 tc vd va vb => Sys2Proof.Machine.execHfma2 tc vd va vb s
  | .hmax2 tc vd va vb => Sys2Proof.Machine.execHmax2 tc vd va vb s
  | .frcp tc vd va => Sys2Proof.Machine.execFrcp tc vd va s
  | .frsq tc vd va => Sys2Proof.Machine.execFrsq tc vd va s
  | .fex2 tc vd va => Sys2Proof.Machine.execFex2 tc vd va s
  | .flg2 tc vd va => Sys2Proof.Machine.execFlg2 tc vd va s
  | .fdiv tc vd va vb => Sys2Proof.Machine.execFdiv tc vd va vb s
  | .fsqrt tc vd va => Sys2Proof.Machine.execFsqrt tc vd va s
  | .fscl tc vd va vb => Sys2Proof.Machine.execFscl tc vd va vb s
  | .ffrc tc vd va => Sys2Proof.Machine.execFfrc tc vd va s
  | .cvtF32S32 tc vd va => Sys2Proof.Machine.execCvtF32S32 tc vd va s
  | .cvtS32F32 tc vd va => Sys2Proof.Machine.execCvtS32F32 tc vd va s
  | .cvtF32Bf16 tc vd va => Sys2Proof.Machine.execCvtF32Bf16 tc vd va s
  | .cvtBf16F32 tc vd va vb => Sys2Proof.Machine.execCvtBf16F32 tc vd va vb s
  | .cvtE4m3F32 tc vd va => Sys2Proof.Machine.execCvtE4m3F32 tc vd va s
  | .cvtF32E4m3 tc vd va => Sys2Proof.Machine.execCvtF32E4m3 tc vd va s
  | .cvtE5m2F32 tc vd va => Sys2Proof.Machine.execCvtE5m2F32 tc vd va s
  | .cvtF32E5m2 tc vd va => Sys2Proof.Machine.execCvtF32E5m2 tc vd va s
  | .scacc tc vd va vb => Sys2Proof.Machine.execScacc tc vd va vb s
  | .scacc2 tc vd va vb => Sys2Proof.Machine.execScacc2 tc vd va vb s
  | .qnt8 tc vd va vb => Sys2Proof.Machine.execQnt8 tc vd va vb s
  | .qnte4 tc vd va vb => Sys2Proof.Machine.execQnte4 tc vd va vb s
  | .dp4 tc vd va vb => Sys2Proof.Machine.execDp4 tc vd va vb s
  | .dp4u tc vd va vb => Sys2Proof.Machine.execDp4u tc vd va vb s
  | .dp2h tc vd va vb => Sys2Proof.Machine.execDp2h tc vd va vb s
  | .trnQ tc vd va vb => Sys2Proof.Machine.execTrnQ tc vd va vb s
  | .trnPk tc vd va => Sys2Proof.Machine.execTrnPk tc vd va s
  | .trnUp tc vd va => Sys2Proof.Machine.execTrnUp tc vd va s
  | .trnDg tc vd va vb => Sys2Proof.Machine.execTrnDg tc vd va vb s
  | .trnChk4 tc vd va => Sys2Proof.Machine.execTrnChk4 tc vd va s
  | .trnZ4 tc vd va => Sys2Proof.Machine.execTrnZ4 tc vd va s
  | .ldU8 tc vt va ord scope off4 => Sys2Proof.Machine.execLdU8 tc vt va ord scope off4 s
  | .ldS8 tc vt va ord scope off4 => Sys2Proof.Machine.execLdS8 tc vt va ord scope off4 s
  | .ldU16 tc vt va ord scope off4 => Sys2Proof.Machine.execLdU16 tc vt va ord scope off4 s
  | .ldS16 tc vt va ord scope off4 => Sys2Proof.Machine.execLdS16 tc vt va ord scope off4 s
  | .ldB32 tc vt va ord scope off4 => Sys2Proof.Machine.execLdB32 tc vt va ord scope off4 s
  | .ldB64 tc vt va ord scope off4 => Sys2Proof.Machine.execLdB64 tc vt va ord scope off4 s
  | .ldB128 tc vt va ord scope off4 => Sys2Proof.Machine.execLdB128 tc vt va ord scope off4 s
  | .stB8 tc vt va ord scope off4 => Sys2Proof.Machine.execStB8 tc vt va ord scope off4 s
  | .stB16 tc vt va ord scope off4 => Sys2Proof.Machine.execStB16 tc vt va ord scope off4 s
  | .stB32 tc vt va ord scope off4 => Sys2Proof.Machine.execStB32 tc vt va ord scope off4 s
  | .stB64 tc vt va ord scope off4 => Sys2Proof.Machine.execStB64 tc vt va ord scope off4 s
  | .stB128 tc vt va ord scope off4 => Sys2Proof.Machine.execStB128 tc vt va ord scope off4 s
  | .atom32 tc vd va op scope ord => Sys2Proof.Machine.execAtom32 tc vd va op scope ord s
  | .atom64 tc vd va op scope ord => Sys2Proof.Machine.execAtom64 tc vd va op scope ord s
  | .red tc vd va op scope ord => Sys2Proof.Machine.execRed tc vd va op scope ord s
  | .fence tc kind scope => Sys2Proof.Machine.execFence tc kind scope s
  | .ldrowNear tc va vb => Sys2Proof.Machine.execLdrowNear tc va vb s
  | .ldrowHome tc va vb => Sys2Proof.Machine.execLdrowHome tc va vb s
  | .strow tc va vb => Sys2Proof.Machine.execStrow tc va vb s
  | .raddBf16 tc va vb => Sys2Proof.Machine.execRaddBf16 tc va vb s
  | .raddF32 tc va vb => Sys2Proof.Machine.execRaddF32 tc va vb s
  | .rmaxBf16 tc va vb => Sys2Proof.Machine.execRmaxBf16 tc va vb s
  | .prf tc va => Sys2Proof.Machine.execPrf tc va s
  | .wbl tc va => Sys2Proof.Machine.execWbl tc va s
  | .invl tc va => Sys2Proof.Machine.execInvl tc va s
  | .brEqz tc va off => Sys2Proof.Machine.execBrEqz tc va off s
  | .brNez tc va off => Sys2Proof.Machine.execBrNez tc va off s
  | .brLtz tc va off => Sys2Proof.Machine.execBrLtz tc va off s
  | .brGez tc va off => Sys2Proof.Machine.execBrGez tc va off s
  | .brGtz tc va off => Sys2Proof.Machine.execBrGtz tc va off s
  | .brLez tc va off => Sys2Proof.Machine.execBrLez tc va off s
  | .brAlw tc off => Sys2Proof.Machine.execBrAlw tc off s
  | .call tc vd off => Sys2Proof.Machine.execCall tc vd off s
  | .jmpr tc va => Sys2Proof.Machine.execJmpr tc va s
  | .callr tc vd va => Sys2Proof.Machine.execCallr tc vd va s
  | .ret tc va => Sys2Proof.Machine.execRet tc va s
  | .barArv tc n => Sys2Proof.Machine.execBarArv tc n s
  | .barWt tc n => Sys2Proof.Machine.execBarWt tc n s
  | .barSync tc n => Sys2Proof.Machine.execBarSync tc n s
  | .barArvc tc va n => Sys2Proof.Machine.execBarArvc tc va n s
  | .nop tc => Sys2Proof.Machine.execNop tc s
  | .barg tc => Sys2Proof.Machine.execBarg tc s
  | .exit tc => Sys2Proof.Machine.execExit tc s
  | .yield tc => Sys2Proof.Machine.execYield tc s
  | .trap tc code => Sys2Proof.Machine.execTrap tc code s
  | .rett tc => Sys2Proof.Machine.execRett tc s
  | .brk tc code => Sys2Proof.Machine.execBrk tc code s
  | .ill tc => Sys2Proof.Machine.execIll tc s
  | .rdts tc vd x => Sys2Proof.Machine.execRdts tc vd x s
  | .wrts tc vs x => Sys2Proof.Machine.execWrts tc vs x s
  | .uadd tc sd sa sb => Sys2Proof.Machine.execUadd tc sd sa sb s
  | .usub tc sd sa sb => Sys2Proof.Machine.execUsub tc sd sa sb s
  | .uand tc sd sa sb => Sys2Proof.Machine.execUand tc sd sa sb s
  | .uor tc sd sa sb => Sys2Proof.Machine.execUor tc sd sa sb s
  | .uxor tc sd sa sb => Sys2Proof.Machine.execUxor tc sd sa sb s
  | .umul tc sd sa sb => Sys2Proof.Machine.execUmul tc sd sa sb s
  | .umin tc sd sa sb => Sys2Proof.Machine.execUmin tc sd sa sb s
  | .umax tc sd sa sb => Sys2Proof.Machine.execUmax tc sd sa sb s
  | .uaddi tc sd sa imm => Sys2Proof.Machine.execUaddi tc sd sa imm s
  | .ushi tc sd sa kind n => Sys2Proof.Machine.execUshi tc sd sa kind n s
  | .umovi tc sd imm => Sys2Proof.Machine.execUmovi tc sd imm s
  | .umovh tc sd imm => Sys2Proof.Machine.execUmovh tc sd imm s
  | .ucmp tc q cc sa sb => Sys2Proof.Machine.execUcmp tc q cc sa sb s
  | .ubr tc cond q off => Sys2Proof.Machine.execUbr tc cond q off s
  | .urdsr tc sd n => Sys2Proof.Machine.execUrdsr tc sd n s
  | .uwrsr tc sa n => Sys2Proof.Machine.execUwrsr tc sa n s
  | .hpois tc sa => Sys2Proof.Machine.execHpois tc sa s
  | .fattach tc sa => Sys2Proof.Machine.execFattach tc sa s
  | .fdetach tc sa => Sys2Proof.Machine.execFdetach tc sa s
  | .uhput tc sa h => Sys2Proof.Machine.execUhput tc sa h s
  | .uhget tc sd h => Sys2Proof.Machine.execUhget tc sd h s
  | .uhtake tc sd h => Sys2Proof.Machine.execUhtake tc sd h s
  | .unop tc => Sys2Proof.Machine.execUnop tc s
  | .uyield tc => Sys2Proof.Machine.execUyield tc s
  | .uld32 tc sd p ord scope => Sys2Proof.Machine.execUld32 tc sd p ord scope s
  | .uld64 tc sd p ord scope => Sys2Proof.Machine.execUld64 tc sd p ord scope s
  | .ust32 tc sa p ord scope => Sys2Proof.Machine.execUst32 tc sa p ord scope s
  | .ust64 tc sa p ord scope => Sys2Proof.Machine.execUst64 tc sa p ord scope s
  | .pan tc sp sr => Sys2Proof.Machine.execPan tc sp sr s
  | .grn tc sp sr => Sys2Proof.Machine.execGrn tc sp sr s
  | .cpy tc sp sr => Sys2Proof.Machine.execCpy tc sp sr s
  | .gatNear tc sp sr => Sys2Proof.Machine.execGatNear tc sp sr s
  | .gatHome tc sp sr => Sys2Proof.Machine.execGatHome tc sp sr s
  | .sct tc sp sr => Sys2Proof.Machine.execSct tc sp sr s
  | .fab tc sp sr => Sys2Proof.Machine.execFab tc sp sr s
  | .waitc tc cls k => Sys2Proof.Machine.execWaitc tc cls k s
  | .lnchSucc tc sa slot => Sys2Proof.Machine.execLnchSucc tc sa slot s
  | .lnchLmode tc sa mode => Sys2Proof.Machine.execLnchLmode tc sa mode s
  | .lnchCancel tc sa level => Sys2Proof.Machine.execLnchCancel tc sa level s
  | .balloc tc sd n => Sys2Proof.Machine.execBalloc tc sd n s
  | .bfree tc n => Sys2Proof.Machine.execBfree tc n s
  | .binitAll tc n => Sys2Proof.Machine.execBinitAll tc n s
  | .binitCount tc sa n => Sys2Proof.Machine.execBinitCount tc sa n s
  | .utrap tc code => Sys2Proof.Machine.execUtrap tc code s
  | .upark tc sa code => Sys2Proof.Machine.execUpark tc sa code s
  | .registerWrite req off size val => Sys2Proof.Machine.execRegisterWrite req off size val s
  | .launchPacketRead src => Sys2Proof.Machine.execLaunchPacketRead src s
  | .launchPop => Sys2Proof.Machine.execLaunchPop s
  | .blockExpansion slot => Sys2Proof.Machine.execBlockExpansion slot s
  | .innerSluiceMove sluice => Sys2Proof.Machine.execInnerSluiceMove sluice s
  | .engineItemPush cluster => Sys2Proof.Machine.execEngineItemPush cluster s
  | .coreLeafPop cluster => Sys2Proof.Machine.execCoreLeafPop cluster s
  | .panPop cluster => Sys2Proof.Machine.execPanPop cluster s
  | .panStep cluster => Sys2Proof.Machine.execPanStep cluster s
  | .grainerPop cluster => Sys2Proof.Machine.execGrainerPop cluster s
  | .grainerStep cluster => Sys2Proof.Machine.execGrainerStep cluster s
  | .copyLeafPop cluster => Sys2Proof.Machine.execCopyLeafPop cluster s
  | .segmenterRead group => Sys2Proof.Machine.execSegmenterRead group s
  | .copySegmentComplete cluster => Sys2Proof.Machine.execCopySegmentComplete cluster s
  | .engineOpComplete op => Sys2Proof.Machine.execEngineOpComplete op s
  | .successorRelease launch => Sys2Proof.Machine.execSuccessorRelease launch s
  | .loadComplete id => Sys2Proof.Machine.execLoadComplete id s
  | .atomicComplete id => Sys2Proof.Machine.execAtomicComplete id s
  | .redComplete id => Sys2Proof.Machine.execRedComplete id s
  | .rowReadComplete id => Sys2Proof.Machine.execRowReadComplete id s
  | .rowWriteApply id => Sys2Proof.Machine.execRowWriteApply id s
  | .sectorFill id => Sys2Proof.Machine.execSectorFill id s
  | .hatchReadComplete id => Sys2Proof.Machine.execHatchReadComplete id s
  | .lremReadComplete id => Sys2Proof.Machine.execLremReadComplete id s
  | .lmodeComplete id => Sys2Proof.Machine.execLmodeComplete id s
  | .translationFault index => Sys2Proof.Machine.execTranslationFault index s
  | .registerRead req off size => Sys2Proof.Machine.execRegisterRead req off size s
  | .coreCycle core => Sys2Proof.Machine.execCoreCycle core s
  | .storePerformed id => Sys2Proof.Machine.execStorePerformed id s
  | .powerOnReset strap stages => Sys2Proof.Machine.execPowerOnReset strap stages s
  | .hostRegisterWrite off size val => Sys2Proof.Machine.execHostRegisterWrite off size val s
  | .devnumWrite val => Sys2Proof.Machine.execDevnumWrite val s
  | .classpolWrite core val => Sys2Proof.Machine.execClasspolWrite core val s
  | .lmodeRegisterWrite cluster reg val => Sys2Proof.Machine.execLmodeRegisterWrite cluster reg val s
  | .stagingRegionWrite cluster grainer val => Sys2Proof.Machine.execStagingRegionWrite cluster grainer val s
  | .panReset cluster => Sys2Proof.Machine.execPanReset cluster s
  | .grainerReset cluster => Sys2Proof.Machine.execGrainerReset cluster s
  | .engineWatchdog cluster grainer => Sys2Proof.Machine.execEngineWatchdog cluster grainer s
  | .engineResetEnd cluster grainer => Sys2Proof.Machine.execEngineResetEnd cluster grainer s
  | .sluiceEnable sluice val => Sys2Proof.Machine.execSluiceEnable sluice val s
  | .sluiceDisable sluice val => Sys2Proof.Machine.execSluiceDisable sluice val s
  | .leafProgWrite leaf val => Sys2Proof.Machine.execLeafProgWrite leaf val s
  | .progStoreWrite slot word val => Sys2Proof.Machine.execProgStoreWrite slot word val s
  | .ndataWrite val => Sys2Proof.Machine.execNdataWrite val s
  | .rowEntryValidate tenant entry val => Sys2Proof.Machine.execRowEntryValidate tenant entry val s
  | .rowEntryDeregister tenant entry => Sys2Proof.Machine.execRowEntryDeregister tenant entry s
  | .fqansResume tenant tag => Sys2Proof.Machine.execFqansResume tenant tag s
  | .fqansAbort tenant tag => Sys2Proof.Machine.execFqansAbort tenant tag s
  | .fqconsWrite tenant val => Sys2Proof.Machine.execFqconsWrite tenant val s
  | .tenantReset tenant => Sys2Proof.Machine.execTenantReset tenant s
  | .tenantResetDone tenant => Sys2Proof.Machine.execTenantResetDone tenant s
  | .tlbiPage tenant => Sys2Proof.Machine.execTlbiPage tenant s
  | .tlbiStage1 tenant => Sys2Proof.Machine.execTlbiStage1 tenant s
  | .tlbiAll tenant => Sys2Proof.Machine.execTlbiAll tenant s
  | .tlbInvalidationDone tenant => Sys2Proof.Machine.execTlbInvalidationDone tenant s
  | .irtUnmask source => Sys2Proof.Machine.execIrtUnmask source s
  | .attestation => Sys2Proof.Machine.execAttestation s
  | .attestationDone rand => Sys2Proof.Machine.execAttestationDone rand s
  | .debugRun core => Sys2Proof.Machine.execDebugRun core s
  | .powerWindow avg temp => Sys2Proof.Machine.execPowerWindow avg temp s
  | .securityAlarm source => Sys2Proof.Machine.execSecurityAlarm source s
  | .readPout addr milliwatts => Sys2Proof.Machine.execReadPout addr milliwatts s
  | .readTemperature1 addr millidegrees => Sys2Proof.Machine.execReadTemperature1 addr millidegrees s
  | .readVin addr millivolts => Sys2Proof.Machine.execReadVin addr millivolts s
  | .readIout addr milliamps => Sys2Proof.Machine.execReadIout addr milliamps s
  | .pmbusLimitRead c => Sys2Proof.Machine.execPmbusLimitRead c s
  | .pmbusLimitWrite c val => Sys2Proof.Machine.execPmbusLimitWrite c val s
  | .idcode => Sys2Proof.Machine.execIdcode s
  | .bypass bits => Sys2Proof.Machine.execBypass bits s
  | .boundaryScan pins => Sys2Proof.Machine.execBoundaryScan pins s
  | .runnerRestart runner => Sys2Proof.Machine.execRunnerRestart runner s
  | .aqiLaunch w => Sys2Proof.Machine.execAqiLaunch w s
  | .aqiCancel w => Sys2Proof.Machine.execAqiCancel w s
  | .aqiCopy w => Sys2Proof.Machine.execAqiCopy w s
  | .aqiRowreg w => Sys2Proof.Machine.execAqiRowreg w s
  | .aqiRowdereg w => Sys2Proof.Machine.execAqiRowdereg w s
  | .aqiFqanswer w => Sys2Proof.Machine.execAqiFqanswer w s
  | .aqiFqcons w => Sys2Proof.Machine.execAqiFqcons w s
  | .hostTransferPop => Sys2Proof.Machine.execHostTransferPop s
  | .flitReceive port flit => Sys2Proof.Machine.execFlitReceive port flit s
  | .flitNak port ackseq uncorrectable => Sys2Proof.Machine.execFlitNak port ackseq uncorrectable s
  | .tombstoneReceive port flit => Sys2Proof.Machine.execTombstoneReceive port flit s
  | .fabricPacketReceive p => Sys2Proof.Machine.execFabricPacketReceive p s
  | .getResponseReceive route num data => Sys2Proof.Machine.execGetResponseReceive route num data s
  | .e2eAckReceive route num status => Sys2Proof.Machine.execE2eAckReceive route num status s
  | .e2eRetryRequest route num => Sys2Proof.Machine.execE2eRetryRequest route num s
  | .e2eTimeout device num => Sys2Proof.Machine.execE2eTimeout device num s
  | .fabricPortPop port => Sys2Proof.Machine.execFabricPortPop port s
  | .replicatedLaunchReceive name tenant packet => Sys2Proof.Machine.execReplicatedLaunchReceive name tenant packet s
  | .readyReceive name tenant gen accept => Sys2Proof.Machine.execReadyReceive name tenant gen accept s
  | .goReceive name tenant gen => Sys2Proof.Machine.execGoReceive name tenant gen s
  | .dropReceive name tenant gen => Sys2Proof.Machine.execDropReceive name tenant gen s
  | .blockSave block => Sys2Proof.Machine.execBlockSave block s
  | .parkedBarrierArrival id => Sys2Proof.Machine.execParkedBarrierArrival id s
  | .stagingStart cluster grainer => Sys2Proof.Machine.execStagingStart cluster grainer s
  | .stagingComplete cluster grainer => Sys2Proof.Machine.execStagingComplete cluster grainer s
  | .tailRepush cluster grainer => Sys2Proof.Machine.execTailRepush cluster grainer s
  | .engineTranslationFault index => Sys2Proof.Machine.execEngineTranslationFault index s
  | .cancel tenant level index => Sys2Proof.Machine.execCancel tenant level index s
  | .starvationOverride core => Sys2Proof.Machine.execStarvationOverride core s
  | .floorQueueEntry core => Sys2Proof.Machine.execFloorQueueEntry core s
  | .uniformFloorQueueEntry core => Sys2Proof.Machine.execUniformFloorQueueEntry core s
  | .deferralEnd thread => Sys2Proof.Machine.execDeferralEnd thread s
  | .runExpiry core => Sys2Proof.Machine.execRunExpiry core s
  | .barrierReleaseArrival id => Sys2Proof.Machine.execBarrierReleaseArrival id s
  | .launchBarrierRelease launch => Sys2Proof.Machine.execLaunchBarrierRelease launch s
  | .barrierTimeout block index => Sys2Proof.Machine.execBarrierTimeout block index s
  | .bargTimeout group => Sys2Proof.Machine.execBargTimeout group s
  | .blockStalled block => Sys2Proof.Machine.execBlockStalled block s
  | .nearProbe id => Sys2Proof.Machine.execNearProbe id s
  | .lineEviction cluster line => Sys2Proof.Machine.execLineEviction cluster line s
  | .ballocAnswer group => Sys2Proof.Machine.execBallocAnswer group s
  | .faultRecordDrain tenant => Sys2Proof.Machine.execFaultRecordDrain tenant s
  | .barrierArrivalReceive id => Sys2Proof.Machine.execBarrierArrivalReceive id s
  | .hostTransferComplete id => Sys2Proof.Machine.execHostTransferComplete id s
  | .bridgeRequestReceive p => Sys2Proof.Machine.execBridgeRequestReceive p s
  | .linkTraining port => Sys2Proof.Machine.execLinkTraining port s

end Sys2Proof.Machine
end

