-- ==== Sys2Proof/Machine/Fetch.lean ====
section
/-! DEFINITION. Fetching and decoding the next word of the unit that a core cycle executes (R84, R85,
R101, R183), and the choice of what acts next. -/

namespace Sys2Proof.Machine

/-- What a fetch comes to: a new state when the word could not be had or is refused, or the instruction
to execute. -/
inductive Fetched where
  | done (s : State)
  | run (i : Instr) (s : State)
  deriving DecidableEq, Repr

/-- A unit whose word cannot be translated parks its threads (R84, R163, R183): one fault each, as
threads of their own (assumption 32). -/
def State.parkFetch (s : State) (u : Issue) (f : XFault) : State :=
  (u.lanes.foldl (fun s k =>
    let id := s.freshId
    (s.sendFault k u.pc accFetch f false).modThread k
      (fun th => { th with st := .parked (.xlate id u.wordAddr true) })) s).finishAs u u.lanes 0

/-- The word and its class are noted in the unit. -/
def State.noteWord (s : State) (w : Word32) (cls : Nat) : State :=
  s.modCyc (fun c =>
    match c.todo with
    | u :: rest => { c with todo := { u with word := w, cls := cls } :: rest }
    | [] => c)

/-- A word of a unit that was fetched when its gang was formed, before its operands were gathered (R85, R254). -/
def Cyc.heldWord (c : Cyc) (u : Issue) : Option Word32 :=
  if u.port = 2 then none else (c.words.find? (fun p => p.1 == u.wordAddr)).map (·.2)

/-- The unit's next word, which has been fetched, is decoded (R101, R102). -/
def State.runWord (s : State) (u : Issue) (w : Word32) : Fetched :=
  match decodeWord w with
  | none => .done ((s.trapAll u.lanes 1 u.pc (tvalWord w)).finishAs u u.lanes 0)
  | some i => .run i (s.noteWord w (effClass i w))

/-- Fetches the next word of a unit, unless its gang has fetched it, and decodes it (R84, R85, R101, R102). -/
def State.fetchUnit (s : State) (c : Cyc) (u : Issue) : Fetched :=
  match s.blocks.find u.block, c.heldWord u with
  | none, _ => .done (s.finishAs u [] 0)
  | some _, some w => s.runWord u w
  | some b, none =>
    match s.fetch b.cluster b.tenant u.wordAddr.toNat c.seed with
    | .trap cause => .done ((s.trapAll u.lanes cause u.pc u.wordAddr).finishAs u u.lanes 0)
    | .fault f => .done (s.parkFetch u f)
    | .word w => (s.noteFetch b.cluster b.tenant u.wordAddr.toNat c.seed w).runWord u w

/-- Who acts next (assumption 7): the first of the turns that the state prescribes, or a free one. -/
def State.nextTurn (s : State) : Turn × State :=
  match s.turns with
  | t :: rest => (t, { s with turns := rest })
  | [] => (Config.freeTurn s.freeCtr, s.drawn)

/-- What goes on in recovery: a power-on reset, reads through BAR2, and PMBus (R346). -/
def inRecovery (i : Instr) : Bool :=
  match i with
  | .powerOnReset _ _ => true
  | .registerRead req _ _ => req == reqHost
  | .readPout _ _ => true
  | .readTemperature1 _ _ => true
  | .readVin _ _ => true
  | .readIout _ _ => true
  | .pmbusLimitRead _ => true
  | .pmbusLimitWrite _ _ => true
  | _ => false

/-- What goes on under the alarm lock (R341, R348, R349): a power-on reset, reads but those through the PCI Express link,
which is held down, PMBus but for its write, and the IEEE 1149.1 port (assumption 33). -/
def underLock (i : Instr) : Bool :=
  match i with
  | .powerOnReset _ _ => true
  | .registerRead req _ _ => req != reqHost
  | .readPout _ _ => true
  | .readTemperature1 _ _ => true
  | .readVin _ _ => true
  | .readIout _ _ => true
  | .pmbusLimitRead _ => true
  | .idcode => true
  | .bypass _ => true
  | .boundaryScan _ => true
  | _ => false

/-- The machine takes an event: everything while it works, and otherwise what recovery or the alarm lock leaves
(R346, R348). -/
def State.takes (s : State) (i : Instr) : Bool :=
  if s.sec.locked then underLock i
  else if s.sec.boot = 0 then true
  else inRecovery i

/-- Cores, the Hall and the clusters' units run (R346, R348). -/
def State.works (s : State) : Bool := !s.sec.locked && s.sec.boot == 0

end Sys2Proof.Machine
end

