-- ==== Sys2Proof/Machine/Step.lean ====
section
/-! DEFINITION. One step of the machine, and the state in which a given word is the next to execute. -/

namespace Sys2Proof.Machine

/-- What one turn does when no core cycle is under way. -/
def takeTurn (t : Turn) (s : State) : Host.Outcome State Fault Refusal :=
  match t with
  | .event i => if s.takes i then exec i s else .next s
  | .core c => .next (if s.works && decide (c < 384) then s.startCycle c else s)
  | .hall => .next (if s.works then s.hallTurn else s)
  | .cluster c => .next (if s.works && decide (c < 96) then s.clusterCycle c else s)
  | .ecc pa corrected => .next (if inDeviceMem pa || inPool pa then s.memError pa corrected else s)
  | .runnerStop r half => .next (s.stopRunner r half)
  | .bar4 entry word value => .next (s.bar4 entry word value)
  | .mainHart h => .next (if s.works then s.runMain h else s)
  | .runnerHart r h => .next (if s.works then s.runRunner r h else s)
  | .fetchCopy cl pa =>
    .next (if s.works && decide (cl < 96) && inDeviceMem pa && pa % 4 == 0 then s.copyWord cl pa else s)

/-- One step: while a core cycle is under way, the next word of its first unit, or its end; otherwise the
next turn. -/
def step (s : State) : Host.Outcome State Fault Refusal :=
  match s.cyc with
  | some c =>
    match c.todo with
    | u :: _ =>
      match s.fetchUnit c u with
      | .done s' => .next s'
      | .run i s' => exec i s'
    | [] => exec (.coreCycle c.core) s
  | none => takeTurn s.nextTurn.1 s.nextTurn.2

/-- The launch packet of the block that `withFetchWord` makes: one thread, all registers. -/
def probePacket : Packet :=
  { restartable := false, cooperative := false, prio := 0, gen := 0, entry := 0x40000, handler := 0
    gridx := 1, gridy := 1, gridz := 1, blockt := 1, vregs := 128, uregs := 256, privw := 0, lscr := 0
    cscr := 0, bars := 0, drain := 0, args := 0, parent := 0, nsucc := 0, nplace := 0, succ := 0
    place := [], rank := [] }

/-- An item with every field 0. -/
def probeItem : Item := ⟨List.replicate 16 0, .block 0 0, 0, .none⟩

/-- The block of `withFetchWord`: block 0 of tenant 0, on core 0. -/
def probeBlock : Block :=
  { launch := 0, tenant := 0, lin := 0, packet := probePacket, item := probeItem, rank := 0, cluster := 0
    core := some 0, age := 0, st := .running, slots := [], lmem := [], cmem := [], lparts := [], objs := []
    parkedTab := [], parkedPool := [], ranges := [], since := 0, stall := 0, stallRep := false }

/-- Its only thread, READY at VA 0x4_0000. -/
def probeThread : Thread :=
  { pc := 0x40000, st := .ready, wait := 0, regs := [], tepc := 0, tcause := 0, tval := 0, stacklim := 0
    privbase := 0, token := none, tokenOp := 0, rowSeen := [] }

/-- Its group, on core 0. -/
def probeGroup : Group :=
  { core := 0, sregs := [], preds := 0, hatches := [], gtag := 0, iss := [], ret := [], done := []
    attach := [], bargTmr := none }

/-- Page tables of tenant 0 that map the first GiB of VA to the first GiB of device memory (R312,
R313), and the bytes of an instruction at VA 0x4_0000. -/
def probeMemory (m : Memory) (nbits w : Nat) : Memory :=
  let m := m.writeBytes memBase (leBytes 0x10003 8)
  let m := m.writeBytes (memBase + 0x10000) (leBytes 0x1D 8)
  let m := m.writeBytes (memBase + 0x20000) (leBytes (memBase + 0x30000 + 3) 8)
  let m := m.writeBytes (memBase + 0x30000) (leBytes (memBase + 0x1D) 8)
  m.writeBytes (memBase + 0x40000) (leBytes w ((nbits + 7) / 8) ++ leBytes 0 (12 - (nbits + 7) / 8))

/-- The state with an instruction stored where the next step fetches it: a resident block of one thread
on core 0 and a core cycle whose first unit is that instruction (assumption 34). -/
def State.withFetchWord (s : State) (nbits w : Nat) : State :=
  let s1 : State :=
    { s with
      mem := probeMemory s.mem nbits w
      tlb := []
      blocks := s.blocks.set 0 probeBlock
      groups := s.groups.set 0 probeGroup
      threads := s.threads.set 0 probeThread
      clusters := s.clusters.put Cluster.reset 0 { s.cluster 0 with icopy := [] } }
  (s1.modTenant 0 (fun t => { t with s1root := 0, s2root := memBase + 0x20000 })).openCycle 0 s.freeCtr ⟨[], [], [], [], [0]⟩
    (if w.testBit 31 then some (0, 0x40000, [0]) else none)
    (if w.testBit 31 then none else some ⟨0, 0x40000, none, [0], [], false, [0]⟩) []

end Sys2Proof.Machine
end

