-- ==== Sys2Proof/Safety.lean ====
section
/-! DEFINITION. What a safe run is, in the terms that claims use: a step answers a next state, device memory keeps
its canonical form, and what an issued unit does to its threads and to nothing else. -/

namespace Sys2Proof.Machine

/-- The outcome is a next state. -/
def completes (o : Host.Outcome State Fault Refusal) : Bool :=
  match o with
  | .next _ => true
  | .fault _ => false
  | .refused _ => false

/-- Device memory is in its canonical form. -/
def State.memWf (s : State) : Prop := Memory.wf s.mem = true

/-- Device memory, what each Larder holds, and the threads are in their canonical forms. -/
structure State.Canonical (s : State) : Prop where
  mem     : s.memWf
  larders : ∀ c, (s.cluster c).cache.sorted = true
  threads : s.threads.sorted = true

/-- The alarm lock is in force and no core cycle is under way: nothing but a power-on reset resumes work
(R348). -/
def State.lockedDown (s : State) : Prop := s.sec.locked = true ∧ s.cyc = none

/-! ### Units -/

/-- The gang of the cycle fetched `w` for the unit when it was formed, before it gathered its operands (R85, R254). -/
def Cyc.Holds (c : Cyc) (u : Issue) (w : Word32) : Prop :=
  u.port ≠ 2 ∧ c.words.find? (fun p => p.1 == u.wordAddr) = some (u.wordAddr, w)

/-- The gang of the cycle holds no word for the unit: it is fetched now. -/
def Cyc.FetchesNow (c : Cyc) (u : Issue) : Prop := u.port = 2 ∨ ∀ p ∈ c.words, p.1 ≠ u.wordAddr

/-- The core cycle under way executes the unit `u` next, and its threads are there, each once. -/
structure Starts (s : State) (u : Issue) : Prop where
  head : s.unit = some u
  once : u.lanes.Nodup
  here : ∀ k ∈ u.lanes, ∃ th, s.threads.find k = some th

/-- The lane registers that a unit reads: roles a, b and c, and the implicit sources (R89, R90). -/
def Use.sources (use : Use) (u : Issue) : List Nat := use.a ++ use.bRegs u ++ use.cRegs u ++ use.imp

/-- A thread passes the checks that come before an instruction's own (R29, R49 to R51, R88, R101): the unit is
legal, every register that it writes or reads is full, and none that it reads is poisoned. -/
structure Passes (s : State) (use : Use) (u : Issue) (k : Nat) (th : Thread) : Prop where
  legal : use.illegal u (s.limits u.block).1 (s.limits u.block).2 = none
  dst : ∀ r ∈ use.dst, (th.reg r).full = true
  src : ∀ r ∈ use.sources u, (th.reg r).full = true ∧ (th.reg r).poison = false
  uni : ∀ r, use.uniReg u = some r → (snapSreg s k r).full = true ∧ (snapSreg s k r).poison = false

/-- Every thread of the unit passes. -/
def AllPass (s : State) (use : Use) (u : Issue) : Prop :=
  ∀ k ∈ u.lanes, ∀ th, s.threads.find k = some th → Passes s use u k th

/-- The state `t` differs from `s` in its threads, in the cycle under way, and in what a report to the debugger
changes: the log, the messages, and the free values drawn for them. -/
structure OnlyThreads (s t : State) : Prop where
  rest : t = { s with
    threads := t.threads, cyc := t.cyc, desk := t.desk, io := t.io, freeCtr := t.freeCtr }
  quiet : s.dbgOn = false → t.desk = s.desk ∧ t.io = s.io ∧ t.freeCtr = s.freeCtr

/-- The unit has executed for all its threads: `P k th th'` holds of each, before and after; every other thread
and every other part of the machine stand as before. -/
structure Ran (s : State) (u : Issue) (P : Nat → Thread → Thread → Prop) (t : State) : Prop where
  mine : ∀ k ∈ u.lanes, ∀ th, s.threads.find k = some th → ∃ th', t.threads.find k = some th' ∧ P k th th'
  others : ∀ k, k ∉ u.lanes → t.threads.find k = s.threads.find k
  frame : OnlyThreads s t
  cycle : t.cyc = s.cyc.map (fun c => c.finish u u.lanes u.cls)

/-- One thread's part: register `vd` is written, full and clean, every other register stands, and the thread goes
on at `pc`. -/
def Wrote (vd : Nat) (v : Word32) (pc : Word64) (th th' : Thread) : Prop :=
  (∀ r, th'.reg r = if r = vd then ⟨v, true, false⟩ else th.reg r) ∧
  th' = { th with regs := th'.regs, pc := pc, st := .ready }

/-- The same for a 64-bit value in `vd` and the register after it. -/
def WrotePair (vd : Nat) (v : Word64) (pc : Word64) (th th' : Thread) : Prop :=
  (∀ r, th'.reg r = if r = vd + 1 then ⟨v.extractLsb' 32 32, true, false⟩
    else if r = vd then ⟨v.extractLsb' 0 32, true, false⟩ else th.reg r) ∧
  th' = { th with regs := th'.regs, pc := pc, st := .ready }

/-- The thread goes on at `pc` and nothing else of it changes. -/
def Moved (pc : Word64) (th th' : Thread) : Prop := th' = { th with pc := pc, st := .ready }

/-- The thread has taken a trap (R197): TEPC, TCAUSE with H = 1, TVAL, and the handler's address. -/
def Trapped (cause : Nat) (tepc tval handler : Word64) (th th' : Thread) : Prop :=
  th' = { th with
    tepc := tepc &&& ~~~3, tcause := 0x8000_0000 ||| BitVec.ofNat 32 cause, tval := tval, pc := handler, st := .ready }

/-- The thread's block has a handler and the thread is not in it. -/
def Handled (s : State) (k : Nat) (th : Thread) : Prop :=
  s.handlerOf (blockOf k) ≠ 0 ∧ th.tcause.getLsbD 31 = false

/-- A lane register's value. -/
def Thread.val (th : Thread) (r : BitVec 7) : Word32 := (th.reg r.toNat).val

/-- The 64-bit operand in a register and the one after it (R159, R183). -/
def Thread.val64 (th : Thread) (r : BitVec 7) : Word64 :=
  (th.reg (r.toNat + 1)).val ++ (th.reg r.toNat).val

/-- The role-b operand of a unit: vb, or with US the uniform register sidx as it stood at the start of the cycle
(R90, R120). -/
def operandB (s : State) (u : Issue) (k : Nat) (th : Thread) (vb : BitVec 7) : Word32 :=
  if modUs u.modOr0 then (snapSreg s k (modSidx u.modOr0).toNat).val else th.val vb

/-- The role-c operand of a unit: the register vc of its MOD word (R90). -/
def operandC (u : Issue) (th : Thread) : Word32 := th.val (modVc u.modOr0)

/-! ### What the integer instructions compute -/

/-- An instruction that writes one register with a value of its operands: a, b, c, the old vd, and xmod. -/
structure LaneForm where
  use : Use
  vd  : BitVec 7
  va  : BitVec 7
  vb  : BitVec 7
  f   : Word32 → Word32 → Word32 → Word32 → Nat → Word32

/-- A form with operands a and b alone. -/
def form2 (vd va vb : BitVec 7) (f : Word32 → Word32 → Word32) : Option LaneForm :=
  some ⟨Use.ab vd va vb, vd, va, vb, fun a b _ _ _ => f a b⟩

/-- A form with operands a, b and c. -/
def form3 (vd va vb : BitVec 7) (f : Word32 → Word32 → Word32 → Word32) : Option LaneForm :=
  some ⟨(Use.ab vd va vb).withC, vd, va, vb, fun a b c _ _ => f a b c⟩

/-- A form with operand a alone. -/
def form1 (vd va : BitVec 7) (f : Word32 → Word32) : Option LaneForm :=
  some ⟨Use.one vd va, vd, va, 0, fun a _ _ _ _ => f a⟩

/-- The value that the form computes for a thread. -/
def LaneForm.value (F : LaneForm) (s : State) (u : Issue) (k : Nat) (th : Thread) : Word32 :=
  F.f (th.val F.va) (operandB s u k th F.vb) (operandC u th) (th.val F.vd) (modX u.modOr0).toNat

/-- 1 for true and 0 for false (R121). -/
def truth (b : Bool) : Word32 := if b then 1 else 0

/-- The INT32 nearest to an integer (R121). -/
def saturate (x : Int) : Word32 :=
  if x < -2147483648 then 0x8000_0000 else if 2147483647 < x then 0x7FFF_FFFF else BitVec.ofInt 32 x

/-- R121: add, subtract, minimum, maximum, difference and saturating sum; the logical operations; the shifts; the
compares. -/
def simpleForm : Instr → Option LaneForm
  | .add _ vd va vb => form2 vd va vb (fun a b => a + b)
  | .sub _ vd va vb => form2 vd va vb (fun a b => a - b)
  | .min _ vd va vb => form2 vd va vb (fun a b => if a.toInt ≤ b.toInt then a else b)
  | .max _ vd va vb => form2 vd va vb (fun a b => if a.toInt ≤ b.toInt then b else a)
  | .minu _ vd va vb => form2 vd va vb (fun a b => if a.toNat ≤ b.toNat then a else b)
  | .maxu _ vd va vb => form2 vd va vb (fun a b => if a.toNat ≤ b.toNat then b else a)
  | .absd _ vd va vb => form2 vd va vb (fun a b => if a.toInt ≤ b.toInt then b - a else a - b)
  | .addsat _ vd va vb => form2 vd va vb (fun a b => saturate (a.toInt + b.toInt))
  | .and _ vd va vb => form2 vd va vb (fun a b => a &&& b)
  | .or _ vd va vb => form2 vd va vb (fun a b => a ||| b)
  | .xor _ vd va vb => form2 vd va vb (fun a b => a ^^^ b)
  | .andn _ vd va vb => form2 vd va vb (fun a b => a &&& ~~~b)
  | .shl _ vd va vb => form2 vd va vb (fun a b => a <<< (b &&& 31))
  | .shr _ vd va vb => form2 vd va vb (fun a b => a >>> (b &&& 31))
  | .sar _ vd va vb => form2 vd va vb (fun a b => BitVec.sshiftRight' a (b &&& 31))
  | .ror _ vd va vb => form2 vd va vb (fun a b => (a ++ a).extractLsb' (b.extractLsb' 0 5).toNat 32)
  | .seq _ vd va vb => form2 vd va vb (fun a b => truth (a = b))
  | .sne _ vd va vb => form2 vd va vb (fun a b => truth (a ≠ b))
  | .slt _ vd va vb => form2 vd va vb (fun a b => truth (a.toInt < b.toInt))
  | .sltu _ vd va vb => form2 vd va vb (fun a b => truth (a.toNat < b.toNat))
  | .shli _ vd va n => form1 vd va (fun a => a <<< n)
  | .shri _ vd va n => form1 vd va (fun a => a >>> n)
  | .sari _ vd va n => form1 vd va (fun a => BitVec.sshiftRight' a n)
  | .rori _ vd va n => form1 vd va (fun a => (a ++ a).extractLsb' n.toNat 32)
  | _ => none

/-- R62, R123: products, quotients and remainders; R122: selection and counts. -/
def arithForm : Instr → Option LaneForm
  | .mul _ vd va vb => form2 vd va vb (fun a b => BitVec.ofInt 32 (a.toInt * b.toInt))
  | .mulhi _ vd va vb => form2 vd va vb (fun a b => BitVec.ofInt 32 (a.toInt * b.toInt / 4294967296))
  | .mulhiu _ vd va vb => form2 vd va vb (fun a b => (a.setWidth 64 * b.setWidth 64).extractLsb' 32 32)
  | .mad _ vd va vb => form3 vd va vb (fun a b c => BitVec.ofInt 32 (a.toInt * b.toInt + c.toInt))
  | .div _ vd va vb => form2 vd va vb (fun a b => if b = 0 then BitVec.allOnes 32 else a.sdiv b)
  | .divu _ vd va vb => form2 vd va vb (fun a b => if b = 0 then BitVec.allOnes 32 else a / b)
  | .rem _ vd va vb => form2 vd va vb (fun a b => if b = 0 then a else a.srem b)
  | .remu _ vd va vb => form2 vd va vb (fun a b => if b = 0 then a else a % b)
  | .sel _ vd va vb => form3 vd va vb (fun a b c => if c ≠ 0 then a else b)
  | .clz _ vd va => form1 vd va (fun a => if a = 0 then 32 else BitVec.ofNat 32 (31 - Nat.log2 a.toNat))
  | .popc _ vd va =>
    form1 vd va (fun a => BitVec.ofNat 32 ((List.range 32).countP (fun i => a.getLsbD i)))
  | .brev _ vd va => form1 vd va (fun a => a.reverse)
  | _ => none

/-- The byte of PRMB that a selector nibble names in the eight bytes of the pair (R128). -/
def permuted (pair : Word64) (n : BitVec 4) : BitVec 8 :=
  let v := pair.extractLsb' (8 * (n.extractLsb' 0 3).toNat) 8
  if n.getLsbD 3 then (if v.getLsbD 7 then 0xFF else 0) else v

/-- R127, R128: bit fields and byte selection. -/
def fieldForm : Instr → Option LaneForm
  | .bfx _ vd va vb => form2 vd va vb (fun a b =>
      let up := 32 - (b.extractLsb' 8 5).toNat
      BitVec.sshiftRight ((a >>> (b.extractLsb' 0 5)) <<< up) up)
  | .bfxu _ vd va vb => form2 vd va vb (fun a b =>
      (a >>> (b.extractLsb' 0 5)) &&& ~~~(BitVec.allOnes 32 <<< b.extractLsb' 8 5))
  | .bfi _ vd va vb =>
    some ⟨(Use.ab vd va vb).implicit vd, vd, va, vb, fun a b _ d _ =>
      let mask := ~~~(BitVec.allOnes 32 <<< b.extractLsb' 8 5)
      (d &&& ~~~(mask <<< b.extractLsb' 0 5)) ||| ((a &&& mask) <<< b.extractLsb' 0 5)⟩
  | .prmb _ vd va vb => form3 vd va vb (fun a b c =>
      permuted (b ++ a) (c.extractLsb' 12 4) ++ permuted (b ++ a) (c.extractLsb' 8 4) ++
        permuted (b ++ a) (c.extractLsb' 4 4) ++ permuted (b ++ a) (c.extractLsb' 0 4))
  | _ => none

/-! ### Rounding -/

/-- The magnitude of a finite pattern without its sign, in units of the format's smallest subnormal (R63, R65). -/
def Fmt.mag (f : Fmt) (r : Nat) : Nat :=
  if r < 2 ^ f.fbits then r else (2 ^ f.fbits + r % 2 ^ f.fbits) * 2 ^ (r / 2 ^ f.fbits - 1)

/-- How `h` halves of the unit 2^`u` compare with the exact magnitude `v` × 2^`e`. -/
def halfUnits (v : Nat) (e u : Int) (h : Nat) : Ordering :=
  if u - 1 ≤ e then compare h (v * 2 ^ (e - (u - 1)).toNat) else compare (h * 2 ^ (u - 1 - e).toNat) v

/-- The pattern `r` is the rounding of an exact nonzero magnitude in a mode and under a sign (R67): `mag` gives the
magnitudes of the patterns in units, rising, `top` is the first pattern beyond the largest finite one, and `c` tells how
halves of the unit compare with the exact magnitude. To nearest, the two midpoints beside `r` lie on either side, and one
that is met belongs to the even pattern; toward zero, `r` is the last finite pattern that is not beyond the magnitude;
away from zero, the first that is not below it. -/
def RoundsTo (mag : Nat → Nat) (top : Nat) (m : Round) (neg : Bool) (r : Nat) (c : Nat → Ordering) : Prop :=
  let nearest := m = .rne
  let away := (m = .ru ∧ neg = false) ∨ (m = .rd ∧ neg = true)
  r ≤ top ∧
  (nearest →
    (0 < r → c (mag (r - 1) + mag r) = .lt ∨ (c (mag (r - 1) + mag r) = .eq ∧ r % 2 = 0)) ∧
    (r < top → c (mag r + mag (r + 1)) = .gt ∨ (c (mag r + mag (r + 1)) = .eq ∧ r % 2 = 0))) ∧
  (away → (r < top → c (2 * mag r) ≠ .lt) ∧ (0 < r → c (2 * mag (r - 1)) = .lt)) ∧
  (¬nearest → ¬away → r < top ∧ c (2 * mag r) ≠ .gt ∧ (r + 1 < top → c (2 * mag (r + 1)) = .gt))

/-- The FP32 pattern of a sign and the pattern without it. -/
def signed32 (neg : Bool) (r : Nat) : Word32 := BitVec.ofNat 32 ((if neg then 2 ^ 31 else 0) + r)

/-- The word is a finite FP32 value: its sign, and its magnitude in units of 2^−149. -/
def Finite32 (w : Word32) (neg : Bool) (x : Nat) : Prop :=
  (w.toNat % 2 ^ 31) < 0x7F800000 ∧ w.getLsbD 31 = neg ∧ fp32.mag (w.toNat % 2 ^ 31) = x

/-- The FP32 pattern of 2^(`n` − 149), for `n` up to 276. -/
def powerOfTwo (n : Nat) : Word32 := if n < 23 then BitVec.ofNat 32 (2 ^ n) else BitVec.ofNat 32 ((n - 22) * 2 ^ 23)

/-! ### What the floating-point and ternary instructions compute -/

/-- Byte `j` of a word. -/
def byteOf (w : Word32) (j : Nat) : BitVec 8 := w.extractLsb' (8 * j) 8

/-- The word with byte `k` replaced and the other three as they were. -/
def withByte (w : Word32) (k : Nat) (b : BitVec 8) : Word32 :=
  let g := fun j => if j = k then b else byteOf w j
  g 3 ++ g 2 ++ g 1 ++ g 0

/-- A form that takes a rounding mode in xmod and has operands a and b. -/
def formF (vd va vb : BitVec 7) (f : Round → Word32 → Word32 → Word32) : Option LaneForm :=
  some ⟨(Use.ab vd va vb).withX (fun x => decide (x < 4)), vd, va, vb, fun a b _ _ x => f (Round.ofCode x) a b⟩

/-- The same with operand a alone. -/
def formF1 (vd va : BitVec 7) (f : Round → Word32 → Word32) : Option LaneForm :=
  some ⟨(Use.one vd va).withX (fun x => decide (x < 4)), vd, va, 0, fun a _ _ _ x => f (Round.ofCode x) a⟩

/-- R143, R147, R148, R151: one rounding of an exact result, in the mode of xmod. -/
def floatForm : Instr → Option LaneForm
  | .fadd _ vd va vb => formF vd va vb (fun m a b => rn m (fpSum m [f32 a, f32 b]))
  | .fsub _ vd va vb => formF vd va vb (fun m a b => rn m (fpSum m [f32 a, (f32 b).neg]))
  | .fmul _ vd va vb => formF vd va vb (fun m a b => rn m ((f32 a).mul (f32 b)))
  | .fdiv _ vd va vb => formF vd va vb (fun m a b => rn m ((f32 a).div (f32 b)))
  | .ffma _ vd va vb =>
    some ⟨((Use.ab vd va vb).withC).withX (fun x => decide (x < 4)), vd, va, vb, fun a b c _ x =>
      let m := Round.ofCode x
      rn m (fpSum m [(f32 a).mul (f32 b), f32 c])⟩
  | .scacc _ vd va vb =>
    some ⟨((Use.ab vd va vb).implicit vd).withX (fun x => decide (x < 4)), vd, va, vb, fun a b _ d x =>
      let m := Round.ofCode x
      rn m (fpSum m [(f32 a).mul (f32 b), f32 d])⟩
  | .scacc2 _ vd va vb =>
    some ⟨(((Use.ab vd va vb).withC).implicit vd).withX (fun x => decide (x < 4)), vd, va, vb, fun a b c d x =>
      let m := Round.ofCode x
      rn m (fpSum m [(f32 a).mul (f32 (rn m ((f32 b).mul (f32 c)))), f32 d])⟩
  | .frcp _ vd va => formF1 vd va fRcp
  | .frsq _ vd va => formF1 vd va fRsq
  | .fsqrt _ vd va => formF1 vd va fSqrt
  | .fex2 _ vd va => formF1 vd va fEx2
  | .flg2 _ vd va => formF1 vd va fLg2
  | .fscl _ vd va vb => formF vd va vb fScl
  | .ffrc _ vd va => form1 vd va fFrc
  | _ => none

/-- Element `e` of a BF16x2 word. -/
def halfOf (w : Word32) (e : Nat) : Nat := (w.extractLsb' (16 * e) 16).toNat

/-- A BF16x2 word from one function of the element. -/
def halves (f : Nat → Nat) : Word32 := BitVec.ofNat 16 (f 1) ++ BitVec.ofNat 16 (f 0)

/-- R144 to R146, R149: minimum and maximum, compares, BF16x2 arithmetic and the 32-bit conversions. -/
def compareForm : Instr → Option LaneForm
  | .fmin _ vd va vb => form2 vd va vb fMin
  | .fmax _ vd va vb => form2 vd va vb fMax
  | .fseq _ vd va vb => form2 vd va vb (fun a b => truth (fpEq (f32 a) (f32 b)))
  | .fslt _ vd va vb => form2 vd va vb (fun a b => truth (fpLt (f32 a) (f32 b)))
  | .fsle _ vd va vb => form2 vd va vb (fun a b => truth (fpLt (f32 a) (f32 b) || fpEq (f32 a) (f32 b)))
  | .fsun _ vd va vb => form2 vd va vb (fun a b => truth ((f32 a).isNan || (f32 b).isNan))
  | .hadd2 _ vd va vb => form2 vd va vb (fun a b =>
      halves (fun e => rnBf16 (fpSum .rne [bf16.decode (halfOf a e), bf16.decode (halfOf b e)])))
  | .hmul2 _ vd va vb => form2 vd va vb (fun a b =>
      halves (fun e => rnBf16 ((bf16.decode (halfOf a e)).mul (bf16.decode (halfOf b e)))))
  | .hfma2 _ vd va vb => form3 vd va vb (fun a b c =>
      halves (fun e => rnBf16 (fpSum .rne
        [(bf16.decode (halfOf a e)).mul (bf16.decode (halfOf b e)), bf16.decode (halfOf c e)])))
  | .hmax2 _ vd va vb => form2 vd va vb (fun a b => halves (fun e => minMax bf16 true (halfOf a e) (halfOf b e)))
  | .cvtF32S32 _ vd va => formF1 vd va (fun m a => rn m (Fp.ofInt a.toInt))
  | .cvtS32F32 _ vd va => form1 vd va cvtS32
  | .cvtF32Bf16 _ vd va =>
    some ⟨(Use.one vd va).withX (fun x => decide (x < 2)), vd, va, 0, fun a _ _ _ x =>
      rn .rne (bf16.decode (halfOf a x))⟩
  | .cvtBf16F32 _ vd va vb => form2 vd va vb (fun a b =>
      BitVec.ofNat 16 (rnBf16 (f32 b)) ++ BitVec.ofNat 16 (rnBf16 (f32 a)))
  | _ => none

/-- xmod of an FP8 narrowing: a byte in [3:2] and NSAT in [0], bit 1 being 0 (R141). -/
def narrowMod (x : Nat) : Bool := !(BitVec.ofNat 4 x).getLsbD 1

/-- Code `i` of the sixteen 2-bit codes of a word (R72). -/
def digitOf (w : Word32) (i : Nat) : BitVec 2 := w.extractLsb' (2 * i) 2

/-- The word of sixteen codes. -/
def ofDigits (g : Nat → BitVec 2) : Word32 :=
  g 15 ++ g 14 ++ g 13 ++ g 12 ++ g 11 ++ g 10 ++ g 9 ++ g 8 ++ g 7 ++ g 6 ++ g 5 ++ g 4 ++ g 3 ++ g 2 ++ g 1 ++ g 0

/-- The digit of a code plus one: g(c) + 1 of R155. -/
def digitPlus (c : BitVec 2) : Nat := if c.getLsbD 0 then (if c.getLsbD 1 then 0 else 2) else 1

/-- The T5 byte of codes `i` to `i` + 4 of a word (R71, R155). -/
def t5Byte (w : Word32) (i : Nat) : BitVec 8 :=
  BitVec.ofNat 8 (digitPlus (digitOf w i) + 3 * digitPlus (digitOf w (i + 1)) + 9 * digitPlus (digitOf w (i + 2)) +
    27 * digitPlus (digitOf w (i + 3)) + 81 * digitPlus (digitOf w (i + 4)))

/-- R150 to R157: the byte conversions, quantisation, dot products and the ternary instructions that never
trap. -/
def packedForm : Instr → Option LaneForm
  | .cvtE4m3F32 _ vd va =>
    some ⟨((Use.one vd va).implicit vd).withX narrowMod, vd, va, 0, fun a _ _ d x =>
      withByte d (x / 4) (BitVec.ofNat 8 (rne8 e4m3 (x % 2 == 0) (f32 a)))⟩
  | .cvtE5m2F32 _ vd va =>
    some ⟨((Use.one vd va).implicit vd).withX narrowMod, vd, va, 0, fun a _ _ d x =>
      withByte d (x / 4) (BitVec.ofNat 8 (rne8 e5m2 (x % 2 == 0) (f32 a)))⟩
  | .cvtF32E4m3 _ vd va =>
    some ⟨(Use.one vd va).withX (fun x => x % 4 == 0), vd, va, 0, fun a _ _ _ x =>
      rn .rne (e4m3.decode (byteOf a (x / 4)).toNat)⟩
  | .cvtF32E5m2 _ vd va =>
    some ⟨(Use.one vd va).withX (fun x => x % 4 == 0), vd, va, 0, fun a _ _ _ x =>
      rn .rne (e5m2.decode (byteOf a (x / 4)).toNat)⟩
  | .qnt8 _ vd va vb =>
    some ⟨((Use.ab vd va vb).implicit vd).withX (fun _ => true), vd, va, vb, fun a b _ d x =>
      withByte d (x / 4) (BitVec.ofNat 8 (quant8 (Round.ofCode x) ((f32 a).mul (f32 b))))⟩
  | .qnte4 _ vd va vb =>
    some ⟨((Use.ab vd va vb).implicit vd).withX narrowMod, vd, va, vb, fun a b _ d x =>
      withByte d (x / 4) (BitVec.ofNat 8 (rne8 e4m3 (x % 2 == 0) ((f32 a).mul (f32 b))))⟩
  | .dp4 _ vd va vb =>
    some ⟨(Use.ab vd va vb).implicit vd, vd, va, vb, fun a b _ d _ =>
      d + (byteOf a 0).signExtend 32 * (byteOf b 0).signExtend 32
        + (byteOf a 1).signExtend 32 * (byteOf b 1).signExtend 32
        + (byteOf a 2).signExtend 32 * (byteOf b 2).signExtend 32
        + (byteOf a 3).signExtend 32 * (byteOf b 3).signExtend 32⟩
  | .dp4u _ vd va vb =>
    some ⟨(Use.ab vd va vb).implicit vd, vd, va, vb, fun a b _ d _ =>
      d + (byteOf a 0).setWidth 32 * (byteOf b 0).setWidth 32
        + (byteOf a 1).setWidth 32 * (byteOf b 1).setWidth 32
        + (byteOf a 2).setWidth 32 * (byteOf b 2).setWidth 32
        + (byteOf a 3).setWidth 32 * (byteOf b 3).setWidth 32⟩
  | .dp2h _ vd va vb =>
    some ⟨((Use.ab vd va vb).implicit vd).withX (fun x => decide (x < 4)), vd, va, vb, fun a b _ d x =>
      let m := Round.ofCode x
      rn m (fpSum m [(bf16.decode (halfOf a 0)).mul (bf16.decode (halfOf b 0)),
        (bf16.decode (halfOf a 1)).mul (bf16.decode (halfOf b 1)), f32 d])⟩
  | .trnQ _ vd va vb =>
    some ⟨((Use.ab vd va vb).implicit vd).withX (fun _ => true), vd, va, vb, fun a b _ d x =>
      let x1 := f32 a
      let th := (f32 b).abs
      let code : BitVec 2 :=
        if x1.isNan || th.isNan then 0 else if fpLt th x1 then 1 else if fpLt x1 th.neg then 3 else 0
      ofDigits (fun i => if i = x then code else digitOf d i)⟩
  | .trnPk _ vd va => form1 vd va (fun a => 0#8 ++ t5Byte a 10 ++ t5Byte a 5 ++ t5Byte a 0)
  | .trnChk4 _ vd va => form1 vd va (fun a =>
      BitVec.ofNat 32 ((List.range 4).foldl (fun n j => n + if 243 ≤ (byteOf a j).toNat then 2 ^ j else 0) 0))
  | .trnZ4 _ vd va => form1 vd va (fun a =>
      BitVec.ofNat 32 ((List.range 4).foldl (fun n j => n + if (byteOf a j).toNat = 121 then 2 ^ j else 0) 0))
  | _ => none

/-- The forms of the lane instructions that write one register with a value of their operands and cannot trap by
themselves. -/
def laneForm (i : Instr) : Option LaneForm :=
  (simpleForm i).or ((arithForm i).or ((fieldForm i).or ((floatForm i).or ((compareForm i).or (packedForm i)))))

/-- The code of digit `i` of a T5 byte (R71, R155): −1, 0 or +1 is 0b11, 0b00 or 0b01. -/
def t5Code (b : BitVec 8) (i : Nat) : BitVec 2 :=
  match b.toNat / 3 ^ i % 3 with
  | 0 => 3
  | 1 => 0
  | _ => 1

/-- A lane special register of thread `n` of a block (R133). -/
def laneSpecialOf (b : Block) (n : Nat) (x : Nat) : Nat :=
  match x with
  | 0 => n % 8
  | 1 => n
  | 2 => n / 8
  | 3 => b.lin % b.packet.gridx
  | 4 => b.lin / b.packet.gridx % b.packet.gridy
  | 5 => b.lin / (b.packet.gridx * b.packet.gridy)
  | 6 => b.packet.gridx
  | 7 => b.packet.gridy
  | 8 => b.packet.gridz
  | 9 => b.packet.blockt
  | _ => (b.packet.blockt + 7) / 8

/-- The kinds of XLN (R135): IDX, XOR, UP and DN. -/
def xlnForm : Instr → Option (Nat × BitVec 7 × BitVec 7 × BitVec 7)
  | .xlnIdx _ vd va vb => some (0, vd, va, vb)
  | .xlnXor _ vd va vb => some (1, vd, va, vb)
  | .xlnUp _ vd va vb => some (2, vd, va, vb)
  | .xlnDn _ vd va vb => some (3, vd, va, vb)
  | _ => none

/-- What VOTE and XRED compute from xmod and the lanes and values of the cohort (R136, R137). -/
def cohortForm : Instr → Option (Use × BitVec 7 × BitVec 7 × (Nat → List (Nat × Word32) → Word32))
  | .voteAny _ vd va => some (Use.one vd va, vd, va, fun _ l => truth (decide (∃ p ∈ l, p.2 ≠ 0)))
  | .voteAll _ vd va => some (Use.one vd va, vd, va, fun _ l => truth (decide (∀ p ∈ l, p.2 ≠ 0)))
  | .voteBal _ vd va => some (Use.one vd va, vd, va, fun _ l =>
      BitVec.ofNat 32 ((l.map (fun p => if p.2 ≠ 0 then 2 ^ p.1 else 0)).sum))
  | .xred _ vd va => some ((Use.one vd va).withX (fun x => decide (x ≤ 4)), vd, va, fun x l =>
      match l.map (·.2), x with
      | [], _ => 0
      | v :: r, 0 => r.foldl (fun a b => a + b) v
      | v :: r, 1 => r.foldl (fun a b => if a.toInt < b.toInt then a else b) v
      | v :: r, 2 => r.foldl (fun a b => if a.toInt < b.toInt then b else a) v
      | v :: r, 3 => r.foldl (fun a b => a &&& b) v
      | v :: r, _ => r.foldl (fun a b => a ||| b) v)
  | _ => none

/-- A conditional branch: its register, its offset, and its condition (R184). -/
def branchForm : Instr → Option (BitVec 7 × BitVec 13 × (Word32 → Prop))
  | .brEqz _ va off => some (va, off, fun v => v = 0)
  | .brNez _ va off => some (va, off, fun v => v ≠ 0)
  | .brLtz _ va off => some (va, off, fun v => v.toInt < 0)
  | .brGez _ va off => some (va, off, fun v => 0 ≤ v.toInt)
  | .brGtz _ va off => some (va, off, fun v => 0 < v.toInt)
  | .brLez _ va off => some (va, off, fun v => v.toInt ≤ 0)
  | _ => none

/-- A jump through an address operand (R186). -/
def jumpForm : Instr → Option (BitVec 7)
  | .jmpr _ va => some va
  | .ret _ va => some va
  | _ => none

/-! ### The checks of a lane unit -/

/-- A source of the unit whose TE bit is 1 is empty (R50, R90). -/
def TrapsEmpty (s : State) (use : Use) (u : Issue) (k : Nat) (th : Thread) : Prop :=
  (modTea u.modOr0 = true ∧ ∃ r ∈ use.a, (th.reg r).full = false) ∨
  (modTeb u.modOr0 = true ∧ ((∃ r ∈ use.bRegs u, (th.reg r).full = false) ∨
    ∃ r, use.uniReg u = some r ∧ (snapSreg s k r).full = false)) ∨
  (modTec u.modOr0 = true ∧ ∃ r ∈ use.cRegs u, (th.reg r).full = false)

/-- A register that the unit writes or reads is empty. -/
def SomeEmpty (s : State) (use : Use) (u : Issue) (k : Nat) (th : Thread) : Prop :=
  (∃ r ∈ use.dst ++ use.sources u, (th.reg r).full = false) ∨
  ∃ r, use.uniReg u = some r ∧ (snapSreg s k r).full = false

/-- A register that the unit reads is poisoned. -/
def SomePoison (s : State) (use : Use) (u : Issue) (k : Nat) (th : Thread) : Prop :=
  (∃ r ∈ use.sources u, (th.reg r).poison = true) ∨
  ∃ r, use.uniReg u = some r ∧ (snapSreg s k r).poison = true

/-- What becomes of one thread of a lane unit (R29, R49 to R51, R88, R101, R102): illegal instruction, operand
empty, BLOCKED, poisoned operand, in this order, and otherwise its own effect. -/
structure Fate (s : State) (use : Use) (u : Issue) (k : Nat) (own : Prop) (th th' : Thread) : Prop where
  illegal : ∀ w, use.illegal u (s.limits u.block).1 (s.limits u.block).2 = some w →
    Trapped 1 u.pc (w.setWidth 64) (s.handlerOf (blockOf k)) th th'
  empty : use.illegal u (s.limits u.block).1 (s.limits u.block).2 = none → TrapsEmpty s use u k th →
    Trapped 6 u.pc 0 (s.handlerOf (blockOf k)) th th'
  blocked : use.illegal u (s.limits u.block).1 (s.limits u.block).2 = none → ¬TrapsEmpty s use u k th →
    SomeEmpty s use u k th →
    th' = { th with st := .blocked (.regs (use.dst ++ use.sources u) (use.uniReg u).toList) }
  poisoned : use.illegal u (s.limits u.block).1 (s.limits u.block).2 = none → ¬SomeEmpty s use u k th →
    SomePoison s use u k th → Trapped 7 u.pc 0 (s.handlerOf (blockOf k)) th th'
  executed : Passes s use u k th → own

/-! ### Memory instructions -/

/-- The state `t` differs from `s` in its threads, the cycle under way, the operations in flight with the numbers
given to them, the free values drawn, and the TLB entries; `acts` are the operations put under way, in order, each
with the threads that it belongs to. Device memory is as before. -/
structure Issued (s : State) (u : Issue) (acts : List (List Nat × MemAct)) (t : State) : Prop where
  rest : t = { s with
    threads := t.threads, cyc := t.cyc, inflight := t.inflight, nextId := t.nextId, freeCtr := t.freeCtr
    tlb := t.tlb }
  new : ∃ ops, t.inflight = s.inflight ++ ops ∧ ops.map (fun o => (o.members, o.act)) = acts ∧
    ∀ o ∈ ops, o.tenant = s.tenantOfBlock u.block ∧ o.cluster = s.clusterOfBlock u.block
  cycle : t.cyc = s.cyc.map (fun c => c.finish u u.lanes u.cls)

/-- The state after one thread's part of a unit: that thread alone has changed. -/
def OneThread (s t : State) (k : Nat) (P : Thread → Thread → Prop) : Prop :=
  (∃ th th', s.threads.find k = some th ∧ t.threads.find k = some th' ∧ P th th') ∧
  ∀ j, j ≠ k → t.threads.find j = s.threads.find j

/-- Registers `r` to `r` + `n` − 1 have been set empty and the thread goes on at `pc` (R48). -/
def Emptied (r n : Nat) (pc : Word64) (th th' : Thread) : Prop :=
  (∀ j, th'.reg j = if r ≤ j ∧ j < r + n then { th.reg j with full := false } else th.reg j) ∧
  th' = { th with regs := th'.regs, pc := pc, st := .ready }

/-- A format LM instruction (R161): its bytes, whether a load sign-extends, vt, va, ord, scope and off4. -/
structure LmForm where
  n : Nat
  signed : Bool
  vt : BitVec 7
  va : BitVec 7
  ord : BitVec 2
  scope : BitVec 3
  off4 : BitVec 4

/-- The loads (R165). -/
def loadForm : Instr → Option LmForm
  | .ldU8 _ vt va o c f => some ⟨1, false, vt, va, o, c, f⟩
  | .ldS8 _ vt va o c f => some ⟨1, true, vt, va, o, c, f⟩
  | .ldU16 _ vt va o c f => some ⟨2, false, vt, va, o, c, f⟩
  | .ldS16 _ vt va o c f => some ⟨2, true, vt, va, o, c, f⟩
  | .ldB32 _ vt va o c f => some ⟨4, false, vt, va, o, c, f⟩
  | .ldB64 _ vt va o c f => some ⟨8, false, vt, va, o, c, f⟩
  | .ldB128 _ vt va o c f => some ⟨16, false, vt, va, o, c, f⟩
  | _ => none

/-- The stores (R165). -/
def storeForm : Instr → Option LmForm
  | .stB8 _ vt va o c f => some ⟨1, false, vt, va, o, c, f⟩
  | .stB16 _ vt va o c f => some ⟨2, false, vt, va, o, c, f⟩
  | .stB32 _ vt va o c f => some ⟨4, false, vt, va, o, c, f⟩
  | .stB64 _ vt va o c f => some ⟨8, false, vt, va, o, c, f⟩
  | .stB128 _ vt va o c f => some ⟨16, false, vt, va, o, c, f⟩
  | _ => none

/-- The registers of the value: one for up to four bytes, else 2 or 4 (R159). -/
def LmForm.regs (F : LmForm) : Nat := if F.n ≤ 4 then 1 else F.n / 4

/-- The registers as a list. -/
def LmForm.run (F : LmForm) : List Nat := (List.range F.regs).map (fun i => F.vt.toNat + i)

/-- What a load reads and writes. -/
def LmForm.loadUse (F : LmForm) : Use := { Use.plain with a := addrRegs F.va, dst := F.run, lm := true }

/-- What a store reads. -/
def LmForm.storeUse (F : LmForm) : Use :=
  { Use.plain with a := addrRegs F.va, b := F.run, roleB := true, lm := true }

/-- ea (R91, R161): the address operand and an offset in units of the access size, off4 alone or, with a MOD, its
sign-extended 16-bit offset. -/
def LmForm.ea (F : LmForm) (u : Issue) (th : Thread) : Word64 :=
  th.val64 F.va + BitVec.ofNat 64 F.n *
    (match u.modWord with
     | some m => (m.extractLsb' 0 12 ++ F.off4).signExtend 64
     | none => F.off4.setWidth 64)

/-- Where the access asks to be performed (R166): at home when it is ordered at DEVICE scope or wider. -/
def LmForm.place (F : LmForm) : Site := if F.ord ≠ 0 ∧ 4 ≤ F.scope.toNat then .home else .larder

/-- The bytes of `n` registers from `r` on, each register's lowest byte first. -/
def regBytes (th : Thread) (r : Nat) : Nat → List Byte
  | 0 => []
  | n + 1 =>
    let w := (th.reg r).val
    [w.extractLsb' 0 8, w.extractLsb' 8 8, w.extractLsb' 16 8, w.extractLsb' 24 8] ++ regBytes th (r + 1) n

/-- The parts of an access of `n` bytes that are each performed whole, as offsets and sizes (R167): of 4 bytes for a
plain access and of 8 for an ordered one, or the whole of a smaller access. -/
def wholes (n : Nat) (ordered : Bool) : List (Nat × Nat) :=
  let w := if ordered then 8 else 4
  if n ≤ w then [(0, n)] else (List.range (n / w)).map (fun i => (w * i, w))

/-- The loads of the parts, each filling the registers that its bytes name; `ro` says that the page is read-only. -/
def LmForm.loads (F : LmForm) (k : Nat) (site : Site) (a : Nat) (ro : Bool) : List (List Nat × MemAct) :=
  (wholes F.n (decide (F.ord ≠ 0))).map (fun p =>
    ([k], .load site (a + p.1) p.2 F.signed (.lanes k (F.vt.toNat + p.1 / 4) ((p.2 + 3) / 4)) ro))

/-- The stores of the parts, each with its bytes of the value. -/
def LmForm.stores (F : LmForm) (k : Nat) (th : Thread) (site : Site) (a : Nat) : List (List Nat × MemAct) :=
  (wholes F.n (decide (F.ord ≠ 0))).map (fun p =>
    ([k], .store site (a + p.1) (((regBytes th F.vt.toNat F.regs).drop p.1).take p.2)))

/-- The atomics (R171, R174): whether 64 bits wide, whether old is returned, and the fields. -/
def atomForm : Instr → Option (Bool × Bool × BitVec 7 × BitVec 7 × BitVec 4 × BitVec 3 × BitVec 2)
  | .atom32 _ vd va op scope ord => some (false, true, vd, va, op, scope, ord)
  | .atom64 _ vd va op scope ord => some (true, true, vd, va, op, scope, ord)
  | .red _ vd va op scope ord => some (false, false, vd, va, op, scope, ord)
  | _ => none

/-- What an atomic reads and writes: the address pair, x at vd, for CAS n after it, and vd itself where old is
returned (R172, R173). -/
def atomUse (wide ret : Bool) (vd va : BitVec 7) (op : BitVec 4) : Use :=
  let w := if wide then 2 else 1
  { Use.plain with
    a := addrRegs va, b := natRange vd.toNat (if op == 9 then 2 * w else w)
    dst := if ret then natRange vd.toNat w else [], roleB := true, la := true }

/-- The row instructions (R176): the registers of the row and local addresses, whether the row is written, and the
operation. -/
def rowForm : Instr → Option (BitVec 7 × BitVec 7 × Bool × (RowRef → LocRef → MemAct))
  | .ldrowNear _ va vb => some (va, vb, false, fun r l => .rowRead true r l)
  | .ldrowHome _ va vb => some (va, vb, false, fun r l => .rowRead false r l)
  | .strow _ va vb => some (va, vb, true, fun r l => .rowWrite 0 r l)
  | .raddBf16 _ va vb => some (va, vb, true, fun r l => .rowWrite 1 r l)
  | .raddF32 _ va vb => some (va, vb, true, fun r l => .rowWrite 2 r l)
  | .rmaxBf16 _ va vb => some (va, vb, true, fun r l => .rowWrite 3 r l)
  | _ => none

/-- The requests of a cluster for the bytes that satisfy `P` (R260): one for each sector with such a byte that its
Larder does not hold, but for the sectors already on their way. -/
def Fetches (s : State) (cl : Nat) (ro : Bool) (P : Nat → Prop) (acts : List (List Nat × MemAct)) : Prop :=
  ∃ xs : List Nat, acts = xs.map (fun x => ([], .fill x ro)) ∧ xs.Nodup ∧
    ∀ x, x ∈ xs ↔ x % 32 = 0 ∧ s.fillPending cl x = false ∧
      ∃ y, P y ∧ y / 32 = x / 32 ∧ (s.cluster cl).cache.find y = none

/-- Operations have joined those under way, with identifiers of their own, and nothing else has changed. -/
def Joined (s t : State) (cl ten : Nat) (acts : List (List Nat × MemAct)) : Prop :=
  ∃ ops : List MemOp, t = { s with inflight := s.inflight ++ ops, nextId := s.nextId + ops.length } ∧
    ops.map (fun o => (o.members, o.act)) = acts ∧ ops.map (·.id) = (List.range ops.length).map (s.nextId + ·) ∧
    ∀ o ∈ ops, o.cluster = cl ∧ o.tenant = ten ∧ o.deps = []

/-- The bytes that an atomic in the Larder fetches when it has not got them: its own, in a private slab in words 32 bytes
apart (R263); and of global data the whole line when no byte of it is held (R171). -/
def atomicBytes (c : Cluster) (a : Nat) (wide : Bool) (y : Nat) : Prop :=
  let none := ∀ z, z / 128 = a / 128 → c.cache.find z = none
  if 2 ^ 52 ≤ a then (a ≤ y ∧ y < a + 4) ∨ (wide = true ∧ a + 32 ≤ y ∧ y < a + 36)
  else (none ∧ y / 128 = a / 128) ∨ (¬none ∧ a ≤ y ∧ y < a + if wide then 8 else 4)

/-- The place of byte `o` of the private window of thread `k`: the offset of R263 in its group's slab, which lies at
addresses of its own (assumption 98). -/
def slabByte (k o : Nat) : Nat := 2 ^ 52 + 2 ^ 40 * (k / 8) + ((o / 4 * 8 + k % 8) * 4 + o % 4)

/-- Where private data is performed: in the Larder, or at home when the cluster has no CACHE-mode bank (R260). -/
def slabSite (s : State) (b : Nat) : Site := if (s.cluster (s.clusterOfBlock b)).hasCache then .larder else .home

/-! ### Uniform words -/

/-- The core cycle under way executes the uniform word `u` next, on the uniform pipe, for members that are there,
each once, of a resident block and its group. -/
structure StartsUni (s : State) (u : Issue) (g : Group) (b : Block) : Prop where
  head : s.unit = some u
  port : u.port = 2
  once : u.lanes.Nodup
  here : ∀ k ∈ u.lanes, ∃ th, s.threads.find k = some th
  group : s.groups.find u.group = some g
  block : s.blocks.find u.block = some b

/-- The registers of a uniform word pass its checks (R29, R46, R49, R51, R88): each lies below `.uregs` and is full,
and no source is poisoned; a destination s0 needs nothing. -/
structure UniPass (g : Group) (b : Block) (srcs dsts : List Nat) : Prop where
  inside : ∀ r ∈ srcs ++ dsts, r ≠ 0 → r < b.packet.uregs
  zero : 0 ∈ srcs → 0 < b.packet.uregs
  full : ∀ r ∈ srcs ++ dsts, r ≠ 0 → (g.sreg r).full = true
  clean : ∀ r ∈ srcs, (g.sreg r).poison = false

/-- The members of the word each take a part, and no other thread changes. -/
def Members (s : State) (u : Issue) (P : Nat → Thread → Thread → Prop) (t : State) : Prop :=
  (∀ k ∈ u.lanes, ∀ th, s.threads.find k = some th → ∃ th', t.threads.find k = some th' ∧ P k th th') ∧
  ∀ k, k ∉ u.lanes → t.threads.find k = s.threads.find k

/-- The word has executed once for its arrival set: every member goes on at `pc`, the group stands as `g'`, and
nothing else changes but the cycle under way and what a report to the debugger changes. -/
structure UniRan (s : State) (u : Issue) (pc : Word64) (g' : Group) (t : State) : Prop where
  members : Members s u (fun _ th th' => Moved pc th th') t
  group : t.groups.find u.group = some g'
  others : ∀ j, j ≠ u.group → t.groups.find j = s.groups.find j
  rest : t = { s with
    threads := t.threads, groups := t.groups, cyc := t.cyc, desk := t.desk, io := t.io, freeCtr := t.freeCtr }
  quiet : s.dbgOn = false → t.desk = s.desk ∧ t.io = s.io ∧ t.freeCtr = s.freeCtr
  cycle : t.cyc = s.cyc.map (fun c => c.finish u u.lanes 0)

/-- A uniform register's value. -/
def Group.val (g : Group) (r : BitVec 8) : Word32 := (g.sreg r.toNat).val

/-- The 64-bit value of a uniform pair from register `r` on. -/
def Group.val64 (g : Group) (r : Nat) : Word64 := (g.sreg (r + 1)).val ++ (g.sreg r).val

/-- Uniform register `sd` of a group is written, full and clean, unless it is s0, which discards the write. -/
def WroteS (sd : Nat) (v : Word32) (g g' : Group) : Prop :=
  (∀ r, g'.sreg r = if r = sd ∧ r ≠ 0 then ⟨v, true, false⟩ else g.sreg r) ∧ g' = { g with sregs := g'.sregs }

/-- R204, R205: the sources, the destination and the value of the uniform arithmetic. -/
def uniForm : Instr → Option (List Nat × BitVec 8 × (Group → Word32))
  | .uadd _ sd sa sb => some ([sa.toNat, sb.toNat], sd, fun g => g.val sa + g.val sb)
  | .usub _ sd sa sb => some ([sa.toNat, sb.toNat], sd, fun g => g.val sa - g.val sb)
  | .uand _ sd sa sb => some ([sa.toNat, sb.toNat], sd, fun g => g.val sa &&& g.val sb)
  | .uor _ sd sa sb => some ([sa.toNat, sb.toNat], sd, fun g => g.val sa ||| g.val sb)
  | .uxor _ sd sa sb => some ([sa.toNat, sb.toNat], sd, fun g => g.val sa ^^^ g.val sb)
  | .umul _ sd sa sb =>
    some ([sa.toNat, sb.toNat], sd, fun g => BitVec.ofInt 32 ((g.val sa).toInt * (g.val sb).toInt))
  | .umin _ sd sa sb =>
    some ([sa.toNat, sb.toNat], sd, fun g => if (g.val sa).toInt ≤ (g.val sb).toInt then g.val sa else g.val sb)
  | .umax _ sd sa sb =>
    some ([sa.toNat, sb.toNat], sd, fun g => if (g.val sa).toInt ≤ (g.val sb).toInt then g.val sb else g.val sa)
  | .uaddi _ sd sa imm => some ([sa.toNat], sd, fun g => g.val sa + imm.signExtend 32)
  | .ushi _ sd sa kind n => some ([sa.toNat], sd, fun g =>
      if kind = 0 then g.val sa <<< n
      else if kind = 1 then g.val sa >>> n
      else if kind = 2 then BitVec.sshiftRight' (g.val sa) n
      else (g.val sa ++ g.val sa).extractLsb' n.toNat 32)
  | .umovi _ sd imm => some ([], sd, fun _ => imm.signExtend 32)
  | .umovh _ sd imm => some ([sd.toNat], sd, fun g => imm ++ (g.val sd).extractLsb' 0 16)
  | _ => none

/-- The conditions of UCMP (R206): EQ, NE, LT, GE, LTU, GEU. -/
def compared (cc : BitVec 5) (a b : Word32) : Bool :=
  match cc.toNat with
  | 0 => decide (a = b)
  | 1 => decide (a ≠ b)
  | 2 => decide (a.toInt < b.toInt)
  | 3 => decide (b.toInt ≤ a.toInt)
  | 4 => decide (a.toNat < b.toNat)
  | _ => decide (b.toNat ≤ a.toNat)

/-- A uniform special register other than LREM, for a group of a block (R208). -/
def uniSpecialOf (s : State) (g : Group) (b : Block) (gk : Nat) (n : Nat) : Word64 :=
  match n with
  | 0 => (s.core g.core).cycle
  | 1 => (s.core g.core).etime
  | 2 => BitVec.ofNat 64 g.core
  | 3 => BitVec.ofNat 64 b.cluster
  | 4 => BitVec.ofNat 64 (b.cluster / 24)
  | 5 => BitVec.ofNat 64 s.self
  | 6 => BitVec.ofNat 64 b.tenant
  | 7 => BitVec.ofNat 64 b.lin
  | 8 => BitVec.ofNat 64 b.launch
  | 9 => BitVec.ofNat 64 (gk % 2048)
  | 10 => g.gtag.setWidth 64
  | 11 => BitVec.ofNat 64 (((List.range 16).map (fun i => if (g.hatch i).poison then 2 ^ i else 0)).sum)
  | _ => 0

/-- An engine instruction (R220): its registers, its class, whether rows are read at home, and the checks of its
parameters. -/
def engineForm (s : State) : Instr → Option (BitVec 8 × BitVec 8 × Nat × Bool × (List Word32 → Block → List (Nat × Bool)))
  | .pan _ sp sr => some (sp, sr, 0, false, fun p b => panChecks p b.packet.lscr)
  | .grn _ sp sr => some (sp, sr, 1, false, fun p b => grnChecks p b.packet.lscr)
  | .cpy _ sp sr => some (sp, sr, 2, false, fun _ _ => [])
  | .gatNear _ sp sr => some (sp, sr, 3, false, fun p b =>
      rowsChecks p b.packet.lscr false (((s.tenant b.tenant).rowEntry (par64 p 1)).map (·.2)))
  | .gatHome _ sp sr => some (sp, sr, 3, true, fun p b =>
      rowsChecks p b.packet.lscr false (((s.tenant b.tenant).rowEntry (par64 p 1)).map (·.2)))
  | .sct _ sp sr => some (sp, sr, 4, true, fun p b =>
      rowsChecks p b.packet.lscr true (((s.tenant b.tenant).rowEntry (par64 p 1)).map (·.2)))
  | .fab _ sp sr => some (sp, sr, 5, false, fun p b => fabChecks p b.packet.lscr b.packet.cscr)
  | _ => none

/-! ### The end of a core cycle -/

/-- A thread's wait count after a cycle that found it at `w` (R47): 0 once it has issued; up by 1, to 65,535 at most, when
it waited at a lane instruction in a cycle in which lane threads issued, or at a uniform instruction; else `w`. -/
def Cyc.waitAfter (c : Cyc) (k w : Nat) : Nat :=
  if k ∈ c.issued ++ c.uissued then 0
  else if (c.issued ≠ [] ∧ k ∈ c.laneWait) ∨ k ∈ c.uniWait then Nat.min 65535 (w + 1)
  else w

/-- Hatch `h` of group `g` after a cycle's operations on it (R132, R209): the put of the highest order number wins and
fills it; without a put a take empties it; a HPOIS leaves it full and poisoned. -/
def HatchAfter (c : Cyc) (g h : Nat) (r r' : Reg) : Prop :=
  (∀ n v, .put g h n v ∈ c.hops → (∀ m w, .put g h m w ∈ c.hops → m < n ∨ (m = n ∧ w = v)) →
    r' = ⟨v, true, decide (.poison g h ∈ c.hops)⟩) ∧
  ((∀ n v, .put g h n v ∉ c.hops) → r' =
    if .poison g h ∈ c.hops then { r with full := true, poison := true }
    else if .take g h ∈ c.hops then { r with full := false }
    else r)

/-- What a BLOCKED thread waits for has come about, for the waits that depend on the machine's state alone: full
registers (R46, R49, R50), room in a FIFO (R168), a free range or entry of the scoreboard (R179), room in the engine queue
(R220), the segmenter's answer (R231), a counter (R239). -/
def CameTrue (s : State) (k : Nat) (th : Thread) (g : Group) : Wait → Prop
  | .regs ls us => (∀ r ∈ ls, (th.reg r).full = true) ∧ ∀ r ∈ us, (g.sreg r).full = true
  | .fifoPush i => (s.fifo (s.clusterOfBlock (blockOf k)) i).length < 32768 ∨
      (s.cluster (s.clusterOfBlock (blockOf k))).bankMode i ≠ 2
  | .range core lo hi write => s.rangeHeld (blockOf k) core lo hi write = false
  | .entry => (s.cluster (s.clusterOfBlock (blockOf k))).rsb.length < 64
  | .queue => (s.cluster (s.clusterOfBlock (blockOf k))).engQ.length < 64
  | .segmenter => ∃ q ∈ (s.cluster (s.clusterOfBlock (blockOf k))).segReqs,
      q.group = groupOf k ∧ q.pc = th.pc ∧ q.answer.isSome = true
  | .counter cls n => g.counter cls ≤ n
  | _ => False

/-- The waits that `CameTrue` speaks of. -/
def Wait.plain : Wait → Bool
  | .regs _ _ | .fifoPush _ | .range .. | .entry | .queue | .segmenter | .counter _ _ => true
  | _ => false

/-! ### Events -/

/-- The event of an operation is due: the operation is under way, and every operation that it follows is done. -/
def Due (s : State) (id : Nat) (o : MemOp) : Prop := s.opById id = some o ∧ s.opReady o = true

/-- The word of an operation's result that goes to register `q` of thread or group `k`, if one does. -/
def Dest.word (d : Dest) (lane : Bool) (k q : Nat) : Option Nat :=
  match d, lane with
  | .lanes j r n, true => if k = j ∧ r ≤ q ∧ q < r + n then some (q - r) else none
  | .unis j r n, false => if k = j ∧ r ≤ q ∧ q < r + n ∧ q ≠ 0 then some (q - r) else none
  | _, _ => none

/-- `t` is `s` with the destination full of the words, poisoned if `p`; every other register of every thread and
group, and everything else, stands as before. -/
structure Filled (s t : State) (d : Dest) (p : Bool) (words : List Word32) : Prop where
  rest : t = { s with threads := t.threads, groups := t.groups }
  lanes : ∀ k th, s.threads.find k = some th → ∃ th', t.threads.find k = some th' ∧
    th' = { th with regs := th'.regs } ∧
    ∀ q, th'.reg q = match d.word true k q with
      | some i => ⟨words.getD i 0, true, p⟩
      | none => th.reg q
  unis : ∀ k g, s.groups.find k = some g → ∃ g', t.groups.find k = some g' ∧
    g' = { g with sregs := g'.sregs } ∧
    ∀ q, g'.sreg q = match d.word false k q with
      | some i => ⟨words.getD i 0, true, p⟩
      | none => g.sreg q

/-- What an atomic leaves for the value `old` and its operands, at `w` bits (R172, R173): a CAS that fails leaves
`old`. The floating-point operations are those of 32 bits. -/
def atomNew (w op : Nat) (old x n : Nat) : Nat :=
  let signed := fun (v : Nat) => if v < 2 ^ (w - 1) then (v : Int) else (v : Int) - 2 ^ w
  match op with
  | 0 => (old + x) % 2 ^ w
  | 1 => old &&& x
  | 2 => old ||| x
  | 3 => old ^^^ x
  | 4 => if signed x < signed old then x else old
  | 5 => if signed old < signed x then x else old
  | 6 => Nat.min old x
  | 7 => Nat.max old x
  | 8 => x
  | 9 => if old = x then n else old
  | 12 => if x ≤ old then 0 else (old + 1) % 2 ^ w
  | 13 => if old = 0 ∨ x < old then x else old - 1
  | 10 => fp32.encode .rne (fpSum .rne [fp32.decode old, fp32.decode x])
  | 11 => (List.range 2).foldl (fun v e => v + 2 ^ (16 * e) *
      bf16.encode .rne (fpSum .rne [bf16.decode (old / 2 ^ (16 * e) % 2 ^ 16), bf16.decode (x / 2 ^ (16 * e) % 2 ^ 16)])) 0
  | 14 => minMax fp32 false old x
  | 15 => minMax fp32 true old x
  | _ => old

/-- The byte at `x` after `data` has been stored from `a` on, where it was `old`. -/
def stored (a : Nat) (data : List Byte) (x : Nat) (old : Byte) : Byte :=
  if a ≤ x ∧ x < a + data.length then data.getD (x - a) 0 else old

/-- Home holds, after a Larder has written back the dirty bytes that satisfy `P`, those bytes, and elsewhere what
it held: device memory, and the private slabs at their own addresses (assumption 98). -/
def WrittenBack (s t : State) (cl : Nat) (P : Nat → Prop) : Prop :=
  ∀ x, (memBase ≤ x ∧ x < memEnd) ∨ 2 ^ 52 ≤ x →
    (∀ b, (s.cluster cl).cache.find x = some (b, true) → P x → Memory.read t.mem x = b) ∧
    (¬(∃ b, (s.cluster cl).cache.find x = some (b, true) ∧ P x) → Memory.read t.mem x = Memory.read s.mem x)

/-- A sector has arrived at a Larder (R262): the bytes that it does not hold come, clean, and poisoned where `bad` says so;
those that it holds, and every other byte, stand as before. -/
structure SectorIn (c c' : Cluster) (sector : Nat) (data : List Byte) (bad : Nat → Prop) : Prop where
  held : ∀ x, c.cache.find x ≠ none → c'.cache.find x = c.cache.find x ∧ c'.cachePoisoned x 1 = c.cachePoisoned x 1
  outside : ∀ x, (x < sector ∨ sector + 32 ≤ x) → c'.cache.find x = c.cache.find x
  came : ∀ x, sector ≤ x → x < sector + 32 → c.cache.find x = none →
    c'.cache.find x = some (data.getD (x - sector) 0, false) ∧ (c'.cachePoisoned x 1 = true ↔ bad x)

/-- The place of a queue's next record: BASE + 64 × (PROD mod 2^LOG2N) (R307). -/
def State.recordPlace (s : State) (q : Nat) : Nat :=
  (s.tenant q).fqbase + 64 * ((s.tenant q).prod % 2 ^ (s.tenant q).log2n)

/-- The queue can take a record now (R307): nothing waits before it, none is on its way to the host, and there is room. -/
def State.QueueOpen (s : State) (q : Nat) : Prop :=
  (s.tenant q).waiting = [] ∧ (s.tenant q).writing = none ∧ (s.tenant q).fqen = true ∧
    (s.tenant q).pending < 2 ^ (s.tenant q).log2n

/-- A record is posted to a queue (R307): it takes the queue's next TAG; where the queue can take it, its 64 bytes are
written at the place of PROD, and PROD advances, or in the host window waits for the write to be complete (R333);
otherwise the record waits as the last, and WAITED is set where the queue has no room for it. -/
structure Recorded (s t : State) (q : Nat) (r : FaultRec) : Prop where
  count : (t.tenant q).recs = (s.tenant q).recs + 1
  written : s.QueueOpen q → inHostWindow (s.recordPlace q) = false →
    (t.tenant q).prod = ((s.tenant q).prod + 1) % 2 ^ 17 ∧
    (memBase ≤ (s.tenant q).fqbase → (s.tenant q).fqbase + 64 * 2 ^ (s.tenant q).log2n ≤ memEnd →
      Memory.readBytes t.mem (s.recordPlace q) 64 = FaultRec.bytes { r with tag := (s.tenant q).recs % 2 ^ 24 })
  posted : s.QueueOpen q → inHostWindow (s.recordPlace q) = true →
    (t.tenant q).prod = (s.tenant q).prod ∧ t.mem = s.mem ∧
    ∃ id, (t.tenant q).writing = some id ∧
      ∃ o ∈ t.inflight, o.id = id ∧ o.act = .hostFlush (s.recordPlace q - hostBase)
  waits : ¬s.QueueOpen q →
    (t.tenant q).waiting = (s.tenant q).waiting ++ [{ r with tag := (s.tenant q).recs % 2 ^ 24 }] ∧ t.mem = s.mem ∧
    ((t.tenant q).waited = true ↔ (s.tenant q).waited = true ∨ (s.tenant q).fqen = false ∨
      2 ^ (s.tenant q).log2n ≤ (s.tenant q).pending + (s.tenant q).waiting.length +
        (if (s.tenant q).writing = none then 0 else 1))

/-- A record is posted and opened for an answer (R308). -/
structure Reported (s t : State) (q : Nat) (r : FaultRec) (what : Answerable) : Prop extends Recorded s t q r where
  opened : ∃ o, t.desk.open_ = s.desk.open_ ++ [o] ∧ o.queue = q ∧ o.tag = (s.tenant q).recs % 2 ^ 24 ∧
    o.kind = r.kind ∧ o.what = what

/-- A record names a block and no group of it (R354): LAUNCH and BLOCK, with SET = 1 and GROUP, GTAG and PC 0. -/
def NamesBlock (s : State) (b : Nat) (r : FaultRec) : Prop :=
  r.group = 0 ∧ r.gtag = 0 ∧ r.pc = 0 ∧ r.lane = 0 ∧
    ∀ x, s.blocks.find b = some x → r.set = true ∧ r.launch = x.launch ∧ r.block = x.lin

/-- The issuing block has been killed for a parameter fault (R222, R316): it and its threads are gone, a record of
kind 10 with cause 3 names its group, the unit, the major opcode and the failing word, and then its launch counts it as
failed (R317). -/
def ParamFault (s t : State) (u : Issue) (b : Block) (word : Nat) : Prop :=
  t.blocks.find u.block = none ∧ (∀ k, k / 16384 = u.block → t.threads.find k = none) ∧
  ∃ m m' r, m.tenant b.tenant = s.tenant b.tenant ∧ Recorded m m' b.tenant r ∧
    t = { m'.blockDone b.launch true with cyc := t.cyc } ∧ r.kind = 10 ∧ r.info = 3 ∧
    r.info2 = ((u.word.extractLsb' 24 5).setWidth 64 ||| BitVec.ofNat 64 (256 * word)) ∧ r.pc = u.pc ∧
    r.group = u.group % 2048 ∧ r.ten = b.tenant ∧ r.launch = b.launch ∧ r.block = b.lin

/-- The log has received an entry, and with it at most the interrupt of source 24 (R334). -/
def Logged (s t : State) (l : LogEntry) : Prop :=
  ∃ more, t.desk.log = s.desk.log ++ l :: more ∧
    t = { s with desk := { s.desk with log := t.desk.log }, io := t.io, freeCtr := t.freeCtr }

/-- An access to a register has discarded at most register halves that a requester held or had latched (R7). -/
def Cleared (s m : State) : Prop :=
  m = { s with desk := { s.desk with heldLow := m.desk.heldLow, latched := m.desk.latched } }

/-- A write that a register's own rule refuses: nothing but the log changes. -/
def RefusedWrite (s t : State) (off : Nat) : Prop := ∃ m, Cleared s m ∧ Logged m t (.regRefused off)

/-! ### What the engines compute -/

/-- The Larder scratch offset of byte `j` of row `i` of tile `t` of the operand whose descriptor is words `w` and `w` + 1
of a parameter block (R223). -/
def descByte (p : List Word32) (w t i j : Nat) : Nat :=
  let base := (par p w).toNat % 2 ^ 23
  let r := (par p w).toNat / 2 ^ 29
  let o := base + 64 * ((par p (w + 1)).toNat / 2 ^ 16) * t + (par p (w + 1)).toNat % 2 ^ 16 * i
  if r = 0 then o + j else o + 512 * (j / 64 / 8) + 64 * ((j / 64 + r * i) % 8) + j % 64

/-- The writes of a step of an engine: the word that `v` gives for each row below `rows` and each column in `cols`, at
`place`, and nothing else. -/
def ElementWrites (ws : List (Nat × List Byte)) (rows : Nat) (cols : Nat → Prop) (place : Nat → Nat → Nat)
    (v : Nat → Nat → Option Word32) : Prop :=
  ∀ a data, (a, data) ∈ ws ↔ ∃ m n w, m < rows ∧ cols n ∧ v m n = some w ∧ a = place m n ∧ data = leBytes w.toNat 4

/-- One step of a PAN (R73 to R78, R225, R226, R296): the block's scratch, the parameter block, pass, panel, and the weight
byte `wb` of a column of the panel and a byte of the column. -/
structure PanTile where
  x     : Block
  p     : List Word32
  pass  : Nat
  panel : Nat
  wb    : Nat → Nat → Nat

/-- M. -/
def PanTile.rows (t : PanTile) : Nat := 64 * 2 ^ ((par t.p 0).toNat / 2 ^ 26 % 4)
/-- N. -/
def PanTile.width (t : PanTile) : Nat := 16 * ((par t.p 0).toNat / 2 ^ 20 % 64)
/-- Columns of the panel below N. -/
def PanTile.here (t : PanTile) : Nat := Nat.min 256 (t.width - 256 * t.panel)
/-- Bytes of a column that the pass uses: half of them under ACT16. -/
def PanTile.depth (t : PanTile) : Nat := if (par t.p 0).getLsbD 3 then 32 else 64
/-- The skip-map entry of the pass and the panel (R74). -/
def PanTile.entry (t : PanTile) : Nat :=
  leNat (Memory.readBytes t.x.lmem ((par t.p 9).toNat + 8 * (t.pass * ((t.width + 255) / 256) + t.panel)) 8)
/-- The strip of a byte is skipped in the column group of its column (R74, R298). -/
def PanTile.skip (t : PanTile) (n j : Nat) : Bool := t.entry.testBit (8 * (j / 16) + n / 32)
/-- The pass's record of the activation-scale table (R75). -/
def PanTile.scales (t : PanTile) : Nat := (par t.p 7).toNat + t.pass * (33 * t.rows / 8)
/-- The row-zero mask of a row (R75). -/
def PanTile.masked (t : PanTile) (m : Nat) : Bool := (t.x.byte (t.scales + 4 * t.rows + m / 8)).testBit (m % 8)
/-- The activation of a row and a K row of the pass (R75). -/
def PanTile.act (t : PanTile) (m k : Nat) : Int :=
  let b := fun j => t.x.byte (descByte t.p 1 t.pass m j)
  if (par t.p 0).getLsbD 3 then (BitVec.ofNat 16 (b (2 * k) + 256 * b (2 * k + 1))).toInt else (BitVec.ofNat 8 (b k)).toInt
/-- Where C of a row and a column of the panel lies. -/
def PanTile.place (t : PanTile) (m n : Nat) : Nat := descByte t.p 5 0 m (4 * (256 * t.panel + n))
/-- The exact sum of R78: digit i of byte j of a column stands at K row 5j + i (R71, R73). -/
def PanTile.sum (t : PanTile) (m n : Nat) : Int :=
  ((List.range t.depth).map (fun j => if t.skip n j then 0 else
    ((List.range 5).map (fun i => t.act m (5 * j + i) * (((t.wb n j / 3 ^ i % 3 : Nat) : Int) - 1))).sum)).sum
/-- The word that the step leaves in C, where it writes one (R78, R296). -/
def PanTile.value (t : PanTile) (m n : Nat) : Option Word32 :=
  let init := t.pass == 0 && (par t.p 0).getLsbD 0
  let narrow := t.pass + 1 == (par t.p 0).toNat / 2 ^ 12 % 256 && (par t.p 0).getLsbD 1
  let bf := fun (w : Word32) => BitVec.ofNat 32 (65536 * rnBf16 (f32 w))
  let old := t.x.word (t.place m n)
  if t.entry.testBit 32 || t.masked m then (if init then some 0 else if narrow then some (bf old) else none)
  else
    let sw := t.x.word ((par t.p 8).toNat + 4 * (t.pass * t.width + 256 * t.panel + n))
    let prod := (Fp.ofInt (t.sum m n)).mul (f32 (rn .rne ((f32 (t.x.word (t.scales + 4 * m))).mul (f32 sw))))
    let c := if init then rn .rne prod else rn .rne (fpSum .rne [prod, f32 old])
    some (if narrow then bf c else c)

/-- The balanced tree of R80 over exact products: level 0 rounds the sums of pairs of products, and each further level the
sums of pairs of the level before. -/
def treeSum (q : Nat → Fp) : Nat → Nat → Word32
  | 0, j => rn .rne (fpSum .rne [q (2 * j), q (2 * j + 1)])
  | l + 1, j => rn .rne (fpSum .rne [f32 (treeSum q l (2 * j)), f32 (treeSum q l (2 * j + 1))])

/-- `m` × 2^`e` is above 448 × 2^`t`. -/
def Above448 (m : Nat) (e t : Int) : Prop := 448 * 2 ^ (t - min e t).toNat < m * 2 ^ (e - min e t).toNat

/-- The scale of R81 for 128 values is 2^`t`: `t` is 0 where no finite value differs from 0, and else the least exponent for
which no finite value is above 448 × 2^`t`. -/
def ScaleExp (f : Nat → Fp) (t : Int) : Prop :=
  ((∀ k ng m e, k < 128 → f k = .fin ng m e → m = 0) → t = 0) ∧
  ((∃ k ng m e, k < 128 ∧ f k = .fin ng m e ∧ m ≠ 0) →
    (∀ k ng m e, k < 128 → f k = .fin ng m e → ¬Above448 m e t) ∧
    ∃ k ng m e, k < 128 ∧ f k = .fin ng m e ∧ Above448 m e (t - 1))

/-- A value divided by 2^`t`. -/
def Fp.shrink (x : Fp) (t : Int) : Fp :=
  match x with
  | .fin n m e => .fin n m (e - t)
  | y => y

/-- The scale of R82 for 320 values: 1 where no finite value differs from 0, and else the greatest finite magnitude over
127, rounded. -/
def ScaleWord (f : Nat → Fp) (w : Word32) : Prop :=
  ((∀ k ng m e, k < 320 → f k = .fin ng m e → m = 0) → w = 0x3F800000) ∧
  (∀ k ng m e, k < 320 → f k = .fin ng m e → m ≠ 0 →
    (∀ j g n d, j < 320 → f j = .fin g n d → fpLt (.fin false m e) (.fin false n d) = false) →
    w = rn .rne ((Fp.fin false m e).div (.fin false 127 0)))

/-! ### The scheduling tree -/

/-- An item as it stands in a sluice or leaf, but for its staging. -/
def QItem.view (q : QItem) : List (BitVec 16) × Owner × Nat × BitVec 16 × Place × Bool :=
  (q.item.f, q.item.owner, q.item.p0, q.rank, q.place, q.hold)

/-- An item with a rank has entered a sluice or leaf, and the items that stood there keep their order around it
(R281): a pre-empting one behind pre-empting ones alone, a normal one behind them and the normal ones of smaller
or equal key, and one whose key is 2^15 or more as the last, which sets RWF. -/
structure Entered (s t : State) (n : Nat) (it : Item) (rank : BitVec 16) : Prop where
  place : ∃ pre post q, (s.sluice n).items = pre ++ post ∧ q.item = it ∧ q.rank = rank ∧
    (t.sluice n).items.map QItem.view = (pre ++ q :: post).map QItem.view ∧
    (q.place = .preempt → ∀ x ∈ pre, x.place = .preempt) ∧
    (q.place = .normal → (rank - (s.sluice n).b).toNat < 32768 ∧
      (∀ x ∈ pre, x.place = .preempt ∨
        (x.place = .normal ∧ (x.rank - (s.sluice n).b).toNat ≤ (rank - (s.sluice n).b).toNat)) ∧
      ∀ y, post.head? = some y → y.place ≠ .preempt ∧
        (y.place = .normal → (rank - (s.sluice n).b).toNat < (y.rank - (s.sluice n).b).toNat)) ∧
    (q.place = .oversize → post = [] ∧ 32768 ≤ (rank - (s.sluice n).b).toNat ∧ (t.sluice n).rwf = true)
  base : (t.sluice n).b = (s.sluice n).b
  rest : t = { s with tree := t.tree, clusters := t.clusters }
  others : ∀ j, j ≠ n → t.sluice j = s.sluice j

/-- A sluice or leaf has been popped: its head is gone, B is the head's rank, and nothing else has changed. -/
structure Popped (s m : State) (n : Nat) (q : QItem) (rest : List QItem) : Prop where
  was : (s.sluice n).items = q :: rest
  now : m.sluice n = { s.sluice n with items := rest, b := q.rank, popped := true }
  others : ∀ j, j ≠ n → m.sluice j = s.sluice j
  frame : m = { s with tree := { s.tree with sluices := m.tree.sluices } }

/-! ### The fabric and the host -/

/-- The device has sent a packet of the Hall's own (R26, R326, R327): none goes to an absent device; one that may be issued
takes the next number of its destination, is held, and goes out; any other waits. `tag` says what waits for its end. -/
structure Told (s t : State) (dest tenant : Nat) (body : FabBody) (tag : PktTag := .none) : Prop where
  absent : s.sec.devLock = true → s.routePort dest = none → t = s
  issued : s.canIssue dest = true → s.routePort dest ≠ none →
    let num := s.io.pktNum.getD dest 0
    let p : FabPacket := ⟨dest, s.self, tenant, num, body⟩
    t = { s with io := t.io, freeCtr := t.freeCtr } ∧
    t.io = { s.io with
      pktNum := s.io.pktNum.put 0 dest ((num + 1) % 65536), held := s.io.held ++ [⟨p, none, 0, tag⟩],
      out := s.io.out ++ [.request p], ports := t.io.ports } ∧
    ∀ j, s.routePort dest ≠ some j → t.port j = s.port j
  waits : s.canIssue dest = false → (s.sec.devLock = false ∨ s.routePort dest ≠ none) →
    t = { s with io := { s.io with waitPkts := s.io.waitPkts ++ [⟨⟨dest, s.self, tenant, 0, body⟩, none, 0, tag⟩] } }

/-- A tenant's request to host memory is made (R333): the bridge issues `r` on PCI Express, unless its link is held down;
another device tells the bridge `body`. -/
def AskedHost (s t : State) (tenant : Nat) (r : PcieReq) (body : BridgeRequest) (tag : PktTag := .none) : Prop :=
  (s.sec.bridge = true → t = { s with io := { s.io with
    pcieOut := if s.sec.locked then s.io.pcieOut else s.io.pcieOut ++ [r] } }) ∧
  (s.sec.bridge = false → Told s t s.io.bridgeDev tenant (.bridge body) tag)

/-- The device has sent these messages: they join those sent before, and their flits join the ports. -/
structure Posted (s t : State) (ms : List FabMsg) : Prop where
  sent : t.io.out = s.io.out ++ ms
  rest : t = { s with io := t.io, freeCtr := t.freeCtr }
  io : t.io = { s.io with out := t.io.out, ports := t.io.ports }

/-- One port has changed, and the counter of free values. -/
def PortOnly (s t : State) (n : Nat) (p : Port) : Prop :=
  t.port n = p ∧ (∀ j, j ≠ n → t.port j = s.port j) ∧
  t = { s with io := { s.io with ports := t.io.ports }, freeCtr := t.freeCtr }

/-- A packet of device `src` has been performed, and is acknowledged with status 0 (R326). -/
def Served (s t : State) (src num : Nat) : Prop :=
  ∃ k : State, k = { s with io := { s.io with performed := k.io.performed } } ∧
    num ∈ k.io.performed.getD src [] ∧ (∀ d, d ≠ src → k.io.performed.getD d [] = s.io.performed.getD d []) ∧
    Posted k t [.ack src s.self num 0]

/-- The newest GEN of an issuer's tenant that the device has seen is this one or a later one (R290). -/
def OldGen (s : State) (issuer tenant : Nat) (gen : Word32) : Prop :=
  match (s.tree.seenGen.find? (fun p => p.1 == issuer && p.2.1 == tenant)).map (·.2.2) with
  | some g => gen.toNat ≤ g.toNat
  | none => gen = 0

/-- GO has made the pending launch of its GEN eligible (R290); without one it does nothing. -/
structure GoTaken (s t : State) (issuer tenant : Nat) (gen : Word32) : Prop where
  absent : (∀ x ∈ s.tree.pendings, x.issuer = issuer → x.tenant = tenant → x.gen ≠ gen) → t = s
  found : ∀ x, s.tree.pendings.find? (fun p => p.issuer == issuer && p.tenant == tenant && p.gen == gen) = some x →
    t = { s with tree := { s.tree with pendings := t.tree.pendings, sluices := t.tree.sluices } } ∧
    t.tree.pendings = s.tree.pendings.filter (fun y => decide (y ≠ x)) ∧
    (t.sluice 0).items = (s.sluice 0).items.map (fun q =>
      if q.item.owner = .launch x.launch then { q with hold := false } else q) ∧
    ∀ n, n ≠ 0 → t.sluice n = s.sluice n

/-- Pending launches of an issuer's tenant, all of them or those of one GEN, have left the root and never run (R290). -/
structure PendingsGone (s t : State) (issuer tenant : Nat) (gen : Option Word32) : Prop where
  left : ∀ y, y ∈ t.tree.pendings ↔
    y ∈ s.tree.pendings ∧ ¬(y.issuer = issuer ∧ y.tenant = tenant ∧ ∀ g, gen = some g → y.gen = g)
  gone : ∀ y ∈ s.tree.pendings, y.issuer = issuer → y.tenant = tenant → (∀ g, gen = some g → y.gen = g) →
    (∀ n, ∀ q ∈ (t.sluice n).items, q.item.owner ≠ .launch y.launch) ∧ ∀ e, t.entry y.launch = some e → e.live = false
  rest : t = { s with tree := { s.tree with
    pendings := t.tree.pendings, sluices := t.tree.sluices, moving := t.tree.moving, entries := t.tree.entries } }

/-- A replicated launch packet has arrived for local tenant `l` (R290): it is dropped by its GEN, refused, or held as a
pending launch; `ans` is what READY answers. -/
structure ReplicaTaken (s m : State) (issuer tenant l : Nat) (data : List Byte) (bound : Word32) (ans : Option Bool) :
    Prop where
  old : OldGen s issuer tenant (BitVec.ofNat 32 (fieldAt data 4 4)) → ans = none ∧ m = s
  newer : ¬OldGen s issuer tenant (BitVec.ofNat 32 (fieldAt data 4 4)) →
    let gen : Word32 := BitVec.ofNat 32 (fieldAt data 4 4)
    ∃ k : State, PendingsGone s k issuer tenant none ∧ (issuer, tenant, gen) ∈ m.tree.seenGen ∧
      (∀ p ∈ m.tree.seenGen, p.1 = issuer → p.2.1 = tenant → p.2.2 = gen) ∧
      (((∃ st, checkPacket data = .error st) ∨
          (∃ p, checkPacket data = .ok p ∧ (s.cancelledAbove 4 p.parent = true ∨ (s.tenant l).trBusy = true))) →
        ans = some false ∧ m = { k with tree := { k.tree with seenGen := m.tree.seenGen } }) ∧
      (∀ p, checkPacket data = .ok p → s.cancelledAbove 4 p.parent = false → (s.tenant l).trBusy = false →
        ans = some true ∧ m.tree.pendings = k.tree.pendings ++ [⟨issuer, tenant, gen, s.tree.nextEntry⟩] ∧
        m.tree.nextEntry = s.tree.nextEntry + 1 ∧ m.io = s.io ∧ m.mem = s.mem ∧ m.threads = s.threads ∧
        (∃ e, m.entry s.tree.nextEntry = some e ∧ e.live = true ∧ e.packet = some p ∧ e.tenant = l ∧ e.bound = bound) ∧
        ∃ q ∈ (m.sluice 0).items, q.item.owner = .launch s.tree.nextEntry ∧ q.hold = true)

/-- The issuer of a replicated launch has ended it (R290): GO or DROP goes to every device of the set, itself included,
and the request behind it completes with 0 or 3. -/
def ReplicaEnded (s t : State) (r : Replica) (go : Bool) : Prop :=
  ∃ f : Nat → State,
    f 0 = { s with tree := { s.tree with replicas := s.tree.replicas.filter (fun x => decide (x ≠ r)) } } ∧
    (∀ j, j < r.set.length →
      (r.set.getD j 0 = s.self →
        (go = true → GoTaken (f j) (f (j + 1)) s.self r.tenant r.gen) ∧
        (go = false → PendingsGone (f j) (f (j + 1)) s.self r.tenant (some r.gen))) ∧
      (r.set.getD j 0 ≠ s.self →
        Told (f j) (f (j + 1)) (r.set.getD j 0) r.tenant (if go then .go r.gen else .drop r.gen))) ∧
    (∀ a tag compl mask, r.path = .aqi a tag compl mask → t = (f r.set.length).completeAqi a r.tenant compl tag
      (if go then 0 else 3) (if go then r.launch else 0)) ∧
    ((∀ a tag compl mask, r.path ≠ .aqi a tag compl mask) → t = f r.set.length)

/-- A runner core has taken the one request that an empty queue received: it has started, and nothing else has
changed. -/
structure TakenUp (s m : State) (a : Nat) : Prop where
  busy : m.aqi a = { s.aqi a with queue := [], busy := (s.aqi a).busy + 1 }
  others : ∀ b, b ≠ a → m.aqi b = s.aqi b
  rest : m = { s with io := { s.io with aqis := m.io.aqis }, nextId := s.nextId + 1 }

end Sys2Proof.Machine
end

