-- ==== Sys2Proof/Certificates/Slice0/Obligations.lean ====
section
/-! DEFINITION. The statements for the provers. Each formalises what the rules of the cited files say of an
instruction, an event or the machine. -/

open Sys2Proof Sys2Proof.Machine

/-- Decoding the word of a well-formed instruction gives it back. For every well-formed instruction, every operand
at every value that its encoding admits, the decoder reads the instruction back from the word that the encoder
writes. Cites: spec/07_encoding.md, spec/09_assembly.md. -/
def Obligations.DecodeOfEncode : Prop :=
  ∀ (i : Instr) (w : Word32), WellFormed i → encode i = some w → decodeWord w = some i

/-- A word that decodes is the word of one well-formed instruction. A word that the decoder accepts decodes to a
well-formed instruction, and that instruction is encoded by this word alone: no bit of an accepted word is
ignored, so every word with a nonzero reserved field is refused. Cites: spec/07_encoding.md. -/
def Obligations.EncodeOfDecode : Prop :=
  ∀ (w : Word32) (i : Instr), decodeWord w = some i → WellFormed i ∧ encode i = some w

/-- Words that the encoding chapter works out decode as it says. MOD, FFMA, LD.B32, LIMM, ADDI, UADDI, MUL, EXIT and
ULD.64 words that the spec works out bit by bit decode to those instructions; 0x0000_0000 and 0xFFFF_FFFF are
refused. Cites: spec/07_encoding.md, spec/08_encoding_notes.md, spec/10_assembly_notes.md. -/
def Obligations.DecodeSamples : Prop :=
  decodeWord 0x1E030000 = some (.mod 3 0 0 0 0 0 0) ∧
  decodeWord 0x68840209 = some (.ffma 3 4 1 2) ∧
  decodeWord 0x1205044A = some (.ldB32 0 5 2 0 4 10) ∧
  decodeWord 0x1E891A2B = some (.limm 0x091A2B) ∧
  decodeWord 0x04030678 = some (.addi 0 3 3 0x078) ∧
  decodeWord 0x88050501 = some (.uaddi 0 5 5 1) ∧
  decodeWord 0x42060E00 = some (.mul 2 6 7 0) ∧
  decodeWord 0x1A400000 = some (.exit 0) ∧
  decodeWord 0x8F104024 = some (.uld64 0 4 1 0 4) ∧
  decodeWord 0x00000000 = none ∧ decodeWord 0xFFFFFFFF = none

/-- A step inside a core cycle executes the decoded word of the next unit. While a core cycle is under way, where
the word of its first unit is fetched and decodes to an instruction, the step is exec of that instruction;
around it the step only notes the fetch (the fetch copy and the TLB entries) and, in the unit, the word and its
effective class, the larger of the requested and the minimum class (R86). A unit of a gang that gathered its
operands executes the word that was fetched when the gang was formed (R254; assumption 10). Cites:
spec/07_encoding.md, spec/03_execution.md. -/
def Obligations.StepRunsTheDecodedWord : Prop :=
  ∀ (s : State) (c : Cyc) (u : Issue) (rest : List Issue) (b : Block) (w : Word32) (i : Instr),
    s.cyc = some c → c.todo = u :: rest → s.blocks.find u.block = some b → decodeWord w = some i →
    let c1 := { c with
      todo := { u with word := w, cls := Nat.max (w.extractLsb' 29 2).toNat (minClass i) } :: rest }
    (c.FetchesNow u → s.fetch b.cluster b.tenant u.wordAddr.toNat c.seed = .word w →
      step s = exec i { s.noteFetch b.cluster b.tenant u.wordAddr.toNat c.seed w with cyc := some c1 }) ∧
    (c.Holds u w → step s = exec i { s with cyc := some c1 })

/-- What a fetch answers. A fetch from an address that is not a multiple of 4 traps as misaligned; otherwise,
outside the global range, as an access fault; where the page does not translate with execute permission the
fault is that of the translation; and in device memory, in no poisoned sector, where the cluster holds no other
fetch copy, the word is the four bytes at home, lowest first. Cites: spec/07_encoding.md,
spec/25_memory_model.md, spec/31_faults.md. -/
def Obligations.FetchReadsHome : Prop :=
  ∀ (s : State) (cl ten va seed : Nat),
    (va % 4 ≠ 0 → s.fetch cl ten va seed = .trap 3) ∧
    (va % 4 = 0 → 2 ^ 52 ≤ va → s.fetch cl ten va seed = .trap 4) ∧
    (∀ f, va % 4 = 0 → va < 2 ^ 52 → s.translate cl ten va 4 (Config.free seed) = .fault f →
      s.fetch cl ten va seed = .fault f) ∧
    (∀ pa p1 p2, va % 4 = 0 → va < 2 ^ 52 → s.translate cl ten va 4 (Config.free seed) = .ok pa p1 p2 →
      memBase ≤ pa → pa + 4 ≤ memEnd → s.homePoisoned pa 4 = false → (s.cluster cl).icopy.find pa = none →
      s.fetch cl ten va seed =
        .word (Memory.read s.mem (pa + 3) ++ Memory.read s.mem (pa + 2) ++ Memory.read s.mem (pa + 1) ++ Memory.read s.mem pa))

/-- A refused word and a misaligned fetch trap every thread of the unit. Where the word of the first unit is
fetched, or was when its gang was formed, and is refused by the decoder, the step traps every thread of the unit
with cause 1, TEPC the unit address and TVAL the word; where the fetch traps, with that cause and TVAL the
address of the word. The threads are taken to be outside their handler and the block to have one; no lane
register changes. Cites: spec/07_encoding.md, spec/17_control_instructions.md. -/
def Obligations.WordsThatDoNotExecute : Prop :=
  ∀ (s : State) (c : Cyc) (u : Issue) (rest : List Issue) (b : Block) (cause : Nat) (tval : Word64),
    s.cyc = some c → c.todo = u :: rest → u.lanes.Nodup → s.blocks.find u.block = some b →
    (∀ k ∈ u.lanes, ∃ th, s.threads.find k = some th ∧ Handled s k th) →
    ((∃ w, (c.Holds u w ∨
          (c.FetchesNow u ∧ s.fetch b.cluster b.tenant u.wordAddr.toNat c.seed = .word w)) ∧
        decodeWord w = none ∧ cause = 1 ∧ tval = w.setWidth 64) ∨
      (c.FetchesNow u ∧ s.fetch b.cluster b.tenant u.wordAddr.toNat c.seed = .trap cause ∧ tval = u.wordAddr)) →
    ∃ t, step s = .next t ∧ t.mem = s.mem ∧
      (∀ k ∈ u.lanes, ∀ th, s.threads.find k = some th →
        ∃ th', t.threads.find k = some th' ∧ Trapped cause u.pc tval (s.handlerOf (blockOf k)) th th') ∧
      (∀ k, k ∉ u.lanes → t.threads.find k = s.threads.find k) ∧
      t.cyc = some (c.finish u u.lanes 0)

/-- With no core cycle under way a step is one turn. With no core cycle under way the step takes the first turn that
the state prescribes (the model's own schedule, assumption 7): an event that the machine takes is exec of that
event, one that it does not take changes nothing but the list of turns; at the end of a core cycle's units the
step is exec of CORE_CYCLE of its core. An error of device memory (R16; that it comes as a turn, at any sector,
is the model's choice, assumption 22) counts at the controller of the stack that R256 gives the line, and at no
other, where it is corrected, and else poisons the 32 bytes of its sector and no other byte; the rest stays as
it is. An instruction fetch of a working device that runs ahead copies the word at home for its cluster
(assumption 105); a runner core that stops takes a half-handled record again from the start and does nothing
else (R344, assumption 129); firmware changes the registers of the main core and of a runner core that works,
and nothing else (R14, assumption 125); and the host writes a word of a bridge's MSI-X table, where one that
unmasks an entry lets the message that is pending there leave (R330, assumption 127). Cites: spec/00_scope.md,
spec/01_device.md, spec/07_encoding.md, spec/25_memory_model.md, spec/35_power_security.md. -/
def Obligations.StepTakesItsTurn : Prop :=
  (∀ (s : State) (i : Instr) (rest : List Turn), s.cyc = none → s.turns = .event i :: rest →
      step s = if s.takes i then exec i { s with turns := rest } else .next { s with turns := rest }) ∧
    (∀ (s : State) (c : Cyc), s.cyc = some c → c.todo = [] → step s = exec (.coreCycle c.core) s) ∧
    (∀ (s : State) (pa : Nat) (corrected : Bool) (rest : List Turn), s.cyc = none →
      s.turns = .ecc pa corrected :: rest → memBase ≤ pa → pa < memEnd → ∃ t, step s = .next t ∧
        let ln := (pa - memBase) / 128
        t = { s with turns := rest, eccCount := t.eccCount, poison := t.poison } ∧
        (corrected = true → t.poison = s.poison ∧ ∀ stack, t.eccCount.getD stack 0 = s.eccCount.getD stack 0 +
          if stack = ln % 8 ^^^ ln / 512 % 8 ^^^ ln / 262144 % 8 ^^^ ln / 134217728 % 8 then 1 else 0) ∧
        (corrected = false → t.eccCount = s.eccCount ∧
          ∀ a, a ∈ t.poison ↔ a ∈ s.poison ∨ a / 32 = pa / 32)) ∧
    (∀ (s : State) (cl pa : Nat) (rest : List Turn), s.cyc = none → s.turns = .fetchCopy cl pa :: rest →
      s.sec.locked = false → s.sec.boot = 0 → cl < 96 → memBase ≤ pa → pa + 4 ≤ memEnd → pa % 4 = 0 →
      s.homePoisoned pa 4 = false → ∃ t, step s = .next t ∧ t = { s with turns := rest, clusters := t.clusters } ∧
        (∀ c, t.cluster c = if c = cl then { s.cluster cl with icopy := (t.cluster cl).icopy } else s.cluster c) ∧
        ∀ a, (t.cluster cl).icopy.find a = if a = pa
          then some (Memory.read s.mem (pa + 3) ++ Memory.read s.mem (pa + 2) ++ Memory.read s.mem (pa + 1) ++
            Memory.read s.mem pa)
          else (s.cluster cl).icopy.find a) ∧
    (∀ (s : State) (r : Nat) (half : Bool) (rest : List Turn), s.cyc = none → s.turns = .runnerStop r half :: rest →
      r < 6 → ∃ t, step s = .next t ∧
        t = { s with turns := rest, io := { s.io with runners := setAt s.io.runners r false, jobs := t.io.jobs } } ∧
        (half = false ∨ r < 4 → t.io.jobs = s.io.jobs) ∧
        (∀ pre post a ten compl tag st info ids, half = true → 4 ≤ r →
          s.io.jobs = pre ++ .record a ten compl tag st info (some ids) :: post →
          (∀ j ∈ pre, ∀ a ten compl tag st info ids, j ≠ .record a ten compl tag st info (some ids)) →
          t.io.jobs = pre ++ .record a ten compl tag st info none :: post)) ∧
    (∀ (s : State) (h : MainHart) (rest : List Turn), s.cyc = none → s.turns = .mainHart h :: rest →
      s.sec.locked = false → s.sec.boot = 0 →
      step s = .next { s with turns := rest, io := { s.io with mainHart := h } }) ∧
    (∀ (s : State) (r : Nat) (h : RunnerHart) (rest : List Turn), s.cyc = none → s.turns = .runnerHart r h :: rest →
      s.sec.locked = false → s.sec.boot = 0 → r < 6 → ∃ t, step s = .next t ∧
        t = { s with turns := rest, io := { s.io with runnerHarts := t.io.runnerHarts } } ∧
        ∀ j, t.io.runnerHarts.getD j RunnerHart.reset =
          if j = r ∧ s.io.runners.getD r false = true then h else s.io.runnerHarts.getD j RunnerHart.reset) ∧
    (∀ (s : State) (e w : Nat) (v : Word32) (rest : List Turn), s.cyc = none → s.turns = .bar4 e w (some v) :: rest →
      s.sec.bridge = true → s.sec.locked = false → e < 256 → w < 4 → s.io.msixPend.find e = none →
      ∃ t, step s = .next t ∧ t = { s with turns := rest, io := { s.io with msixTable := t.io.msixTable } } ∧
        ∀ j k, k < 4 → t.msixWord j k = if j = e ∧ k = w then (if w = 3 then v &&& 1 else v) else s.msixWord j k) ∧
    (∀ (s : State) (e : Nat) (v : Word32) (pasid : BitVec 20) (rest : List Turn), s.cyc = none →
      s.turns = .bar4 e 3 (some v) :: rest → s.sec.bridge = true → s.sec.locked = false → e < 256 →
      s.io.msixPend.find e = some pasid → v.getLsbD 0 = false → ∃ t, step s = .next t ∧
        t = { s with turns := rest, io := { s.io with
          msixTable := t.io.msixTable, msixPend := t.io.msixPend, msix := t.io.msix } } ∧
        t.io.msix = s.io.msix ++ [⟨e, pasid, s.msixWord e 1 ++ s.msixWord e 0, s.msixWord e 2⟩] ∧
        t.io.msixPend.find e = none)

/-- Every step keeps device memory, the Larders and the threads in their canonical forms. From every state in which
device memory is in canonical form (addresses strictly rising, no entry equal to what an unlisted address reads
as), every Larder lists its bytes by strictly rising address, and the threads stand once each by strictly rising
key, a step that answers a next state gives one in which the same holds. Cites: spec/25_memory_model.md,
spec/01_device.md, spec/03_execution.md. -/
def Obligations.CanonicalFormsStay : Prop :=
  ∀ (s t : State), s.Canonical → step s = .next t → t.Canonical

/-- Device memory, the Larders and the threads are in canonical form at reset. The state after reset has device
memory in canonical form, with nothing listed, every Larder empty, no thread, no core cycle under way and the
alarm lock not set. Cites: spec/01_device.md, spec/25_memory_model.md. -/
def Obligations.CanonicalFormsAtReset : Prop :=
  State.reset.Canonical ∧ State.reset.mem = [] ∧ State.reset.cyc = none ∧ State.reset.sec.locked = false

/-- Under the alarm lock nothing but a power-on reset resumes work. From every state in which the alarm lock is in
force and no core cycle is under way, a step whose turn is not a power-on reset gives a state in which the same
holds, and in which threads, groups, blocks, cores, clusters, engine operations, operations in flight and device
memory are as before. Cites: spec/35_power_security.md. -/
def Obligations.LockHoldsUntilPowerOn : Prop :=
  ∀ (s t : State), s.lockedDown → step s = .next t →
    (∀ strap stages, s.nextTurn.1 ≠ .event (.powerOnReset strap stages)) →
    t.lockedDown ∧ t.threads = s.threads ∧ t.groups = s.groups ∧ t.blocks = s.blocks ∧ t.cores = s.cores ∧
      t.clusters = s.clusters ∧ t.ops = s.ops ∧ t.inflight = s.inflight ∧ t.mem = s.mem

/-- Every step answers a next state. Every instruction and event, in every state, gives a next state: the machine
never stops with a fault or a refusal of the model. Cites: spec/00_scope.md, spec/03_execution.md. -/
def Obligations.EveryStepCompletes : Prop :=
  (∀ (i : Instr) (s : State), completes (exec i s) = true) ∧ ∀ (s : State), completes (step s) = true

/-- What reset leaves. After reset nothing is resident; a core reads RDGRANT.GRANT 64, floor mode 1 with a run
length of 32, and cycle count 0; Larder banks 0 to 7 are CACHE and the others SCRATCH; the staging regions are
0x428 and 0x42C and the engine hang limit 0x40; the root is enabled with capacity 255 and no other inner sluice
is, and every leaf is; SAVERATE is 0x2000; a fault queue is disabled with LOG2N 6; the barrier and stall limits
are 0x0400_0000; the replay and end-to-end limits are 8 and 100; an interrupt entry has MASK 1; PWRLIM is 1,800.
Cites: spec/01_device.md, spec/03_execution.md, spec/25_memory_model.md, spec/27_scheduling_tree.md,
spec/29_matrix_engines.md, spec/31_faults.md, spec/33_fabric_host.md, spec/35_power_security.md. -/
def Obligations.ResetValues : Prop :=
  State.reset.threads = [] ∧ State.reset.groups = [] ∧ State.reset.blocks = [] ∧
    (∀ c, (State.reset.core c).grant = 64 ∧ (State.reset.core c).mode = true ∧
      (State.reset.core c).runLen = 32 ∧ (State.reset.core c).cycle = 0 ∧ (State.reset.core c).dmode = false) ∧
    (∀ cl i, (State.reset.cluster cl).bankMode i = if i < 8 then 0 else 1) ∧
    (∀ cl, (State.reset.cluster cl).stgp = 0x428 ∧ (State.reset.cluster cl).stgg = 0x42C ∧
      (State.reset.cluster cl).wdog = 0x40) ∧
    (∀ n, (State.reset.sluice n).en = decide (n = 0 ∨ 4096 ≤ n) ∧ (State.reset.sluice n).items = [] ∧
      ((State.reset.sluice 0).cap = 255)) ∧
    State.reset.tree.saverate = 0x2000 ∧
    (∀ q, (State.reset.tenant q).fqen = false ∧ (State.reset.tenant q).log2n = 6 ∧
      (State.reset.tenant q).prod = 0 ∧ (State.reset.tenant q).cons = 0 ∧
      (State.reset.tenant q).bartmo = 0x04000000 ∧ (State.reset.tenant q).bstall = 0x04000000) ∧
    State.reset.io.retry = 8 ∧ State.reset.io.tmo = 100 ∧ (∀ n, (State.reset.irt n).mask = true) ∧
    State.reset.sec.pwrlim = 1800 ∧ State.reset.sec.locked = false ∧ State.reset.sec.dbgen = false

/-- ADD to SLTU and the shift immediates write what R121 and R124 give. ADD, SUB, MIN, MAX, MINU, MAXU, ABSD,
ADDSAT, AND, OR, XOR, ANDN, SHL, SHR, SAR, ROR, SEQ, SNE, SLT, SLTU, SHLI, SHRI, SARI and RORI write vd with the
value that simpleForm states for their operands; role b is vb, or with US the uniform register as it stood at
the start of the cycle. It completes for every unit whose threads pass the checks; every thread of the unit has
vd written, full and clean, its other registers as before, and goes on after the unit; every other thread, every
group, every special register and all of memory stand as before. Cites: R121. -/
def Obligations.SimpleIntegerResults : Prop :=
  ∀ (i : Instr) (F : LaneForm), simpleForm i = some F →
    ∀ (s : State) (u : Issue), Starts s u → AllPass s F.use u →
      ∃ t, exec i s = .next t ∧
        Ran s u (fun k th th' => Wrote F.vd.toNat (F.value s u k th) u.next th th') t

/-- MUL to REMU, SEL, CLZ, POPC and BREV write what R122 and R123 give. MUL, MULHI, MULHIU, MAD, DIV, DIVU, REM,
REMU, SEL, CLZ, POPC and BREV write vd with the value that arithForm states: exact products, division that
truncates toward zero with the two cases that R62 defines apart, the leading zeros, the one bits and the
reversal. It completes for every unit whose threads pass the checks; every thread of the unit has vd written,
full and clean, its other registers as before, and goes on after the unit; every other thread, every group,
every special register and all of memory stand as before. Cites: R123. -/
def Obligations.ProductAndCountResults : Prop :=
  ∀ (i : Instr) (F : LaneForm), arithForm i = some F →
    ∀ (s : State) (u : Issue), Starts s u → AllPass s F.use u →
      ∃ t, exec i s = .next t ∧
        Ran s u (fun k th th' => Wrote F.vd.toNat (F.value s u k th) u.next th th') t

/-- BFX, BFXU, BFI and PRMB write what R127 and R128 give. The bit-field and byte-permute instructions write vd with
the value that fieldForm states: the field at vb[4:0] of length vb[12:8], sign-extended, zero-extended or
inserted, and the bytes that the selector nibbles name. It completes for every unit whose threads pass the
checks; every thread of the unit has vd written, full and clean, its other registers as before, and goes on
after the unit; every other thread, every group, every special register and all of memory stand as before.
Cites: R127, R128. -/
def Obligations.FieldResults : Prop :=
  ∀ (i : Instr) (F : LaneForm), fieldForm i = some F →
    ∀ (s : State) (u : Issue), Starts s u → AllPass s F.use u →
      ∃ t, exec i s = .next t ∧
        Ran s u (fun k th th' => Wrote F.vd.toNat (F.value s u k th) u.next th th') t

/-- The rounded floating-point instructions round one exact result in the mode of xmod. FADD, FSUB, FMUL, FDIV,
FFMA, SCACC and SCACC.2 write the exact sum or product (two roundings for SCACC.2), rounded once to FP32 in the
mode that xmod names; FRCP, FRSQ, FSQRT, FEX2, FLG2, FSCL and FFRC write the value of the model's function for
them in that mode, of which ExactResultsStay says what it is. It completes for every unit whose threads pass the
checks; every thread of the unit has vd written, full and clean, its other registers as before, and goes on
after the unit; every other thread, every group, every special register and all of memory stand as before.
Cites: spec/13_lane_float.md, spec/05_numbers.md, spec/07_encoding.md. -/
def Obligations.FloatResults : Prop :=
  ∀ (i : Instr) (F : LaneForm), floatForm i = some F →
    ∀ (s : State) (u : Issue), Starts s u → AllPass s F.use u →
      ∃ t, exec i s = .next t ∧
        Ran s u (fun k th th' => Wrote F.vd.toNat (F.value s u k th) u.next th th') t

/-- FMIN to FSUN, the BF16x2 instructions and the 32-bit conversions. FMIN and FMAX write the operand that R144
chooses, FSEQ, FSLT, FSLE and FSUN write 1 or 0, HADD2, HMUL2, HFMA2 and HMAX2 act on each BF16 element by
itself, and CVT.F32.S32, CVT.S32.F32, CVT.F32.BF16 and CVT.BF16.F32 convert, as compareForm states;
ExactResultsStay says what the rounding and CVT.S32.F32 give. It completes for every unit whose threads pass the
checks; every thread of the unit has vd written, full and clean, its other registers as before, and goes on
after the unit; every other thread, every group, every special register and all of memory stand as before.
Cites: spec/13_lane_float.md, spec/05_numbers.md, spec/07_encoding.md. -/
def Obligations.CompareAndHalfResults : Prop :=
  ∀ (i : Instr) (F : LaneForm), compareForm i = some F →
    ∀ (s : State) (u : Issue), Starts s u → AllPass s F.use u →
      ∃ t, exec i s = .next t ∧
        Ran s u (fun k th th' => Wrote F.vd.toNat (F.value s u k th) u.next th th') t

/-- The byte conversions, quantisation, dot products and ternary packing. CVT to and from E4M3 and E5M2, QNT8,
QNTE4, DP4, DP4U, DP2H, TRN.Q, TRN.PK, TRN.CHK4 and TRN.Z4 write what packedForm states; the narrowing forms and
quantisations replace byte xmod[3:2] of vd and keep the other three, and TRN.Q replaces one code and keeps
fifteen; ExactResultsStay says what the FP8 rounding and QNT8 give. It completes for every unit whose threads
pass the checks; every thread of the unit has vd written, full and clean, its other registers as before, and
goes on after the unit; every other thread, every group, every special register and all of memory stand as
before. Cites: spec/13_lane_float.md, spec/05_numbers.md, spec/07_encoding.md. -/
def Obligations.PackedResults : Prop :=
  ∀ (i : Instr) (F : LaneForm), packedForm i = some F →
    ∀ (s : State) (u : Issue), Starts s u → AllPass s F.use u →
      ∃ t, exec i s = .next t ∧
        Ran s u (fun k th th' => Wrote F.vd.toNat (F.value s u k th) u.next th th') t

/-- TRN.UP and TRN.DG write the digits, and trap on an illegal code with TVAL = va. For a unit whose threads pass
the checks, outside their handlers and with a handler: TRN.UP writes code j of each T5 byte where bytes 0 to 2
of va are all at most 242, and TRN.DG writes the digit at vb[3:0] where its code is not 0b10; otherwise the
thread traps with cause 5, TVAL is va, and no lane register changes. TRN.UP of the result of TRN.PK gives the
fifteen codes back, except that 0b10 comes back as 0b00 and code 15 as 0b00, and TRN.PK leaves bits 31 to 24 at
0. Cites: spec/13_lane_float.md, spec/05_numbers.md, spec/07_encoding.md. -/
def Obligations.TernaryUnpack : Prop :=
  (∀ (tc : BitVec 2) (vd va : BitVec 7) (s : State) (u : Issue), Starts s u → AllPass s (Use.one vd va) u →
      (∀ k ∈ u.lanes, ∀ th, s.threads.find k = some th → Handled s k th) →
      ∃ t, exec (.trnUp tc vd va) s = .next t ∧ Ran s u (fun k th th' =>
        if ∃ j < 3, 242 < (byteOf (th.val va) j).toNat
        then Trapped 5 u.pc ((th.val va).setWidth 64) (s.handlerOf (blockOf k)) th th'
        else Wrote vd.toNat (ofDigits (fun i =>
          if i < 15 then t5Code (byteOf (th.val va) (i / 5)) (i % 5) else 0)) u.next th th') t) ∧
    (∀ (tc : BitVec 2) (vd va vb : BitVec 7) (s : State) (u : Issue), Starts s u → AllPass s (Use.ab vd va vb) u →
      (∀ k ∈ u.lanes, ∀ th, s.threads.find k = some th → Handled s k th) →
      ∃ t, exec (.trnDg tc vd va vb) s = .next t ∧ Ran s u (fun k th th' =>
        let c := digitOf (th.val va) ((operandB s u k th vb).extractLsb' 0 4).toNat
        if c = 2 then Trapped 5 u.pc ((th.val va).setWidth 64) (s.handlerOf (blockOf k)) th th'
        else Wrote vd.toNat (c.signExtend 32) u.next th th') t) ∧
    (∀ a : Word32, trnUp (trnPk a) = ofDigits (fun i => if i < 15 ∧ digitOf a i ≠ 2 then digitOf a i else 0) ∧
      trnUpIllegal (trnPk a) = false ∧ (trnPk a).extractLsb' 24 8 = 0)

/-- FMIN and FMAX return one of their operands bit for bit. The result of FMIN and of FMAX is one of the two
operands unchanged, or 0x7FC0_0000 when both are NaNs; with exactly one NaN it is the other operand; of two
unequal numbers, infinities and subnormals among them, FMIN returns the smaller and FMAX the larger; of the two
zeros, in either order, FMIN returns −0 and FMAX +0; of equal numbers of the same sign both return va. Cites:
R144. -/
def Obligations.MinMaxReturnAnOperand : Prop :=
  ∀ (a b : Word32),
    let nan := fun w : Word32 => (f32 w).isNan
    (nan a = true → nan b = true → fMin a b = 0x7FC00000 ∧ fMax a b = 0x7FC00000) ∧
    (nan a = true → nan b = false → fMin a b = b ∧ fMax a b = b) ∧
    (nan a = false → nan b = true → fMin a b = a ∧ fMax a b = a) ∧
    (nan a = false → nan b = false →
      (fpLt (f32 a) (f32 b) = true → fMin a b = a ∧ fMax a b = b) ∧
      (fpLt (f32 b) (f32 a) = true → fMin a b = b ∧ fMax a b = a) ∧
      (fpLt (f32 a) (f32 b) = false → fpLt (f32 b) (f32 a) = false →
        (a = 0 ∧ b = 0x80000000 ∨ a = 0x80000000 ∧ b = 0 → fMin a b = 0x80000000 ∧ fMax a b = 0) ∧
        (a.getLsbD 31 = b.getLsbD 31 → a = b ∧ fMin a b = a ∧ fMax a b = a) ∧
        (a.getLsbD 31 ≠ b.getLsbD 31 → a = 0 ∧ b = 0x80000000 ∨ a = 0x80000000 ∧ b = 0))) ∧
    (∀ (tc : BitVec 2) (vd va vb : BitVec 7), compareForm (.fmin tc vd va vb) = form2 vd va vb fMin ∧
      compareForm (.fmax tc vd va vb) = form2 vd va vb fMax)

/-- Rounding: a representable value is its own rounding, and every other result is the one rounding of the exact
value. Rounding the value of an FP32 pattern that is not a NaN gives that pattern back in each of the four
modes, so widening from BF16 and FP8 is exact; and the same holds of BF16 patterns in BF16. Rounding an exact
nonzero value to FP32 or BF16 gives, in each mode, the pattern that R67 names, overflow included (RoundsTo),
under the sign of the exact value. FRCP, FSQRT and FRSQ of a finite nonzero operand, positive for the roots, are
the rounding of the exact reciprocal, root and reciprocal root, and FDIV and FSCL that of the exact quotient and
of va × 2^vb (R143, R147, R148). The special cases of R147 hold in every mode; FEX2 of an integer from −149 to
127 gives that power of two and FLG2 of a power of two gives its exponent; for other operands of FEX2 and FLG2,
whose exact results are irrational, this says nothing. FFRC leaves what lies below the integers under the sign
of va and gives the canonical NaN for NaN and the infinities. CVT.S32.F32 truncates toward zero and saturates,
and NaN gives 0 (R70). RNE8 rounds by RNE and then treats what lies beyond the largest finite value as R69 says.
QNT8 rounds the exact product to an integer in the mode and saturates at 127 (R152). Cites:
spec/13_lane_float.md, spec/05_numbers.md, spec/07_encoding.md. -/
def Obligations.ExactResultsStay : Prop :=
  (∀ (m : Round) (w : Word32), (f32 w).isNan = false → rn m (f32 w) = w) ∧
    (∀ (w : BitVec 16), (bf16.decode w.toNat).isNan = false → rnBf16 (bf16.decode w.toNat) = w.toNat) ∧
    (∀ (w : BitVec 16), (bf16.decode w.toNat).isNan = false → rn .rne (bf16.decode w.toNat) = w ++ 0#16) ∧
    (∀ (m : Round) (neg : Bool) (v : Nat) (e : Int), v ≠ 0 →
      (∃ r, rn m (.fin neg v e) = signed32 neg r ∧ RoundsTo fp32.mag 0x7F800000 m neg r (halfUnits v e (-149))) ∧
      ∃ r, rnBf16 (.fin neg v e) = bf16.sign neg + r ∧
        RoundsTo bf16.mag 0x7F80 .rne neg r (halfUnits v e (-133))) ∧
    (∀ (m : Round) (a b : Word32) (s t : Bool) (x y : Nat), Finite32 a s x → Finite32 b t y → y ≠ 0 →
      (∃ r, fRcp m b = signed32 t r ∧
        RoundsTo fp32.mag 0x7F800000 m t r (fun h => compare (h * y) (2 ^ 299))) ∧
      (t = false → ∃ r, fSqrt m b = signed32 false r ∧
        RoundsTo fp32.mag 0x7F800000 m false r (fun h => compare (h * h) (y * 2 ^ 151))) ∧
      (t = false → ∃ r, fRsq m b = signed32 false r ∧
        RoundsTo fp32.mag 0x7F800000 m false r (fun h => compare (h * h * y) (2 ^ 449))) ∧
      (t = true → fSqrt m b = 0x7FC00000 ∧ fRsq m b = 0x7FC00000 ∧ fLg2 m b = 0x7FC00000) ∧
      (x ≠ 0 → ∃ r, fDiv m a b = signed32 (s != t) r ∧
        RoundsTo fp32.mag 0x7F800000 m (s != t) r (fun h => compare (h * y) (x * 2 ^ 150))) ∧
      (∀ c : Word32, ∃ r, fScl m b c = signed32 t r ∧
        RoundsTo fp32.mag 0x7F800000 m t r (halfUnits y (c.toInt - 149) (-149)))) ∧
    (∀ (m : Round) (a c : Word32), (f32 a).isNan = true →
      fRcp m a = 0x7FC00000 ∧ fRsq m a = 0x7FC00000 ∧ fSqrt m a = 0x7FC00000 ∧ fEx2 m a = 0x7FC00000 ∧
        fLg2 m a = 0x7FC00000 ∧ fScl m a c = 0x7FC00000 ∧ fFrc a = 0x7FC00000 ∧ cvtS32 a = 0) ∧
    (∀ m : Round,
      fRcp m 0x80000000 = 0xFF800000 ∧ fRcp m 0 = 0x7F800000 ∧ fRcp m 0xFF800000 = 0x80000000 ∧ fRcp m 0x7F800000 = 0 ∧
      fRsq m 0x80000000 = 0xFF800000 ∧ fRsq m 0 = 0x7F800000 ∧ fRsq m 0xFF800000 = 0x7FC00000 ∧ fRsq m 0x7F800000 = 0 ∧
      fSqrt m 0x80000000 = 0x80000000 ∧ fSqrt m 0 = 0 ∧ fSqrt m 0xFF800000 = 0x7FC00000 ∧
      fSqrt m 0x7F800000 = 0x7F800000 ∧
      fEx2 m 0x80000000 = 0x3F800000 ∧ fEx2 m 0 = 0x3F800000 ∧ fEx2 m 0xFF800000 = 0 ∧ fEx2 m 0x7F800000 = 0x7F800000 ∧
      fLg2 m 0x80000000 = 0xFF800000 ∧ fLg2 m 0 = 0xFF800000 ∧ fLg2 m 0xFF800000 = 0x7FC00000 ∧
      fLg2 m 0x7F800000 = 0x7F800000 ∧
      (∀ c : Word32, ∀ a ∈ [0, 0x80000000, 0x7F800000, 0xFF800000], fScl m a c = a) ∧
      ∀ n : Nat, n < 277 → fEx2 m (rn .rne (Fp.ofInt ((n : Int) - 149))) = powerOfTwo n ∧
        fLg2 m (powerOfTwo n) = rn .rne (Fp.ofInt ((n : Int) - 149))) ∧
    (∀ (a : Word32) (s : Bool) (x : Nat), Finite32 a s x →
      (∃ r, fFrc a = signed32 s r ∧ r < 0x7F800000 ∧ fp32.mag r = x % 2 ^ 149) ∧
      (cvtS32 a).toInt = (if s then max (-((x / 2 ^ 149 : Nat) : Int)) (-2147483648)
        else min ((x / 2 ^ 149 : Nat) : Int) 2147483647)) ∧
    (fFrc 0x7F800000 = 0x7FC00000 ∧ fFrc 0xFF800000 = 0x7FC00000 ∧
      cvtS32 0x7F800000 = 0x7FFFFFFF ∧ cvtS32 0xFF800000 = 0x80000000) ∧
    (∀ (f : Fmt) (sat : Bool), (f = e4m3 ∨ f = e5m2) →
      rne8 f sat .nan = f.nanBits ∧
      (∀ neg, rne8 f sat (.inf neg) = if f = e5m2 then f.sign neg + 0x7C else if sat then f.sign neg + 0x7E else 0x7F) ∧
      (∀ neg e, rne8 f sat (.fin neg 0 e) = f.sign neg) ∧
      ∀ neg v e, v ≠ 0 → ∃ r, RoundsTo f.mag (f.maxBits + 1) .rne neg r (halfUnits v e f.emin) ∧
        rne8 f sat (.fin neg v e) = if r ≤ f.maxBits then f.sign neg + r else if sat then f.sign neg + f.maxBits
          else if f = e5m2 then f.sign neg + 0x7C else 0x7F) ∧
    (e4m3.maxBits = 0x7E ∧ e4m3.nanBits = 0x7F ∧ e5m2.maxBits = 0x7B ∧ e5m2.nanBits = 0x7E) ∧
    (∀ m : Round, quant8 m .nan = 0 ∧ quant8 m (.inf false) = 127 ∧ quant8 m (.inf true) = 129 ∧
      ∀ (neg : Bool) (v : Nat) (e : Int), v ≠ 0 → -600 ≤ e → ∃ r, RoundsTo id 128 m neg r (halfUnits v e 0) ∧
        (BitVec.ofNat 8 (quant8 m (.fin neg v e))).toInt =
          if neg then -((Nat.min r 127 : Nat) : Int) else ((Nat.min r 127 : Nat) : Int))

/-- What becomes of each thread of a lane unit. For every instruction of laneForm and a unit of any number of
threads, outside their handlers and with a handler: a thread whose unit is illegal traps with cause 1 and TVAL
the offending word; one with an empty source whose TE bit is 1 traps with cause 6, before it would wait for an
empty destination (the model's reading, assumption 8); one with another empty register is BLOCKED, with nothing
else of it changed; one with a poisoned source traps with cause 7; every other thread executes. What one thread
does never depends on the others. Cites: spec/03_execution.md, spec/07_encoding.md,
spec/17_control_instructions.md. -/
def Obligations.LaneChecks : Prop :=
  ∀ (i : Instr) (F : LaneForm), laneForm i = some F →
    ∀ (s : State) (u : Issue), Starts s u →
      (∀ k ∈ u.lanes, ∀ th, s.threads.find k = some th → Handled s k th) →
      ∃ t, exec i s = .next t ∧
        (∀ k ∈ u.lanes, ∀ th, s.threads.find k = some th → ∃ th', t.threads.find k = some th' ∧
          Fate s F.use u k (Wrote F.vd.toNat (F.value s u k th) u.next th th') th th') ∧
        (∀ k, k ∉ u.lanes → t.threads.find k = s.threads.find k) ∧ OnlyThreads s t

/-- ADDI, MOVI, MOVS and RDLS. ADDI adds the sign-extended immediate, or with a LIMM the 32-bit immediate LIMM:imm9;
MOVI writes the sign-extended immediate, or with a LIMM, bits 15 to 9 being 0, LIMM:word[8:0]; MOVS writes the
uniform register sb as it stood at the start of the cycle, s0 giving 0; RDLS writes the lane special register
that its index names. It completes for every unit whose threads pass the checks; every thread of the unit has vd
written, full and clean, its other registers as before, and goes on after the unit; every other thread, every
group, every special register and all of memory stand as before. Cites: spec/11_lane_integer.md,
spec/05_numbers.md, spec/07_encoding.md, spec/03_execution.md. -/
def Obligations.ImmediatesAndMoves : Prop :=
  (∀ (tc : BitVec 2) (vd va : BitVec 7) (imm : BitVec 9) (s : State) (u : Issue), Starts s u →
      AllPass s { Use.one vd va with limm := true } u →
      ∃ t, exec (.addi tc vd va imm) s = .next t ∧ Ran s u (fun _ th th' =>
        Wrote vd.toNat (th.val va + (u.limm.map (fun h => h ++ imm)).getD (imm.signExtend 32)) u.next th th') t) ∧
    (∀ (tc : BitVec 2) (vd : BitVec 7) (imm : BitVec 16) (s : State) (u : Issue), Starts s u →
      AllPass s { Use.plain with dst := [vd.toNat], limm := decide (imm.extractLsb' 9 7 = 0) } u →
      ∃ t, exec (.movi tc vd imm) s = .next t ∧ Ran s u (fun _ th th' =>
        Wrote vd.toNat ((u.limm.map (fun h => h ++ imm.extractLsb' 0 9)).getD (imm.signExtend 32)) u.next th th') t) ∧
    (∀ (tc : BitVec 2) (vd : BitVec 7) (sb : BitVec 8) (s : State) (u : Issue), Starts s u →
      AllPass s { Use.plain with dst := [vd.toNat], roleB := true, sb := some sb.toNat } u →
      ∃ t, exec (.movs tc vd sb) s = .next t ∧ Ran s u (fun k th th' =>
        Wrote vd.toNat (snapSreg s k sb.toNat).val u.next th th') t) ∧
    (∀ (s : State) (k : Nat), (snapSreg s k 0).val = 0) ∧
    (∀ (tc : BitVec 2) (vd : BitVec 7) (n : BitVec 8) (s : State) (u : Issue), Starts s u →
      AllPass s { Use.plain with dst := [vd.toNat] } u →
      (∀ k ∈ u.lanes, (s.blocks.find (blockOf k)).isSome) →
      ∃ t, exec (.rdls tc vd n) s = .next t ∧ Ran s u (fun k th th' =>
        ∃ b, s.blocks.find (blockOf k) = some b ∧
          Wrote vd.toNat (BitVec.ofNat 32 (laneSpecialOf b (k % 16384) n.toNat)) u.next th th') t)

/-- XLN, VOTE and XRED work over the threads of the group that execute the unit. Where every thread of the unit
passes, XLN writes va of the cohort's thread at the exact index vb, lane XOR vb, lane − vb or lane + vb, and the
thread's own va where the cohort has none; VOTE.ANY and VOTE.ALL write whether some or every va of the cohort is
nonzero, VOTE.BAL the bits of the lanes whose va is; XRED writes the sum, minimum, maximum, AND or OR of the
cohort's va, by xmod. The cohort of a thread is its group's threads in the unit. Cites: spec/11_lane_integer.md,
spec/12_lane_integer_notes.md. -/
def Obligations.CrossLane : Prop :=
  ∀ (s : State) (u : Issue), Starts s u →
    (∀ (kind : Nat) (i : Instr) (vd va vb : BitVec 7), xlnForm i = some (kind, vd, va, vb) →
      AllPass s (Use.ab vd va vb) u →
      ∃ t, exec i s = .next t ∧ Ran s u (fun k th th' =>
        let mates := u.lanes.filter (fun j => j / 8 == k / 8)
        let b := operandB s u k th vb
        let want : Int := match kind with
          | 0 => b.toNat
          | 1 => ((BitVec.ofNat 32 (k % 8)) ^^^ b).toNat
          | 2 => (k % 8 : Nat) - (b.toNat : Int)
          | _ => (k % 8 : Nat) + (b.toNat : Int)
        let v := match mates.find? (fun j => ((j % 8 : Nat) : Int) == want) with
          | some j => ((s.threads.find j).map (fun x => x.val va)).getD 0
          | none => th.val va
        Wrote vd.toNat v u.next th th') t) ∧
    (∀ (i : Instr) (use : Use) (vd va : BitVec 7) (f : Nat → List (Nat × Word32) → Word32),
      cohortForm i = some (use, vd, va, f) → AllPass s use u →
      ∃ t, exec i s = .next t ∧ Ran s u (fun k th th' =>
        let mates := u.lanes.filter (fun j => j / 8 == k / 8)
        Wrote vd.toNat (f (modX u.modOr0).toNat (mates.map (fun j =>
          (j % 8, ((s.threads.find j).map (fun x => x.val va)).getD 0)))) u.next th th') t)

/-- Where branches, calls and jumps go. BR goes to its target, counted from the branch word, where va meets the
condition (always for BR.ALW, which reads no register), and otherwise after the unit; CALL writes the address
after the unit into its pair and goes to its target; JMPR and RET go to the address operand, and CALLR also
writes the address after the unit, the target being read first; an address operand that is not a multiple of 4
traps with cause 3, TVAL the target, and writes no lane register. The threads of the unit pass the checks, are
outside their handlers, and have one. Cites: spec/17_control_instructions.md, spec/18_control_notes.md. -/
def Obligations.BranchesAndCalls : Prop :=
  ∀ (s : State) (u : Issue), Starts s u →
    (∀ k ∈ u.lanes, ∀ th, s.threads.find k = some th → Handled s k th) →
    (∀ (i : Instr) (va : BitVec 7) (off : BitVec 13) (cond : Word32 → Prop), branchForm i = some (va, off, cond) →
      AllPass s { Use.plain with a := [va.toNat] } u →
      ∃ t, exec i s = .next t ∧ Ran s u (fun _ th th' =>
        (cond (th.val va) → Moved (u.wordAddr + 4 * off.signExtend 64) th th') ∧
        (¬cond (th.val va) → Moved (u.wordAddr + 4) th th')) t) ∧
    (∀ (tc : BitVec 2) (off : BitVec 13), AllPass s Use.plain u →
      ∃ t, exec (.brAlw tc off) s = .next t ∧
        Ran s u (fun _ th th' => Moved (u.wordAddr + 4 * off.signExtend 64) th th') t) ∧
    (∀ (tc : BitVec 2) (vd : BitVec 7) (off : BitVec 16), AllPass s { Use.plain with dst := addrRegs vd } u →
      ∃ t, exec (.call tc vd off) s = .next t ∧ Ran s u (fun _ th th' =>
        WrotePair vd.toNat (u.wordAddr + 4) (u.wordAddr + 4 * off.signExtend 64) th th') t) ∧
    (∀ (i : Instr) (va : BitVec 7), jumpForm i = some va → AllPass s { Use.plain with a := addrRegs va } u →
      ∃ t, exec i s = .next t ∧ Ran s u (fun k th th' =>
        ((th.val64 va).toNat % 4 = 0 → Moved (th.val64 va) th th') ∧
        ((th.val64 va).toNat % 4 ≠ 0 → Trapped 3 u.pc (th.val64 va) (s.handlerOf (blockOf k)) th th')) t) ∧
    (∀ (tc : BitVec 2) (vd va : BitVec 7), AllPass s { Use.plain with a := addrRegs va, dst := addrRegs vd } u →
      ∃ t, exec (.callr tc vd va) s = .next t ∧ Ran s u (fun k th th' =>
        ((th.val64 va).toNat % 4 = 0 → WrotePair vd.toNat (u.wordAddr + 4) (th.val64 va) th th') ∧
        ((th.val64 va).toNat % 4 ≠ 0 → Trapped 3 u.pc (th.val64 va) (s.handlerOf (blockOf k)) th th')) t)

/-- NOP, YIELD, TRAP, BRK, ILL and RETT. For a unit whose threads pass the checks: NOP only goes on; YIELD goes on
DEFERRED for up to 64 issue slots; outside their handlers and with a handler, TRAP takes cause 11 with TVAL its
code, ILL cause 1 with TVAL its word (R102; assumption 111), BRK cause 13 with TVAL its code where the debugger
does not name the thread, and RETT cause 1; RETT inside the handler goes to TEPC and clears H alone; and BRK
halts the thread that the debugger names, past the BRK (assumption 31). Cites: spec/17_control_instructions.md,
spec/18_control_notes.md. -/
def Obligations.TrapsAndReturns : Prop :=
  ∀ (s : State) (u : Issue) (tc : BitVec 2), Starts s u → AllPass s Use.plain u →
    (∃ t, exec (.nop tc) s = .next t ∧ Ran s u (fun _ th th' => Moved u.next th th') t) ∧
    (∃ t, exec (.yield tc) s = .next t ∧
      Ran s u (fun _ th th' => th' = { th with pc := u.next, st := .deferred 64 }) t) ∧
    ((∀ k ∈ u.lanes, ∀ th, s.threads.find k = some th → th.tcause.getLsbD 31 = true) →
      ∃ t, exec (.rett tc) s = .next t ∧ Ran s u (fun _ th th' =>
        th' = { th with pc := th.tepc, tcause := th.tcause &&& 0x7FFFFFFF, st := .ready }) t) ∧
    ((∀ k ∈ u.lanes, ∀ th, s.threads.find k = some th → Handled s k th) →
      (∀ code : BitVec 16, ∃ t, exec (.trap tc code) s = .next t ∧ Ran s u (fun k th th' =>
        Trapped 11 u.pc (code.setWidth 64) (s.handlerOf (blockOf k)) th th') t) ∧
      (∃ t, exec (.ill tc) s = .next t ∧ Ran s u (fun k th th' =>
        Trapped 1 u.pc (u.word.setWidth 64) (s.handlerOf (blockOf k)) th th') t) ∧
      (∃ t, exec (.rett tc) s = .next t ∧ Ran s u (fun k th th' =>
        Trapped 1 u.pc (u.word.setWidth 64) (s.handlerOf (blockOf k)) th th') t) ∧
      (∀ code : BitVec 16, ∃ t, exec (.brk tc code) s = .next t ∧ Ran s u (fun k th th' =>
        if s.dbgOn = true ∧ s.namedThread (s.coreOfThread k) = some k
        then th' = { th with pc := u.next, st := .parked .debug }
        else Trapped 13 u.pc (code.setWidth 64) (s.handlerOf (blockOf k)) th th') t))

/-- A trap in the handler, or with no handler, parks the thread and posts one record of kind 5. Taking a trap for a
thread whose TCAUSE.H is 1, or whose block has no handler, parks the thread and writes none of its trap state,
and posts to the queue of the block's tenant one record of kind 5 under the queue's next TAG, open for an answer
that acts on the block: INFO holds the cause and the H bit, INFO2 what TVAL would have received, PC is TEPC, and
the other fields name the thread, its group with its GTAG, its block and its launch. With room and nothing that
waits its 64 bytes are written at the place of PROD; otherwise it waits as the last. Cites:
spec/17_control_instructions.md, spec/18_control_notes.md, spec/31_faults.md. -/
def Obligations.UnhandledTrapParks : Prop :=
  ∀ (s : State) (k cause : Nat) (tepc tval : Word64) (th : Thread), s.threads.find k = some th →
    (th.tcause.getLsbD 31 = true ∨ s.handlerOf (blockOf k) = 0) →
    ∃ (t : State) (n : Nat) (r : FaultRec), s.takeTrap k cause tepc tval = t ∧
      t.threads.find k = some { th with st := .parked (.trap n) } ∧
      (∀ j, j ≠ k → t.threads.find j = s.threads.find j) ∧ t.groups = s.groups ∧ t.blocks = s.blocks ∧
      Reported s t (s.tenantOfBlock (blockOf k)) r (.block (blockOf k)) ∧
      r.kind = 5 ∧ r.info2 = tval ∧ r.pc = tepc ∧
      r.info = (BitVec.ofNat 32 cause ||| if th.tcause.getLsbD 31 then 0x80000000 else 0) ∧
      r.group = k / 8 % 2048 ∧ r.lane = k % 8 ∧ r.set = false ∧ r.nmrg = 1 ∧
      r.acc = 0 ∧ r.cause = 0 ∧ r.addr = 0 ∧ r.handle = 0 ∧
      (∀ g, s.groups.find (k / 8) = some g → r.gtag = g.gtag) ∧
      ∀ x, s.blocks.find (blockOf k) = some x → r.ten = x.tenant ∧ r.launch = x.launch ∧ r.block = x.lin

/-- RDTS and WRTS read and write the trap state. RDTS writes TEPC or TVAL into a pair, and TCAUSE, STACKLIM or
PRIVBASE into one register; WRTS writes TEPC with its two low bits cleared, TVAL, or STACKLIM as the lesser of
the value and PRIVBASE with its two low bits cleared, and no other part of the thread but its PC. Cites:
spec/17_control_instructions.md, spec/18_control_notes.md. -/
def Obligations.TrapStateRegisters : Prop :=
  ∀ (s : State) (u : Issue) (tc : BitVec 2) (r : BitVec 7) (x : BitVec 3), Starts s u →
    (AllPass s { Use.plain with dst := stateRegs r x } u → WellFormed (.rdts tc r x) →
      ∃ t, exec (.rdts tc r x) s = .next t ∧ Ran s u (fun _ th th' =>
        (x = 0 → WrotePair r.toNat th.tepc u.next th th') ∧
        (x = 1 → Wrote r.toNat th.tcause u.next th th') ∧
        (x = 2 → WrotePair r.toNat th.tval u.next th th') ∧
        (x = 3 → Wrote r.toNat th.stacklim u.next th th') ∧
        (x = 4 → Wrote r.toNat th.privbase u.next th th')) t) ∧
    (AllPass s { Use.plain with imp := stateRegs r x } u → WellFormed (.wrts tc r x) →
      ∃ t, exec (.wrts tc r x) s = .next t ∧ Ran s u (fun _ th th' =>
        (x = 0 → th' = { th with tepc := th.val64 r &&& ~~~3, pc := u.next, st := .ready }) ∧
        (x = 2 → th' = { th with tval := th.val64 r, pc := u.next, st := .ready }) ∧
        (x = 3 → th' = { th with
          stacklim := (if (th.val r).toNat ≤ th.privbase.toNat then th.val r else th.privbase) &&& ~~~3
          pc := u.next, st := .ready })) t) ∧
    (WellFormed (.rdts tc r x) → x.toNat ≤ 4) ∧ (WellFormed (.wrts tc r x) → x = 0 ∨ x = 2 ∨ x = 3)

/-- MOD and LIMM join the unit, and out of place trap it. In a lane unit MOD, standing first, becomes the unit's MOD
word, and LIMM, the first of its kind, the unit's immediate; the unit goes on with its next word and nothing
else changes. MOD after a prefix, or LIMM after a LIMM, traps every thread of the unit with cause 1 and TVAL
this word (threads outside their handlers, with a handler). Cites: spec/07_encoding.md,
spec/08_encoding_notes.md. -/
def Obligations.PrefixWords : Prop :=
  ∀ (s : State) (u : Issue), Starts s u → u.port ≠ 2 →
    (∀ (vc : BitVec 7) (tea teb tec us : BitVec 1) (sidx : BitVec 8) (x : BitVec 4) (w : Word32),
      encode (.mod vc tea teb tec us sidx x) = some w →
      (u.modWord = none → u.limm = none → exec (.mod vc tea teb tec us sidx x) s = .next { s with
        cyc := s.cyc.map (fun c => { c with
          todo := { u with modWord := some w, wordAddr := u.wordAddr + 4 } :: c.todo.tail }) }) ∧
      ((u.modWord.isSome ∨ u.limm.isSome) →
        (∀ k ∈ u.lanes, ∀ th, s.threads.find k = some th → Handled s k th) →
        ∃ t, exec (.mod vc tea teb tec us sidx x) s = .next t ∧ OnlyThreads s t ∧
          ∀ k ∈ u.lanes, ∀ th, s.threads.find k = some th → ∃ th', t.threads.find k = some th' ∧
            Trapped 1 u.pc (u.word.setWidth 64) (s.handlerOf (blockOf k)) th th')) ∧
    (∀ (imm : BitVec 23),
      (u.limm = none → exec (.limm imm) s = .next { s with
        cyc := s.cyc.map (fun c => { c with
          todo := { u with limm := some imm, wordAddr := u.wordAddr + 4 } :: c.todo.tail }) }) ∧
      (u.limm.isSome → (∀ k ∈ u.lanes, ∀ th, s.threads.find k = some th → Handled s k th) →
        ∃ t, exec (.limm imm) s = .next t ∧ OnlyThreads s t ∧
          ∀ k ∈ u.lanes, ∀ th, s.threads.find k = some th → ∃ th', t.threads.find k = some th' ∧
            Trapped 1 u.pc (u.word.setWidth 64) (s.handlerOf (blockOf k)) th th'))

/-- The windows and checks of an access, in their order. For an access of a thread or of the uniform side of a
resident block: a misaligned address traps with cause 3 before anything else is looked at; ea bits 63 to 48
select the global range (0 to 0xF), the private window (0xFFF0), Larder scratch (0xFFF1), core scratch (0xFFF2)
and the FIFOs (0xFFF3), and every other value traps with cause 4; a private access of a thread at or beyond
STACKLIM traps with cause 2, and one of the uniform side, which has no limit, with cause 4 (R213), a scratch
access beyond the block's scratch with cause 4; a scratch access inside goes to its offset; a global access goes
to the page's place or takes the translation fault; the FIFO window names a bank by 256-byte offset where that
bank is in FIFO mode. Cites: spec/15_memory_instructions.md, spec/16_memory_instruction_notes.md,
spec/25_memory_model.md, spec/33_fabric_host.md. -/
def Obligations.WhereAccessesGo : Prop :=
  ∀ (s : State) (b : Nat) (x : Block) (lim : Option Word32) (ea : Word64) (n : Nat) (need : Perm) (place : Site)
      (fifo host : Bool), s.blocks.find b = some x → 0 < n →
    let o := ea.toNat % 2 ^ 48
    let h := ea.toNat / 2 ^ 48
    let r := s.reach b lim ea n need place fifo host
    (ea.toNat % n ≠ 0 → r = (s, .trap 3)) ∧
    (ea.toNat % n = 0 → 0xF < h → h < 0xFFF0 → r = (s, .trap 4)) ∧
    (ea.toNat % n = 0 → 0xFFF3 < h → r = (s, .trap 4)) ∧
    (ea.toNat % n = 0 → h = 0xFFF0 → r = (s, match lim with
      | some l => if o + n ≤ l.toNat then .priv o else .trap 2
      | none => .trap 4)) ∧
    (ea.toNat % n = 0 → h = 0xFFF1 → x.packet.lscr < o + n → r = (s, .trap 4)) ∧
    (ea.toNat % n = 0 → h = 0xFFF1 → o + n ≤ x.packet.lscr →
      (∀ g, o / 64 ≤ g → 64 * g < o + n → (s.cluster x.cluster).bankMode (x.bankOf (64 * g)) = 1) →
      r = (s, .mem .larderScratch o false)) ∧
    (ea.toNat % n = 0 → h = 0xFFF2 →
      r = (s, if o + n ≤ x.packet.cscr then .mem .coreScratch o false else .trap 4)) ∧
    (ea.toNat % n = 0 → h = 0xFFF3 → (fifo = false ∨ o % 256 ≠ 0 ∨ 48 ≤ o / 256 ∨
        (s.cluster x.cluster).bankMode (o / 256) ≠ 2) → r = (s, .trap 4)) ∧
    (ea.toNat % n = 0 → h = 0xFFF3 → fifo = true → o % 256 = 0 → o / 256 < 48 →
      (s.cluster x.cluster).bankMode (o / 256) = 2 → r = (s, .fifo (o / 256))) ∧
    (∀ f, ea.toNat % n = 0 → ea.toNat + n ≤ 2 ^ 52 →
      s.translate x.cluster x.tenant ea.toNat need s.choice = .fault f → r.2 = .fault f ∧ r.1.mem = s.mem) ∧
    (∀ pa p1 p2, ea.toNat % n = 0 → ea.toNat + n ≤ 2 ^ 52 →
      s.translate x.cluster x.tenant ea.toNat need s.choice = .ok pa p1 p2 → pa < hostBase →
      (∃ ro, r.2 = .mem (if place = .larder ∧ (s.cluster x.cluster).hasCache = false then .home else place) pa ro) ∧
        r.1.mem = s.mem ∧ r.1.threads = s.threads)

/-- A load empties its registers and puts its parts under way. For a unit of one thread that passes the checks, with
the debugger off: where the address goes to a memory site and no scoreboard range holds it, every load empties
its destination registers, goes on, and puts under way the loads of its parts, each with the registers that it
will fill, then, for an access performed in the Larder, one request for each sector of the access of which the
Larder lacks a byte and which is not already on its way, and for an acquire the fence that follows; in the
private window the parts are words of the slab 32 bytes apart, in the Larder or, without a CACHE-mode bank, at
home (where the slab lies in the address space is the model's choice, assumption 98). Where the address traps,
the thread traps with that cause and TVAL ea; where it faults, the thread parks and the fault goes to the Hall;
where a range holds it, the thread is BLOCKED. Device memory is as before. Cites:
spec/15_memory_instructions.md, spec/16_memory_instruction_notes.md, spec/25_memory_model.md. -/
def Obligations.LoadsComeUnderWay : Prop :=
  ∀ (i : Instr) (F : LmForm), loadForm i = some F → ∀ (s s1 : State) (u : Issue) (k : Nat) (th : Thread),
    Starts s u → u.lanes = [k] → s.threads.find k = some th → Passes s F.loadUse u k th → s.dbgOn = false →
    let r := s.reach u.block (some th.stacklim) (F.ea u th) F.n 1 F.place (F.n == 4) true
    (∀ site a ro, r = (s1, .mem site a ro) → s1.rangeWait u.block site a F.n false = none →
      ∃ t fills, exec i s = .next t ∧
        OneThread s t k (Emptied F.vt.toNat F.regs u.next) ∧ (site ≠ .larder → fills = []) ∧
        (site = .larder → Fetches s (s.clusterOfBlock u.block) ro (fun y => a ≤ y ∧ y < a + F.n) fills) ∧
        Issued s u (F.loads k site a ro ++ fills ++
          (if F.ord = 2 then [([k], .fence 1 F.scope.toNat)] else [])) t) ∧
    (∀ o, r = (s1, .priv o) → ∃ t fills, exec i s = .next t ∧
        OneThread s t k (Emptied F.vt.toNat F.regs u.next) ∧ (slabSite s u.block ≠ .larder → fills = []) ∧
        (slabSite s u.block = .larder → Fetches s (s.clusterOfBlock u.block) false
          (fun y => ∃ j < F.n, y = slabByte k (o + j)) fills) ∧
        Issued s u ((if F.n ≤ 4
            then [([k], .load (slabSite s u.block) (slabByte k o) F.n F.signed (.lanes k F.vt.toNat 1) false)]
            else (List.range F.regs).map (fun j =>
              ([k], .load (slabSite s u.block) (slabByte k (o + 4 * j)) 4 F.signed
                (.lanes k (F.vt.toNat + j) 1) false))) ++ fills ++
          (if F.ord = 2 then [([k], .fence 1 F.scope.toNat)] else [])) t) ∧
    (∀ site a ro w, r = (s1, .mem site a ro) → s1.rangeWait u.block site a F.n false = some w →
      ∃ t, exec i s = .next t ∧ OneThread s t k (fun th th' => th' = { th with st := .blocked w }) ∧
        t.inflight = s.inflight ∧ t.mem = s.mem) ∧
    (∀ c, r = (s1, .trap c) → Handled s k th → ∃ t, exec i s = .next t ∧
      OneThread s t k (Trapped c u.pc (F.ea u th) (s.handlerOf (blockOf k))) ∧
      t.inflight = s.inflight ∧ t.mem = s.mem) ∧
    (∀ f, r = (s1, .fault f) → ∃ t n m, exec i s = .next t ∧
      OneThread s t k (fun th th' => th' = { th with st := .parked (.xlate n (F.ea u th) false) }) ∧
      t.desk.msgs = s.desk.msgs ++ [m] ∧ m.fault.acc = 0 ∧ m.fault.cause = f.cause ∧ m.fault.addr = f.addr ∧
      m.fault.pc = u.pc ∧ t.inflight = s.inflight ∧ t.mem = s.mem)

/-- A store puts the bytes of its registers under way. For a unit of one thread that passes the checks, with the
debugger off: where the address goes to a memory site and no scoreboard range holds it, every store goes on, no
lane register changes, and the stores of its parts come under way, after a release's fence, each holding the
bytes of the registers at its place, in the private window as words of the slab (assumption 98); where a range
holds it, the thread is BLOCKED; where the address traps, the thread traps with that cause and TVAL ea, and
where it faults it parks and the fault goes to the Hall with access code 1. Device memory is as before: the
bytes are stored when the operation is performed. Cites: spec/15_memory_instructions.md,
spec/16_memory_instruction_notes.md, spec/25_memory_model.md. -/
def Obligations.StoresComeUnderWay : Prop :=
  ∀ (i : Instr) (F : LmForm), storeForm i = some F → ∀ (s s1 : State) (u : Issue) (k : Nat) (th : Thread),
    Starts s u → u.lanes = [k] → s.threads.find k = some th → Passes s F.storeUse u k th → s.dbgOn = false →
    let r := s.reach u.block (some th.stacklim) (F.ea u th) F.n 2 F.place (F.n == 4) true
    (∀ site a ro, r = (s1, .mem site a ro) → s1.rangeWait u.block site a F.n true = none →
      ∃ t, exec i s = .next t ∧ OneThread s t k (Moved u.next) ∧
        Issued s u ((if F.ord = 3 then [([k], .fence 2 F.scope.toNat)] else []) ++ F.stores k th site a) t) ∧
    (∀ o, r = (s1, .priv o) → ∃ t, exec i s = .next t ∧ OneThread s t k (Moved u.next) ∧
        Issued s u ((if F.ord = 3 then [([k], .fence 2 F.scope.toNat)] else []) ++
          (if F.n ≤ 4
            then [([k], .store (slabSite s u.block) (slabByte k o) ((regBytes th F.vt.toNat 1).take F.n))]
            else (List.range F.regs).map (fun j =>
              ([k], .store (slabSite s u.block) (slabByte k (o + 4 * j))
                (regBytes th (F.vt.toNat + j) 1))))) t) ∧
    (∀ site a ro w, r = (s1, .mem site a ro) → s1.rangeWait u.block site a F.n true = some w →
      ∃ t, exec i s = .next t ∧ OneThread s t k (fun th th' => th' = { th with st := .blocked w }) ∧
        t.inflight = s.inflight ∧ t.mem = s.mem) ∧
    (∀ c, r = (s1, .trap c) → Handled s k th → ∃ t, exec i s = .next t ∧
      OneThread s t k (Trapped c u.pc (F.ea u th) (s.handlerOf (blockOf k))) ∧
      t.inflight = s.inflight ∧ t.mem = s.mem) ∧
    (∀ f, r = (s1, .fault f) → ∃ t n m, exec i s = .next t ∧
      OneThread s t k (fun th th' => th' = { th with st := .parked (.xlate n (F.ea u th) false) }) ∧
      t.desk.msgs = s.desk.msgs ++ [m] ∧ m.fault.acc = 1 ∧ m.fault.cause = f.cause ∧ m.fault.addr = f.addr ∧
      m.fault.pc = u.pc ∧ t.inflight = s.inflight ∧ t.mem = s.mem)

/-- ATOM.32, ATOM.64 and RED put one atomic under way between its fences. For a unit of one thread that passes the
checks, with the debugger off, whose address goes to a memory site that no scoreboard range holds: the atomic
comes under way whole, with x from vd, and for CAS n from the register or pair after it, preceded by a release's
fence and followed by an acquire's; ATOM.32 and ATOM.64 empty vd, or the pair at vd, and RED changes no lane
register; one performed in the Larder requests the sectors that it lacks, and of global data the whole line
where the Larder holds no byte of it (R171); an atomic of the private window comes under way in the slab in the
same way (assumption 98); a range of the scoreboard leaves the thread BLOCKED; a FIFO address traps with cause
4, and an address that does not translate parks the thread and sends the fault to the Hall with access code 2.
Cites: spec/15_memory_instructions.md, spec/16_memory_instruction_notes.md, spec/25_memory_model.md. -/
def Obligations.AtomicsComeUnderWay : Prop :=
  ∀ (i : Instr) (wide ret : Bool) (vd va : BitVec 7) (op : BitVec 4) (scope : BitVec 3) (ord : BitVec 2),
    atomForm i = some (wide, ret, vd, va, op, scope, ord) →
    ∀ (s s1 : State) (u : Issue) (k : Nat) (th : Thread),
    Starts s u → u.lanes = [k] → s.threads.find k = some th → Passes s (atomUse wide ret vd va op) u k th →
    s.dbgOn = false →
    let w := if wide then 2 else 1
    let r := s.reach u.block (some th.stacklim) (th.val64 va) (4 * w) 3
      (if scope.toNat < 4 then .larder else if scope.toNat = 4 then .home else .fabricUnit) false false
    let value := fun j => if wide then (th.reg (j + 1)).val ++ (th.reg j).val else (th.reg j).val.setWidth 64
    (∀ site a ro, r = (s1, .mem site a ro) → s1.rangeWait u.block site a (4 * w) true = none →
      ∃ t fills, exec i s = .next t ∧
        OneThread s t k (Emptied vd.toNat (if ret then w else 0) u.next) ∧ (site ≠ .larder → fills = []) ∧
        (site = .larder → Fetches s (s.clusterOfBlock u.block) ro
          (atomicBytes (s.cluster (s.clusterOfBlock u.block)) a wide) fills) ∧
        Issued s u ((if ord.getLsbD 1 then [([k], .fence 2 scope.toNat)] else []) ++
          [([k], .atom site a wide op.toNat (value vd.toNat) (if op = 9 then value (vd.toNat + w) else 0)
            (if ret then some (.lanes k vd.toNat w) else none))] ++ fills ++
          (if ord.getLsbD 0 then [([k], .fence 1 scope.toNat)] else [])) t) ∧
    (∀ o, r = (s1, .priv o) → ∃ t fills, exec i s = .next t ∧
      OneThread s t k (Emptied vd.toNat (if ret then w else 0) u.next) ∧ (slabSite s u.block ≠ .larder → fills = []) ∧
      (slabSite s u.block = .larder → Fetches s (s.clusterOfBlock u.block) false
        (atomicBytes (s.cluster (s.clusterOfBlock u.block)) (slabByte k o) wide) fills) ∧
      Issued s u ((if ord.getLsbD 1 then [([k], .fence 2 scope.toNat)] else []) ++
        [([k], .atom (slabSite s u.block) (slabByte k o) wide op.toNat (value vd.toNat)
          (if op = 9 then value (vd.toNat + w) else 0) (if ret then some (.lanes k vd.toNat w) else none))] ++ fills ++
        (if ord.getLsbD 0 then [([k], .fence 1 scope.toNat)] else [])) t) ∧
    (∀ site a ro x, r = (s1, .mem site a ro) → s1.rangeWait u.block site a (4 * w) true = some x →
      ∃ t, exec i s = .next t ∧ OneThread s t k (fun th th' => th' = { th with st := .blocked x }) ∧
        t.inflight = s.inflight ∧ t.mem = s.mem) ∧
    (∀ c, r = (s1, .trap c) → Handled s k th → ∃ t, exec i s = .next t ∧
      OneThread s t k (Trapped c u.pc (th.val64 va) (s.handlerOf (blockOf k))) ∧
      t.inflight = s.inflight ∧ t.mem = s.mem) ∧
    (∀ f, r = (s1, .fault f) → ∃ t n m, exec i s = .next t ∧
      OneThread s t k (fun th th' => th' = { th with st := .parked (.xlate n (th.val64 va) false) }) ∧
      t.desk.msgs = s.desk.msgs ++ [m] ∧ m.fault.acc = 2 ∧ m.fault.cause = f.cause ∧ m.fault.addr = f.addr ∧
      m.fault.pc = u.pc ∧ t.inflight = s.inflight ∧ t.mem = s.mem)

/-- LD.B32 pops and ST.B32 pushes a Larder FIFO. For a unit of one thread that passes the checks, with the debugger
off, none of its fences or accesses under way, and a plain access whose address names a FIFO bank: LD.B32 takes
the oldest element, which will fill vt, now emptied; where the FIFO is empty it is BLOCKED while a group is
attached, and otherwise traps with cause 9; ST.B32 appends the value of vt, or is BLOCKED where the FIFO holds
32,768 elements. Cites: spec/15_memory_instructions.md, spec/16_memory_instruction_notes.md,
spec/25_memory_model.md. -/
def Obligations.FifoAccesses : Prop :=
  ∀ (tc : BitVec 2) (vt va : BitVec 7) (scope : BitVec 3) (off4 : BitVec 4) (s : State) (u : Issue) (k bank : Nat)
      (th : Thread), Starts s u → u.lanes = [k] → s.threads.find k = some th → s.dbgOn = false →
    (∀ o ∈ s.inflight, k ∉ o.members) →
    let F : LmForm := ⟨4, false, vt, va, 0, scope, off4⟩
    let cl := s.clusterOfBlock u.block
    let bankNow := fun (x : State) => (x.cluster cl).fifo.getD bank []
    (Passes s F.loadUse u k th →
      s.reach u.block (some th.stacklim) (F.ea u th) 4 1 F.place true true = (s, .fifo bank) →
      (∀ v rest, bankNow s = v :: rest → ∃ t, exec (.ldB32 tc vt va 0 scope off4) s = .next t ∧
        bankNow t = rest ∧ OneThread s t k (Emptied vt.toNat 1 u.next) ∧ t.mem = s.mem ∧
        t.inflight.map (fun o => (o.members, o.act)) =
          s.inflight.map (fun o => (o.members, o.act)) ++ [([k], .captured (.lanes k vt.toNat 1) v)]) ∧
      (bankNow s = [] → (s.cluster cl).attached.getD bank 0 ≠ 0 →
        ∃ t w, exec (.ldB32 tc vt va 0 scope off4) s = .next t ∧
          OneThread s t k (fun th th' => th' = { th with st := .blocked w }) ∧ bankNow t = []) ∧
      (bankNow s = [] → (s.cluster cl).attached.getD bank 0 = 0 → Handled s k th →
        ∃ t, exec (.ldB32 tc vt va 0 scope off4) s = .next t ∧
          OneThread s t k (Trapped 9 u.pc (F.ea u th) (s.handlerOf (blockOf k))))) ∧
    (Passes s F.storeUse u k th →
      s.reach u.block (some th.stacklim) (F.ea u th) 4 2 F.place true true = (s, .fifo bank) →
      ((bankNow s).length < 32768 → ∃ t, exec (.stB32 tc vt va 0 scope off4) s = .next t ∧
        bankNow t = bankNow s ++ [th.val vt] ∧ OneThread s t k (Moved u.next) ∧ t.mem = s.mem) ∧
      (32768 ≤ (bankNow s).length → ∃ t w, exec (.stB32 tc vt va 0 scope off4) s = .next t ∧
        bankNow t = bankNow s ∧ OneThread s t k (fun th th' => th' = { th with st := .blocked w })))

/-- FENCE, BARG, EXIT, HPUT, HGET and HTAKE over any unit. For a unit of any number of threads that pass the checks,
thread by thread in lane-number order: FENCE puts one fence of its kind and scope under way for each thread,
which goes on; BARG one fence of release at GROUP scope, and the thread waits for its group; EXIT ends each
thread, which then holds no token, and notes it for the end of the cycle; HPUT notes a put of vs for the end of
the cycle, with its port and lane (CoreCycles says which put that end takes); HGET and HTAKE of a full clean
hatch, as it stood at the start of the cycle, empty vd and put its value under way, and HTAKE notes the take.
Device memory is as before. For a unit of one thread, HGET and HTAKE of an empty hatch leave the thread BLOCKED
on the hatch while some other thread of its group has not exited, and otherwise trap with cause 8 and TVAL the
hatch number; a full poisoned hatch traps with cause 7 and stays; nothing is put under way and no hatch
operation is noted. Cites: spec/15_memory_instructions.md, spec/16_memory_instruction_notes.md,
spec/25_memory_model.md, spec/11_lane_integer.md, spec/17_control_instructions.md. -/
def Obligations.FencesAndHatches : Prop :=
  (∀ (s : State) (u : Issue) (tc : BitVec 2), Starts s u →
    (∀ (kind : BitVec 2) (scope : BitVec 3), AllPass s Use.plain u →
      ∃ t, exec (.fence tc kind scope) s = .next t ∧
        (∀ k ∈ u.lanes, ∀ th, s.threads.find k = some th →
          ∃ th', t.threads.find k = some th' ∧ Moved u.next th th') ∧
        (∀ k, k ∉ u.lanes → t.threads.find k = s.threads.find k) ∧ t.groups = s.groups ∧ t.mem = s.mem ∧
        t.inflight.map (fun o => (o.members, o.act)) = s.inflight.map (fun o => (o.members, o.act)) ++
          u.lanes.map (fun k => ([k], .fence kind.toNat scope.toNat))) ∧
    (AllPass s Use.plain u →
      ∃ t, exec (.barg tc) s = .next t ∧
        (∀ k ∈ u.lanes, ∀ th, s.threads.find k = some th →
          t.threads.find k = some { th with st := .blocked (.barg u.next) }) ∧
        (∀ k, k ∉ u.lanes → t.threads.find k = s.threads.find k) ∧ t.groups = s.groups ∧ t.mem = s.mem ∧
        t.inflight.map (fun o => (o.members, o.act)) = s.inflight.map (fun o => (o.members, o.act)) ++
          u.lanes.map (fun k => ([k], .fence 2 1))) ∧
    (AllPass s Use.plain u →
      ∃ t, exec (.exit tc) s = .next t ∧
        (∀ k ∈ u.lanes, ∀ th, s.threads.find k = some th →
          t.threads.find k = some { th with st := .exited, token := none, tokenOp := 0 }) ∧
        (∀ k, k ∉ u.lanes → t.threads.find k = s.threads.find k) ∧ t.groups = s.groups ∧ t.mem = s.mem ∧
        t.inflight = s.inflight ∧
        t.cyc.map (·.exiting) = s.cyc.map (fun c => c.exiting ++ u.lanes)) ∧
    (∀ (vs : BitVec 7) (h : BitVec 8), AllPass s { Use.plain with imp := [vs.toNat] } u →
      ∃ t, exec (.hput tc vs h) s = .next t ∧
        (∀ k ∈ u.lanes, ∀ th, s.threads.find k = some th →
          ∃ th', t.threads.find k = some th' ∧ Moved u.next th th') ∧
        (∀ k, k ∉ u.lanes → t.threads.find k = s.threads.find k) ∧ t.groups = s.groups ∧ t.mem = s.mem ∧
        t.cyc.map (·.hops) = s.cyc.map (fun c => c.hops ++ u.lanes.map (fun k =>
          .put (k / 8) h.toNat (8 * (if u.port = 2 then 2 else if u.port = 0 then 1 else 0) + k % 8)
            (((s.threads.find k).map (fun th => th.val vs)).getD 0)))) ∧
    (∀ (i : Instr) (vd : BitVec 7) (h : BitVec 8) (take : Bool),
      (i = .hget tc vd h ∧ take = false) ∨ (i = .htake tc vd h ∧ take = true) →
      AllPass s { Use.plain with dst := [vd.toNat] } u →
      (∀ k ∈ u.lanes, (snapHatch s (k / 8) h.toNat).full = true ∧ (snapHatch s (k / 8) h.toNat).poison = false) →
      ∃ t, exec i s = .next t ∧
        (∀ k ∈ u.lanes, ∀ th, s.threads.find k = some th →
          ∃ th', t.threads.find k = some th' ∧ Emptied vd.toNat 1 u.next th th') ∧
        (∀ k, k ∉ u.lanes → t.threads.find k = s.threads.find k) ∧ t.groups = s.groups ∧ t.mem = s.mem ∧
        t.inflight.map (fun o => (o.members, o.act)) = s.inflight.map (fun o => (o.members, o.act)) ++
          u.lanes.map (fun k => ([k], .captured (.lanes k vd.toNat 1) (snapHatch s (k / 8) h.toNat).val)) ∧
        t.cyc.map (·.hops) = s.cyc.map (fun c => c.hops ++
          if take then u.lanes.map (fun k => .take (k / 8) h.toNat) else []))) ∧
    (∀ (i : Instr) (tc : BitVec 2) (vd : BitVec 7) (h : BitVec 8) (s : State) (u : Issue) (k : Nat) (th : Thread),
    i = .hget tc vd h ∨ i = .htake tc vd h → Starts s u → u.lanes = [k] → s.threads.find k = some th →
    Passes s { Use.plain with dst := [vd.toNat] } u k th →
    let r := snapHatch s (k / 8) h.toNat
    ∃ t, exec i s = .next t ∧ OnlyThreads s t ∧ t.cyc.map (·.hops) = s.cyc.map (·.hops) ∧
      (r.full = false → (∃ p ∈ s.threads, p.1 / 8 = k / 8 ∧ p.1 ≠ k ∧ p.2.st ≠ .exited) →
        OneThread s t k (fun th th' => th' = { th with st := .blocked (.hatch h.toNat false) })) ∧
      (r.full = false → (∀ p ∈ s.threads, p.1 / 8 = k / 8 → p.1 ≠ k → p.2.st = .exited ∧
          ∀ c, s.cyc = some c → p.1 ∉ c.exiting) → Handled s k th →
        OneThread s t k (Trapped 8 u.pc (BitVec.ofNat 64 h.toNat) (s.handlerOf (blockOf k)))) ∧
      (r.full = true → r.poison = true → Handled s k th →
        OneThread s t k (Trapped 7 u.pc 0 (s.handlerOf (blockOf k)))))

/-- BAR.ARV, BAR.WT, BAR.SYNC and BAR.ARVC on an object in the core. For a unit of one thread that passes the
checks, of a block on one core that holds the object (not the launch barrier): an arrival puts a release fence
at BLOCK scope under way and adds 1, or for BAR.ARVC va, to A, at most to 16,384; BAR.ARV and BAR.SYNC hold a
token of the index and the current phase; BAR.WT and BAR.SYNC wait where the phase that they wait for, the
token's or else the current one, is still the current phase, and then the object's timer runs; BAR.WT on a phase
that is past goes on, its token spent, with an acquire fence. An index that the block does not hold traps with
cause 1. Cites: spec/17_control_instructions.md, spec/18_control_notes.md. -/
def Obligations.LaneBarriers : Prop :=
  ∀ (i : Instr) (tc : BitVec 2) (n : BitVec 11) (va : BitVec 7) (s : State) (u : Issue) (k : Nat) (th : Thread)
      (b : Block) (o : BarObj),
    Starts s u → u.lanes = [k] → s.threads.find k = some th → blockOf k = u.block →
    s.blocks.find u.block = some b → b.core.isSome = true → b.packet.cooperative = false →
    let obj := fun (x : State) => (x.blocks.find u.block).bind (fun y => y.objs.find n.toNat)
    let fences := fun (x : State) => x.inflight.map (fun q => (q.members, q.act))
    let waits := Wait.barrier n.toNat o.phase true u.next u.word
    (obj s = some o →
      (Passes s Use.plain u k th →
        (∃ t, exec (.barArv tc n) s = .next t ∧ t.mem = s.mem ∧
          OneThread s t k (fun th th' =>
            th' = { th with pc := u.next, st := .ready, token := some (n.toNat, o.phase), tokenOp := 0 }) ∧
          fences t = fences s ++ [([k], .fence 2 2)] ∧
          ∃ o', obj t = some o' ∧ o'.a = Nat.min 16384 (o.a + 1) ∧ o'.phase = o.phase ∧ o'.e = o.e) ∧
        (∃ t, exec (.barSync tc n) s = .next t ∧ t.mem = s.mem ∧
          OneThread s t k (fun th th' =>
            th' = { th with st := .blocked waits, token := some (n.toNat, o.phase), tokenOp := 0 }) ∧
          fences t = fences s ++ [([k], .fence 2 2)] ∧
          ∃ o', obj t = some o' ∧ o'.a = Nat.min 16384 (o.a + 1) ∧ o'.timer.isSome = true) ∧
        ((∀ p, th.token ≠ some (n.toNat, p) ∨ p = o.phase) →
          ∃ t, exec (.barWt tc n) s = .next t ∧ t.mem = s.mem ∧
            OneThread s t k (fun th th' => th' = { th with st := .blocked waits }) ∧ fences t = fences s ∧
            ∃ o', obj t = some o' ∧ o'.a = o.a ∧ o'.timer.isSome = true) ∧
        (th.token = some (n.toNat, !o.phase) →
          ∃ t, exec (.barWt tc n) s = .next t ∧ t.mem = s.mem ∧
            OneThread s t k (fun th th' =>
              th' = { th with pc := u.next, st := .ready, token := none, tokenOp := 0 }) ∧
            fences t = fences s ++ [([k], .fence 1 2)] ∧ obj t = some o)) ∧
      (Passes s { Use.plain with a := [va.toNat] } u k th →
        ∃ t, exec (.barArvc tc va n) s = .next t ∧ t.mem = s.mem ∧ OneThread s t k (Moved u.next) ∧
          fences t = fences s ++ [([k], .fence 2 2)] ∧
          ∃ o', obj t = some o' ∧ o'.a = Nat.min 16384 (o.a + (th.val va).toNat) ∧ o'.phase = o.phase)) ∧
    (obj s = none → Handled s k th →
      i = .barArv tc n ∨ i = .barWt tc n ∨ i = .barSync tc n → Passes s Use.plain u k th →
      ∃ t, exec i s = .next t ∧
        OneThread s t k (Trapped 1 u.pc (u.word.setWidth 64) (s.handlerOf u.block)))

/-- LDROW, STROW, RADD and RMAX put one row operation under way and hold its local range. For a unit of one thread
that passes the checks, with the debugger off, whose local operand names its scratch and whose row address names
a row of the tenant's table, both the row and its version word being mapped: where the scoreboard has room, the
thread goes on, one row read or row write of the row comes under way, and the scoreboard holds the local range
for it, as written by a row read and as read by a row write, whatever else it holds (R237); a row write also
drops the cluster's copies of the row; the row is performed when the operation completes. Where the scoreboard
holds 64 entries the thread is BLOCKED. Where the local operand is bad the thread traps with TVAL its address;
where no row is there, with cause 10 and TVAL the row address; where the row lies in the host window, with cause
4; where the row or its version word does not translate the thread parks on that address and the fault goes to
the Hall. Cites: spec/15_memory_instructions.md, spec/16_memory_instruction_notes.md, spec/25_memory_model.md,
spec/21_engine_instructions.md. -/
def Obligations.RowInstructionsComeUnderWay : Prop :=
  ∀ (i : Instr) (va vb : BitVec 7) (write : Bool) (act : RowRef → LocRef → MemAct),
    rowForm i = some (va, vb, write, act) → ∀ (s : State) (u : Issue) (k : Nat) (th : Thread),
    Starts s u → u.lanes = [k] → s.threads.find k = some th →
    Passes s { Use.plain with a := addrRegs va, b := addrRegs vb, roleB := true, la := true } u k th →
    s.dbgOn = false →
    let ga := th.val64 va
    let cl := s.clusterOfBlock u.block
    let ten := s.tenantOfBlock u.block
    let n := s.rowBytes ten ga.toNat
    let found := s.findRow cl ten ga.toNat (if write then 3 else 1)
    let place := s.rowLocal u.block (th.val64 vb) n
    (∀ loc r, place = .ok loc → found.2 = .row r →
      (s.rsbFull cl = false →
        ∃ t e, exec i s = .next t ∧ OneThread s t k (Moved u.next) ∧ t.mem = s.mem ∧
          t.inflight.map (fun o => (o.members, o.act)) =
            s.inflight.map (fun o => (o.members, o.act)) ++ [([k], act r loc)] ∧
          t.cluster cl = { s.cluster cl with
            rsb := (s.cluster cl).rsb ++ [e]
            rows := if write then (s.cluster cl).rows.filter (fun x => x.row.pa != r.pa) else (s.cluster cl).rows } ∧
          e.block = u.block ∧ e.core = loc.core ∧ e.lo = loc.off ∧ e.hi = loc.off + n - 1 ∧ e.write = !write) ∧
      (s.rsbFull cl = true → ∃ t, exec i s = .next t ∧
        OneThread s t k (fun th th' => th' = { th with st := .blocked .entry }) ∧ t.inflight = s.inflight ∧
        t.clusters = s.clusters ∧ t.mem = s.mem)) ∧
    (∀ c, place = .error c → Handled s k th → ∃ t, exec i s = .next t ∧
      OneThread s t k (Trapped c u.pc (th.val64 vb) (s.handlerOf (blockOf k))) ∧ t.inflight = s.inflight) ∧
    (∀ loc, place = .ok loc → (found.2 = .noRow ∨ found.2 = .refused) → Handled s k th →
      ∃ t, exec i s = .next t ∧ OneThread s t k
        (Trapped (if found.2 = .noRow then 10 else 4) u.pc ga (s.handlerOf (blockOf k))) ∧
        t.inflight = s.inflight) ∧
    (∀ loc f a, place = .ok loc → found.2 = .fault f a → ∃ t m q, exec i s = .next t ∧
      OneThread s t k (fun th th' => th' = { th with st := .parked (.xlate q (BitVec.ofNat 64 a) false) }) ∧
      t.desk.msgs = s.desk.msgs ++ [m] ∧ m.id = q ∧ m.fault.acc = (if write then 2 else 0) ∧
      m.fault.cause = f.cause ∧ m.fault.addr = f.addr ∧ m.fault.pc = u.pc ∧ t.inflight = s.inflight ∧ t.mem = s.mem)

/-- PRF, WBL and INVL. For a unit of one thread that passes the checks: outside the global range, and for PRF in a
cluster without a CACHE-mode bank or for a page of the host window, the instruction only goes on (an address of
the FIFO window is no fault: assumption 103). Where the page translates, WBL puts a write-back of the 128-byte
line under way, and PRF requests each sector of the line of which the Larder lacks a byte and which is not
already on its way; INVL, where no full fence of the thread at DEVICE scope or wider is under way, drops the
cluster's fetch copies of the line and puts an invalidation of the line under way, and otherwise is BLOCKED
(assumption 99). A page that does not translate parks the thread of a WBL or INVL, with access code 0, and drops
the request of a PRF. No lane register and no byte of device memory changes. Cites:
spec/15_memory_instructions.md, spec/16_memory_instruction_notes.md, spec/25_memory_model.md. -/
def Obligations.CacheMaintenance : Prop :=
  ∀ (tc : BitVec 2) (va : BitVec 7) (s : State) (u : Issue) (k : Nat) (th : Thread),
    Starts s u → u.lanes = [k] → s.threads.find k = some th →
    Passes s { Use.plain with a := addrRegs va, la := true } u k th →
    let ea := (th.val64 va).toNat
    let cl := s.clusterOfBlock u.block
    let x := s.translate cl (s.tenantOfBlock u.block) ea 1 s.choice
    (2 ^ 52 ≤ ea → ∀ i, i = .prf tc va ∨ i = .wbl tc va ∨ i = .invl tc va →
      ∃ t, exec i s = .next t ∧ OneThread s t k (Moved u.next) ∧ Issued s u [] t) ∧
    ((s.cluster cl).hasCache = false →
      ∃ t, exec (.prf tc va) s = .next t ∧ OneThread s t k (Moved u.next) ∧ Issued s u [] t) ∧
    (∀ pa p1 p2, ea < 2 ^ 52 → x = .ok pa p1 p2 →
      (∃ t, exec (.wbl tc va) s = .next t ∧ OneThread s t k (Moved u.next) ∧
        Issued s u [([k], .writeBack (pa / 128 * 128))] t) ∧
      (s.fullFencePending k = false →
        ∃ t, exec (.invl tc va) s = .next t ∧ OneThread s t k (Moved u.next) ∧
          Issued { s with clusters := t.clusters } u [([k], .invalidate (pa / 128 * 128))] t ∧
          (∀ c, c ≠ cl → t.cluster c = s.cluster c) ∧
          t.cluster cl = { s.cluster cl with icopy := (t.cluster cl).icopy } ∧
          ∀ a, (t.cluster cl).icopy.find a = if a / 128 = pa / 128 then none else (s.cluster cl).icopy.find a) ∧
      ((s.cluster cl).hasCache = true →
        ∃ t fills, exec (.prf tc va) s = .next t ∧ OneThread s t k (Moved u.next) ∧ Issued s u fills t ∧
          (inHostWindow pa = true → fills = []) ∧
          (inHostWindow pa = false → Fetches s cl (!p1.perm.getLsbD 1 && !p2.perm.getLsbD 1)
            (fun y => y / 128 = pa / 128) fills))) ∧
    (ea < 2 ^ 52 → s.fullFencePending k = true →
      ∃ t, exec (.invl tc va) s = .next t ∧ t.inflight = s.inflight ∧ t.clusters = s.clusters ∧
        OneThread s t k (fun th th' => th' = { th with st := .blocked .engine })) ∧
    (∀ f, ea < 2 ^ 52 → x = .fault f →
      (∃ t, exec (.prf tc va) s = .next t ∧ OneThread s t k (Moved u.next) ∧ Issued s u [] t) ∧
      (∀ i, i = .wbl tc va ∨ (i = .invl tc va ∧ s.fullFencePending k = false) →
        ∃ t n, exec i s = .next t ∧ t.mem = s.mem ∧
          OneThread s t k (fun th th' =>
            th' = { th with st := .parked (.xlate n (th.val64 va) false) }) ∧
          ∃ m, t.desk.msgs = s.desk.msgs ++ [m] ∧ m.fault.acc = 0 ∧ m.fault.cause = f.cause))

/-- The uniform arithmetic writes one register once for the arrival set. UADD, USUB, UAND, UOR, UXOR, UMUL, UMIN,
UMAX, UADDI, USHI, UMOVI and UMOVH write sd with the value that uniForm states, a write to s0 being discarded;
it completes for every arrival set whose registers pass the checks; every member goes on after the word; every
other uniform register, every predicate, hatch and counter of the group, every other group and thread, every
special register and all of memory stand as before. Cites: R204. -/
def Obligations.UniformResults : Prop :=
  ∀ (i : Instr) (srcs : List Nat) (sd : BitVec 8) (f : Group → Word32), uniForm i = some (srcs, sd, f) →
    ∀ (s : State) (u : Issue) (g : Group) (b : Block), StartsUni s u g b → UniPass g b srcs [sd.toNat] →
      ∃ t g', exec i s = .next t ∧ UniRan s u (u.wordAddr + 4) g' t ∧ WroteS sd.toNat (f g) g g'

/-- A uniform word whose registers do not pass. For the uniform arithmetic: a register at or beyond .uregs, or the
word in a lane unit, traps every member with cause 1 and TVAL the word; otherwise an empty source or destination
leaves every member BLOCKED on the registers; otherwise a poisoned source traps every member with cause 7; in
each case no group changes. Members are taken to be outside their handlers and the block to have one. Cites:
spec/19_uniform_instructions.md, spec/20_uniform_notes.md, spec/03_execution.md,
spec/17_control_instructions.md. -/
def Obligations.UniformChecks : Prop :=
  ∀ (i : Instr) (srcs : List Nat) (sd : BitVec 8) (f : Group → Word32), uniForm i = some (srcs, sd, f) →
    ∀ (s : State) (u : Issue) (g : Group) (b : Block), s.unit = some u → u.lanes.Nodup →
      (∀ k ∈ u.lanes, ∃ th, s.threads.find k = some th ∧ Handled s k th) →
      s.groups.find u.group = some g → s.blocks.find u.block = some b →
      let dsts := [sd.toNat].filter (fun r => decide (r ≠ 0))
      let bad := u.port ≠ 2 ∨ ∃ r ∈ srcs ++ dsts, b.packet.uregs ≤ r
      let empty := ∃ r ∈ srcs ++ dsts, (g.sreg r).full = false
      ∃ t, (bad ∨ empty ∨ ∃ r ∈ srcs, (g.sreg r).poison = true) →
        exec i s = .next t ∧ t.groups = s.groups ∧ t.mem = s.mem ∧
        (bad → Members s u (fun k th th' =>
          Trapped 1 u.pc (u.word.setWidth 64) (s.handlerOf (blockOf k)) th th') t) ∧
        (¬bad → empty → Members s u (fun _ th th' => th' = { th with st := .blocked (.regs [] (dsts ++ srcs)) }) t) ∧
        (¬bad → ¬empty → Members s u (fun k th th' =>
          Trapped 7 u.pc 0 (s.handlerOf (blockOf k)) th th') t)

/-- UCMP, UBR, UNOP, UYIELD, UTRAP and UPARK. UCMP sets predicate q to the comparison, a write to q0 being
discarded, and changes nothing else of the group; UBR takes every member to its target where the condition holds
of q, q0 reading true, and else after the word; UNOP only goes on; UYIELD leaves every member DEFERRED for up to
64 issue slots; UTRAP traps every member with cause 11 and TVAL its code; UPARK parks every member and posts one
record of kind 4 with its code and sa to the queue of the block's tenant, open for an answer that acts on the
members. Cites: spec/19_uniform_instructions.md, spec/20_uniform_notes.md, spec/03_execution.md. -/
def Obligations.UniformControl : Prop :=
  ∀ (s : State) (u : Issue) (g : Group) (b : Block), StartsUni s u g b →
    (∀ (tc : BitVec 2) (q : BitVec 3) (cc : BitVec 5) (sa sb : BitVec 8), UniPass g b [sa.toNat, sb.toNat] [] →
      ∃ t g', exec (.ucmp tc q cc sa sb) s = .next t ∧ UniRan s u (u.wordAddr + 4) g' t ∧
        g' = { g with preds := g'.preds } ∧
        ∀ j : Nat, j < 8 → g'.pred j =
          if j = q.toNat ∧ j ≠ 0 then compared cc (g.val sa) (g.val sb) else g.pred j) ∧
    (∀ (tc : BitVec 2) (cond q : BitVec 3) (off : BitVec 18),
      ∃ t, exec (.ubr tc cond q off) s = .next t ∧
        UniRan s u (if cond = 0 ∨ (cond = 1 ∧ g.pred q.toNat = true) ∨
            (cond ≠ 0 ∧ cond ≠ 1 ∧ g.pred q.toNat = false)
          then u.wordAddr + 4 * off.signExtend 64 else u.wordAddr + 4) g t) ∧
    (g.pred 0 = true) ∧
    (∀ tc : BitVec 2, ∃ t, exec (.unop tc) s = .next t ∧ UniRan s u (u.wordAddr + 4) g t) ∧
    (∀ tc : BitVec 2, ∃ t, exec (.uyield tc) s = .next t ∧ t.groups = s.groups ∧ t.mem = s.mem ∧
      Members s u (fun _ th th' => th' = { th with pc := u.wordAddr + 4, st := .deferred 64 }) t) ∧
    (∀ (tc : BitVec 2) (code : BitVec 12), (∀ k ∈ u.lanes, ∀ th, s.threads.find k = some th → Handled s k th) →
      ∃ t, exec (.utrap tc code) s = .next t ∧ t.groups = s.groups ∧ t.mem = s.mem ∧
        Members s u (fun k th th' => Trapped 11 u.pc (code.setWidth 64) (s.handlerOf (blockOf k)) th th') t) ∧
    (∀ (tc : BitVec 2) (sa : BitVec 8) (code : BitVec 12), UniPass g b [sa.toNat] [] → s.dbgOn = false →
      ∃ t n r, exec (.upark tc sa code) s = .next t ∧ t.groups = s.groups ∧
        Members s u (fun _ th th' => th' = { th with st := .parked (.upark n code) }) t ∧
        Reported s t b.tenant r (.agents [n] []) ∧ r.kind = 4 ∧ r.info = code.setWidth 32 ∧
        r.info2 = (g.val sa).setWidth 64 ∧ r.pc = u.pc)

/-- URDSR, UWRSR GTAG, HPOIS, FATTACH, FDETACH and the hatches of the uniform side. URDSR writes the special
register that its index names, CYCLE and ETIME into a pair, and LREM empties sd and comes under way; UWRSR GTAG
notes the write of GTAG, HPOIS the poisoning of each hatch that its mask names, and FATTACH and FDETACH that the
group attaches to, or detaches from, a bank in FIFO mode, all for the end of the cycle, of which CoreCycles says
what it makes of them; FATTACH and FDETACH trap with cause 4 and TVAL the number where the bank is not a FIFO;
UHPUT notes a put; UHGET and UHTAKE of a full clean hatch empty sd and put its value under way. Cites:
spec/19_uniform_instructions.md, spec/20_uniform_notes.md, spec/03_execution.md. -/
def Obligations.UniformSpecials : Prop :=
  ∀ (s : State) (u : Issue) (g : Group) (b : Block), StartsUni s u g b →
    (∀ (tc : BitVec 2) (sd : BitVec 8) (n : BitVec 12), n ≠ 0x010 →
      UniPass g b [] (if n.toNat < 2 then [sd.toNat, sd.toNat + 1] else [sd.toNat]) →
      let v := uniSpecialOf s g b u.group n.toNat
      ∃ t g', exec (.urdsr tc sd n) s = .next t ∧ UniRan s u (u.wordAddr + 4) g' t ∧
        g' = { g with sregs := g'.sregs } ∧
        ∀ r, g'.sreg r = if r = 0 then g.sreg 0
          else if n.toNat < 2 ∧ r = sd.toNat + 1 then ⟨v.extractLsb' 32 32, true, false⟩
          else if r = sd.toNat then ⟨v.extractLsb' 0 32, true, false⟩ else g.sreg r) ∧
    (∀ (tc : BitVec 2) (sd : BitVec 8), UniPass g b [] [sd.toNat] →
      ∃ t g', exec (.urdsr tc sd 0x010) s = .next t ∧ t.groups.find u.group = some g' ∧
        (∀ r, g'.sreg r = if r = sd.toNat ∧ r ≠ 0 then { g.sreg r with full := false } else g.sreg r) ∧
        g' = { g with sregs := g'.sregs } ∧ t.mem = s.mem ∧
        Members s u (fun _ th th' => Moved (u.wordAddr + 4) th th') t ∧
        t.inflight.map (fun o => (o.members, o.act)) = s.inflight.map (fun o => (o.members, o.act)) ++
          [(u.lanes, .lrem b.launch (.unis u.group sd.toNat 1))]) ∧
    (∀ (tc : BitVec 2) (sa : BitVec 8), UniPass g b [sa.toNat] [] →
      (∃ t, exec (.uwrsr tc sa 0x00A) s = .next t ∧ t.groups = s.groups ∧ t.mem = s.mem ∧
        Members s u (fun _ th th' => Moved (u.wordAddr + 4) th th') t ∧
        t.cyc.map (·.late) = s.cyc.map (fun c => c.late ++ [.gtag u.group (g.val sa)])) ∧
      (∃ t, exec (.hpois tc sa) s = .next t ∧ t.groups = s.groups ∧ t.mem = s.mem ∧
        Members s u (fun _ th th' => Moved (u.wordAddr + 4) th th') t ∧
        t.cyc.map (·.hops) = s.cyc.map (fun c => c.hops ++
          ((List.range 16).filter (fun h => (g.val sa).getLsbD h)).map (fun h => .poison u.group h))) ∧
      (∀ h : BitVec 4, ∃ t, exec (.uhput tc sa h) s = .next t ∧ t.groups = s.groups ∧ t.mem = s.mem ∧
        Members s u (fun _ th th' => Moved (u.wordAddr + 4) th th') t ∧
        t.cyc.map (·.hops) = s.cyc.map (fun c => c.hops ++ [.put u.group h.toNat 16 (g.val sa)])) ∧
      (∀ (i : Instr) (on : Bool), (i = .fattach tc sa ∧ on = true) ∨ (i = .fdetach tc sa ∧ on = false) →
        let n := (g.val sa).toNat
        let cl := s.clusterOfBlock u.block
        (n < 48 → (s.cluster cl).bankMode n = 2 →
          ∃ t, exec i s = .next t ∧ t.groups = s.groups ∧ t.clusters = s.clusters ∧ t.mem = s.mem ∧
            Members s u (fun _ th th' => Moved (u.wordAddr + 4) th th') t ∧
            t.cyc.map (·.late) = s.cyc.map (fun c => c.late ++ [.attach u.group cl n on])) ∧
        ((48 ≤ n ∨ (s.cluster cl).bankMode n ≠ 2) →
          (∀ k ∈ u.lanes, ∀ th, s.threads.find k = some th → Handled s k th) →
          ∃ t, exec i s = .next t ∧ t.groups = s.groups ∧ Members s u (fun k th th' =>
            Trapped 4 u.pc (BitVec.ofNat 64 n) (s.handlerOf (blockOf k)) th th') t))) ∧
    (∀ (i : Instr) (tc : BitVec 2) (sd : BitVec 8) (h : BitVec 4) (take : Bool),
      (i = .uhget tc sd h ∧ take = false) ∨ (i = .uhtake tc sd h ∧ take = true) →
      UniPass g b [] [sd.toNat] →
      (snapHatch s u.group h.toNat).full = true → (snapHatch s u.group h.toNat).poison = false →
      ∃ t g', exec i s = .next t ∧ t.groups.find u.group = some g' ∧ t.mem = s.mem ∧
        (∀ r, g'.sreg r = if r = sd.toNat ∧ r ≠ 0 then { g.sreg r with full := false } else g.sreg r) ∧
        g' = { g with sregs := g'.sregs } ∧
        Members s u (fun _ th th' => Moved (u.wordAddr + 4) th th') t ∧
        t.inflight.map (fun o => (o.members, o.act)) = s.inflight.map (fun o => (o.members, o.act)) ++
          [(u.lanes, .captured (.unis u.group sd.toNat 1) (snapHatch s u.group h.toNat).val)] ∧
        t.cyc.map (·.hops) = s.cyc.map (fun c => c.hops ++ if take then [.take u.group h.toNat] else []))

/-- ULD and UST put one access under way for the arrival set. With the debugger off and registers that pass the
checks: where the address in the pair goes to a memory site that no scoreboard range holds, ULD.32 and ULD.64
empty their registers (s0 needs and keeps nothing), put the loads of the access under way and, in the Larder,
request each sector of it of which the Larder lacks a byte and which is not already on its way; UST.32 and
UST.64 put under way the stores of the registers' bytes, s0 giving 0; one access whatever the number of members,
who go on. A range that holds the access leaves every member BLOCKED on it. ULD.32 of a FIFO bank, none of the
members' fences being under way, takes the oldest element, and of an empty one waits while a group is attached
and else traps with cause 9; a plain UST.32 appends sa, or is BLOCKED where the FIFO holds 32,768 elements.
Where the access traps every member traps with that cause and TVAL the address, and an aligned private address
traps with cause 4; where its page does not translate every member parks with one fault, of access code 0 or 1,
sent to the Hall for the set. Device memory is as before. Cites: spec/19_uniform_instructions.md,
spec/20_uniform_notes.md, spec/03_execution.md, spec/15_memory_instructions.md, spec/25_memory_model.md,
spec/31_faults.md. -/
def Obligations.UniformMemory : Prop :=
  ∀ (s s1 : State) (u : Issue) (g : Group) (b : Block) (tc : BitVec 2) (r : BitVec 8) (p : BitVec 7)
      (ord : BitVec 2) (scope : BitVec 3), StartsUni s u g b → s.dbgOn = false →
    let ea := g.val64 (2 * p.toNat)
    let place : Site := if ord ≠ 0 ∧ 4 ≤ scope.toNat then .home else .larder
    let pairP := [2 * p.toNat, 2 * p.toNat + 1]
    let cl := s.clusterOfBlock u.block
    let goOn := fun (t : State) => Members s u (fun _ th th' => Moved (u.wordAddr + 4) th th') t
    let waits := fun (t : State) (w : Wait) => t.groups = s.groups ∧ t.inflight = s.inflight ∧ t.mem = s.mem ∧
      Members s u (fun _ th th' => th' = { th with st := .blocked w }) t
    let traps := fun (t : State) (c : Nat) => t.groups = s.groups ∧ t.inflight = s.inflight ∧ t.mem = s.mem ∧
      Members s u (fun k th th' => Trapped c u.pc ea (s.handlerOf (blockOf k)) th th') t
    let parks := fun (t : State) (acc : Nat) (f : XFault) => ∃ m, t.groups = s.groups ∧ t.inflight = s.inflight ∧
      t.mem = s.mem ∧ t.desk.msgs = s.desk.msgs ++ [m] ∧ m.fault.acc = acc ∧ m.fault.cause = f.cause ∧
      m.fault.addr = f.addr ∧ m.fault.pc = u.pc ∧ ((s.blocks.find (u.group / 2048)).isSome → m.fault.set = true) ∧
      Members s u (fun _ th th' => th' = { th with st := .parked (.xlate m.id ea false) }) t
    let handled := ∀ k ∈ u.lanes, ∀ th, s.threads.find k = some th → Handled s k th
    let acts := fun (x : State) => x.inflight.map (fun o => (o.members, o.act))
    let fifoNow := fun (x : State) (bank : Nat) => (x.cluster cl).fifo.getD bank []
    (∀ (i : Instr) (n : Nat), (i = .uld32 tc r p ord scope ∧ n = 4) ∨ (i = .uld64 tc r p ord scope ∧ n = 8) →
      UniPass g b pairP ((List.range (n / 4)).map (fun j => r.toNat + j)) →
      let emptied := fun (t : State) => ∃ g', t.groups.find u.group = some g' ∧ g' = { g with sregs := g'.sregs } ∧
        ∀ j, g'.sreg j = if r.toNat ≤ j ∧ j < r.toNat + n / 4 ∧ j ≠ 0 then { g.sreg j with full := false }
          else g.sreg j
      (∀ site a ro, s.reach u.block none ea n 1 place (n == 4) true = (s1, .mem site a ro) →
        (s1.rangeWait u.block site a n false = none →
          ∃ t fills, exec i s = .next t ∧ t.mem = s.mem ∧ emptied t ∧ (site ≠ .larder → fills = []) ∧
            (site = .larder → Fetches s cl ro (fun y => a ≤ y ∧ y < a + n) fills) ∧ goOn t ∧
            acts t = acts s ++ (wholes n (decide (ord ≠ 0))).map (fun q =>
              (u.lanes, .load site (a + q.1) q.2 false (.unis u.group (r.toNat + q.1 / 4) (q.2 / 4)) ro)) ++ fills ++
              (if ord = 2 then [(u.lanes, .fence 1 scope.toNat)] else [])) ∧
        (∀ w, s1.rangeWait u.block site a n false = some w → ∃ t, exec i s = .next t ∧ waits t w)) ∧
      (∀ bank, s.reach u.block none ea n 1 place (n == 4) true = (s1, .fifo bank) → s.fencePending u.lanes = false →
        (∀ v rest, fifoNow s bank = v :: rest → ∃ t, exec i s = .next t ∧ fifoNow t bank = rest ∧ t.mem = s.mem ∧
          emptied t ∧ goOn t ∧ acts t = acts s ++ [(u.lanes, .captured (.unis u.group r.toNat 1) v)] ++
            (if ord = 2 then [(u.lanes, .fence 1 scope.toNat)] else [])) ∧
        (fifoNow s bank = [] → (s.cluster cl).attached.getD bank 0 ≠ 0 →
          ∃ t, exec i s = .next t ∧ waits t (.fifoPop bank ea)) ∧
        (fifoNow s bank = [] → (s.cluster cl).attached.getD bank 0 = 0 → handled →
          ∃ t, exec i s = .next t ∧ traps t 9)) ∧
      (∀ c, s.reach u.block none ea n 1 place (n == 4) true = (s1, .trap c) → handled →
        ∃ t, exec i s = .next t ∧ traps t c) ∧
      (ea.toNat / 2 ^ 48 = 0xFFF0 → ea.toNat % n = 0 → handled → ∃ t, exec i s = .next t ∧ traps t 4) ∧
      (∀ f, s.reach u.block none ea n 1 place (n == 4) true = (s1, .fault f) →
        ∃ t, exec i s = .next t ∧ parks t 0 f)) ∧
    (∀ (i : Instr) (n : Nat), (i = .ust32 tc r p ord scope ∧ n = 4) ∨ (i = .ust64 tc r p ord scope ∧ n = 8) →
      UniPass g b ((List.range (n / 4)).map (fun j => r.toNat + j) ++ pairP) [] →
      (∀ site a ro, s.reach u.block none ea n 2 place (n == 4) true = (s1, .mem site a ro) →
        (s1.rangeWait u.block site a n true = none →
          ∃ t, exec i s = .next t ∧ t.mem = s.mem ∧ t.groups = s.groups ∧ goOn t ∧
            acts t = acts s ++ (if ord = 3 then [(u.lanes, .fence 2 scope.toNat)] else []) ++
              (wholes n (decide (ord ≠ 0))).map (fun q => (u.lanes, .store site (a + q.1)
                (((List.range n).map (fun j => byteOf (g.sreg (r.toNat + j / 4)).val (j % 4))).drop q.1 |>.take q.2)))) ∧
        (∀ w, s1.rangeWait u.block site a n true = some w → ∃ t, exec i s = .next t ∧ waits t w)) ∧
      (∀ bank, s.reach u.block none ea n 2 place (n == 4) true = (s1, .fifo bank) → s.fencePending u.lanes = false →
        ord = 0 →
        ((fifoNow s bank).length < 32768 → ∃ t, exec i s = .next t ∧ t.groups = s.groups ∧ t.mem = s.mem ∧ goOn t ∧
          fifoNow t bank = fifoNow s bank ++ [g.val r] ∧ acts t = acts s) ∧
        (32768 ≤ (fifoNow s bank).length → ∃ t, exec i s = .next t ∧ waits t (.fifoPush bank))) ∧
      (∀ c, s.reach u.block none ea n 2 place (n == 4) true = (s1, .trap c) → handled →
        ∃ t, exec i s = .next t ∧ traps t c) ∧
      (ea.toNat / 2 ^ 48 = 0xFFF0 → ea.toNat % n = 0 → handled → ∃ t, exec i s = .next t ∧ traps t 4) ∧
      (∀ f, s.reach u.block none ea n 2 place (n == 4) true = (s1, .fault f) →
        ∃ t, exec i s = .next t ∧ parks t 1 f))

/-- BALLOC, BFREE and BINIT. For a block on one core of a launch that is not COOPERATIVE, or an index that is not
2,047: BALLOC makes a free index an object in ALL mode with E the block's threads that have not exited, A 0 and
PHASE 0 and writes 1, writes 0 where the block holds the index, and 0xFFFF_FFFF where the core has no object
left; BFREE removes an object, and the members go on; BINIT.all sets ALL mode and E to the live threads,
BINIT.count COUNT mode and E to sa from 1 to 16,384; a BFREE or BINIT of an index that the block does not hold,
or a count outside that range, traps every member with cause 1 and TVAL the word. BFREE of an object with
waiters makes each thread that waits at it, with no release on its way, trap with cause 1, TEPC the address of
its barrier unit and TVAL its word, and empties the token of every thread of the block that names the index; no
other thread changes. On a spanning block the members of a BALLOC wait for the cluster unit (BarrierEvents says
what its answer does), and BFREE and BINIT act at once (assumption 109). Cites: spec/19_uniform_instructions.md,
spec/20_uniform_notes.md, spec/03_execution.md, spec/17_control_instructions.md. -/
def Obligations.BarrierObjects : Prop :=
  ∀ (s : State) (u : Issue) (g : Group) (b : Block) (tc : BitVec 2) (n : BitVec 11), StartsUni s u g b →
    (b.packet.cooperative = false ∨ n ≠ 2047) →
    let obj := fun (x : State) => (x.blocks.find u.block).bind (fun y => y.objs.find n.toNat)
    let live := (s.threads.filter (fun p => p.1 / 16384 == u.block && decide (p.2.st ≠ .exited))).length
    let goOn := fun (t : State) => Members s u (fun _ th th' => Moved (u.wordAddr + 4) th th') t
    (b.core.isSome = true → ∀ sd : BitVec 8, UniPass g b [] [sd.toNat] →
      ∃ t g', exec (.balloc tc sd n) s = .next t ∧ t.mem = s.mem ∧ goOn t ∧ t.groups.find u.group = some g' ∧
        WroteS sd.toNat (if (obj s).isSome then 0 else if 2048 ≤ s.objsUsed b then 0xFFFFFFFF else 1) g g' ∧
        obj t = if (obj s).isNone ∧ s.objsUsed b < 2048 then some ⟨false, live, 0, false, none, [], []⟩ else obj s) ∧
    (b.core = none → ∀ sd : BitVec 8, UniPass g b [] [sd.toNat] →
      ∃ t m, exec (.balloc tc sd n) s = .next t ∧ t.groups = s.groups ∧
        Members s u (fun _ th th' => th' = { th with st := .blocked (.balloc n.toNat sd.toNat m) }) t) ∧
    (∀ o, obj s = some o →
      (∃ t, exec (.binitAll tc n) s = .next t ∧ goOn t ∧ t.groups = s.groups ∧ t.mem = s.mem ∧
        obj t = some { o with count := false, e := live }) ∧
      (∀ sa : BitVec 8, UniPass g b [sa.toNat] [] → 1 ≤ (g.val sa).toNat → (g.val sa).toNat ≤ 16384 →
        ∃ t, exec (.binitCount tc sa n) s = .next t ∧ goOn t ∧ t.groups = s.groups ∧ t.mem = s.mem ∧
          obj t = some { o with count := true, e := (g.val sa).toNat }) ∧
      ((∀ p ∈ s.threads, ∀ ph nx w, p.2.st ≠ .blocked (.barrier n.toNat ph true nx w)) →
        (∀ p ∈ s.threads, p.2.token = none) →
        ∃ t, exec (.bfree tc n) s = .next t ∧ goOn t ∧ t.groups = s.groups ∧ obj t = none) ∧
      (s.threads.sorted = true → ∃ t, exec (.bfree tc n) s = .next t ∧ t.groups = s.groups ∧ obj t = none ∧
        ∀ k th, s.threads.find k = some th → k ∉ u.lanes →
          let th0 := if k / 16384 = u.block ∧ th.token.map (·.1) = some n.toNat then { th with token := none } else th
          let stuck := fun (w : Word32) => k / 16384 = u.block ∧ s.releaseSent k n.toNat = false ∧
            ∃ ph nx, th.st = .blocked (.barrier n.toNat ph true nx w)
          (∀ w, stuck w → Handled s k th → ∃ th', t.threads.find k = some th' ∧
            Trapped 1 th.pc (w.setWidth 64) (s.handlerOf u.block) th0 th') ∧
          ((∀ w, ¬stuck w) → t.threads.find k = some th0))) ∧
    ((∀ k ∈ u.lanes, ∀ th, s.threads.find k = some th → Handled s k th) →
      let trapped := fun (t : State) => t.groups = s.groups ∧ Members s u (fun k th th' =>
        Trapped 1 u.pc (u.word.setWidth 64) (s.handlerOf (blockOf k)) th th') t
      (obj s = none → (∃ t, exec (.bfree tc n) s = .next t ∧ trapped t) ∧
        (∃ t, exec (.binitAll tc n) s = .next t ∧ trapped t)) ∧
      (∀ sa : BitVec 8, UniPass g b [sa.toNat] [] →
        (obj s = none ∨ (g.val sa).toNat = 0 ∨ 16384 < (g.val sa).toNat) →
        ∃ t, exec (.binitCount tc sa n) s = .next t ∧ trapped t))

/-- PAN, GRN, CPY, GAT, SCT and FAB, WAITC and LNCH. For an arrival set whose registers pass the checks: an engine
instruction whose parameters pass, whose members have no access under way, with room in the engine queue and in
the class counter, and for CPY an answered shape table, and where the range that it writes, if any, has a
scoreboard entry free, which it takes at the end of the cycle (R220, step 5), puts one operation at the end of
the engine queue, its handle in sr with the class, the group and the sequence, the issue count one higher, and
the members go on; members with an access under way wait; where a parameter check fails, the issuing block is
killed and a record of kind 10 with cause 3 names its group, the unit, the major opcode and the lowest word that
fails (R222, R316). WAITC goes on, with the effect of an acquire fence at BLOCK scope, where the counter is at
most k, and otherwise its members are BLOCKED on it; LNCH.SUCC sets a successor of the live launch, or at an
address that is misaligned or beyond the global range is a parameter fault of word 0, LNCH.LMODE puts the mode
change under way behind a full fence, and LNCH.CANCEL records the cancel; the members go on. Cites:
spec/21_engine_instructions.md, spec/22_engine_notes.md, spec/19_uniform_instructions.md. -/
def Obligations.EngineIssue : Prop :=
  ∀ (s : State) (u : Issue) (g : Group) (b : Block) (tc : BitVec 2), StartsUni s u g b → u.block = u.group / 2048 →
    let goOn := fun (t : State) => Members s u (fun _ th th' => Moved (u.wordAddr + 4) th th') t
    let fenced := fun (t : State) (acts : List (List Nat × MemAct)) =>
      t.inflight.map (fun o => (o.members, o.act)) = s.inflight.map (fun o => (o.members, o.act)) ++ acts
    (∀ (i : Instr) (sp sr : BitVec 8) (cls : Nat) (home : Bool) (checks : List Word32 → Block → List (Nat × Bool)),
      engineForm s i = some (sp, sr, cls, home, checks) →
      UniPass g b ((List.range 16).map (fun j => sp.toNat + j)) [sr.toNat] →
      let p := (List.range 16).map (fun j => (g.sreg (sp.toNat + j)).val)
      (∀ w, firstBad (checks p b) = some w → s.dbgOn = false →
        (∀ e, s.entry b.launch = some e → e.counter ≠ 0) → ∃ t, exec i s = .next t ∧ ParamFault s t u b w) ∧
      (firstBad (checks p b) = none → s.hasAccess u.lanes = true → ∃ t, exec i s = .next t ∧ t.groups = s.groups ∧ t.ops = s.ops ∧
        Members s u (fun _ th th' => th' = { th with st := .blocked .engine }) t) ∧
      (∀ shape, firstBad (checks p b) = none → s.hasAccess u.lanes = false → (s.cluster b.cluster).engQ.length < 64 → g.counter cls < 64 →
        (if cls = 2 then s.segAnswer u p else some []) = some shape →
        s.rsbFull b.cluster = false →
        ∃ t g' id o, exec i s = .next t ∧ goOn t ∧ t.mem = s.mem ∧ t.ops.find id = some o ∧
          (t.cluster b.cluster).rsb = (s.cluster b.cluster).rsb ∧
          t.cyc.map (·.late) = s.cyc.map (fun c => c.late ++ (match o.range (s.rowSize u.block p) with
            | some (core, lo, hi) => [.range ⟨u.block, core, lo, hi, true, none, some id⟩]
            | none => [])) ∧
          (t.cluster b.cluster).engQ = (s.cluster b.cluster).engQ ++ [id] ∧
          o.params = p ∧ o.cls = cls ∧ o.home = home ∧ o.block = u.block ∧ o.shape = shape ∧ o.pushed = 0 ∧
          o.seq = g.iss.getD cls 0 ∧
          o.handle = BitVec.ofNat 32 (2 ^ 29 * cls + 65536 * (u.group % 2048) + o.seq % 65536) ∧
          t.groups.find u.group = some g' ∧ g'.iss.getD cls 0 = g.iss.getD cls 0 + 1 ∧
          (sr ≠ 0 → g'.sreg sr.toNat = ⟨o.handle, true, false⟩) ∧
          ∀ r, r ≠ sr.toNat → g'.sreg r = g.sreg r)) ∧
    (∀ (cls : BitVec 3) (k : BitVec 16),
      (g.counter cls.toNat ≤ k.toNat → ∃ t, exec (.waitc tc cls k) s = .next t ∧ goOn t ∧ t.groups = s.groups ∧
        fenced t [(u.lanes, .fence 1 2)]) ∧
      (k.toNat < g.counter cls.toNat → ∃ t, exec (.waitc tc cls k) s = .next t ∧ t.groups = s.groups ∧ fenced t [] ∧
        Members s u (fun _ th th' => th' = { th with st := .blocked (.counter cls.toNat k.toNat) }) t)) ∧
    (∀ (sa : BitVec 8) (slot : BitVec 3) (e : Entry), UniPass g b [sa.toNat, sa.toNat + 1] [] →
      s.entry b.launch = some e → e.live = true →
      (g.val64 sa.toNat).toNat % 128 = 0 → (g.val64 sa.toNat).toNat + 128 ≤ 2 ^ 52 →
      ∃ t e', exec (.lnchSucc tc sa slot) s = .next t ∧ goOn t ∧ t.groups = s.groups ∧
        t.entry b.launch = some e' ∧ e'.succ = setAt e.succ slot.toNat (g.val64 sa.toNat).toNat) ∧
    (∀ (sa : BitVec 8) (slot : BitVec 3), UniPass g b [sa.toNat, sa.toNat + 1] [] → s.dbgOn = false →
      (g.val64 sa.toNat ≠ 0 ∧ ((g.val64 sa.toNat).toNat % 128 ≠ 0 ∨ 2 ^ 52 < (g.val64 sa.toNat).toNat + 128)) →
      (∀ e, s.entry b.launch = some e → e.counter ≠ 0) →
      ∃ t, exec (.lnchSucc tc sa slot) s = .next t ∧ ParamFault s t u b 0) ∧
    (∀ (sa : BitVec 8) (mode : BitVec 2),
      UniPass g b [sa.toNat, sa.toNat + 1] [sa.toNat, sa.toNat + 1] →
      ∃ t, exec (.lnchLmode tc sa mode) s = .next t ∧ goOn t ∧ t.mem = s.mem ∧
        fenced t [(u.lanes, .fence 3 3),
          (u.lanes, .lmode mode.toNat ((g.val64 sa.toNat).toNat % 2 ^ 48) (.unis u.group sa.toNat 2))]) ∧
    (∀ (sa : BitVec 8) (level : BitVec 2), UniPass g b [sa.toNat] [] →
      ∃ t, exec (.lnchCancel tc sa level) s = .next t ∧ goOn t ∧ t.groups = s.groups ∧ t.blocks = s.blocks ∧
        t.tree.cancels = s.tree.cancels ++ [(b.tenant, level.toNat, (g.val sa).toNat)])

/-- LOAD_COMPLETE, HATCH_READ_COMPLETE, LREM_READ_COMPLETE, ATOMIC_COMPLETE and RED_COMPLETE perform what is under
way. For an operation under way that follows nothing: a load whose bytes its site has fills its registers with
them, sign- or zero-extended below 32 bits, poisoned where the data is, and is over; a load whose bytes the
Larder lacks stays under way, and each sector of its range of which a byte is missing is requested unless it is
on its way; a hatch read or another captured value fills its register; LREM brings the launch's counter
(captured values and LREM as events of their own are the model's choice, assumption 93); an atomic of the
Larder, of scratch or of home fills its registers with the old value and leaves the new one of R172 and R173 at
its site, and writes nothing on poisoned bytes or where a CAS fails; one whose bytes the Larder lacks asks for
its sectors, or for the line when no byte of it is held; a RED does the same and fills nothing; the two words of
a 64-bit atomic of the private window lie 32 bytes apart in the slab. An atomic of the Hall's unit reads, once
no other of the unit is at its bytes, and by its next event writes and answers (two events: the model's choice,
assumption 106). A load from the host window is asked of the host, over the bridge or by a packet to its device,
and the bytes it returns are free values (the model's choice, assumption 13). Cites:
spec/15_memory_instructions.md, spec/25_memory_model.md, spec/11_lane_integer.md,
spec/21_engine_instructions.md, spec/33_fabric_host.md. -/
def Obligations.OperationsAnswer : Prop :=
  ∀ (s : State) (id : Nat) (o : MemOp), Due s id o →
    (∀ d v, o.act = .captured d v → ∃ t, exec (.hatchReadComplete id) s = .next t ∧
      exec (.loadComplete id) s = .next t ∧ Filled (s.retireOp id) t d false [v]) ∧
    (∀ l d, o.act = .lrem l d → ∃ t v, exec (.lremReadComplete id) s = .next t ∧
      Filled (s.retireOp id) t d false [v] ∧
      (∀ e, s.entry l = some e → v = e.counter) ∧ (s.entry l = none → v = 0)) ∧
    (∀ site a n sg d ro, o.act = .load site a n sg d ro → site ≠ .hostWindow →
      (∀ data p, (s.flushOwn o site a n).siteRead o site a n = some (data, p) →
        ∃ t words, exec (.loadComplete id) s = .next t ∧
          Filled ((s.flushOwn o site a n).retireOp id) t d p words ∧
          ((n = 1 ∨ n = 2) → words = [BitVec.ofInt 32
            (if sg = true ∧ 2 ^ (8 * n - 1) ≤ leNat data then (leNat data : Int) - 2 ^ (8 * n) else leNat data)]) ∧
          (∀ i, 4 * i + 4 ≤ n →
            words.getD i 0 = BitVec.ofNat 32 (leNat ((data.drop (4 * i)).take 4)))) ∧
      ((s.flushOwn o site a n).siteRead o site a n = none →
        ∃ t acts, exec (.loadComplete id) s = .next t ∧ Joined s t o.cluster o.tenant acts ∧
          Fetches s o.cluster ro (fun x => a ≤ x ∧ x < a + n) acts)) ∧
    (∀ a n sg d ro, o.act = .load .hostWindow a n sg d ro → ∃ (t m m' : State) (data : List Byte),
      exec (.loadComplete id) s = .next t ∧ data.length = n ∧ Filled (m'.retireOp id) t d false (loadWords sg data) ∧
      AskedHost s m o.tenant (.read a (s.tenant o.tenant).hpasid n) (.read o.tenant a n) ∧
      m' = { m with freeCtr := m'.freeCtr }) ∧
    (∀ site a wide op x n ret, o.act = .atom site a wide op x n ret → op < 16 →
      (wide = true → op ≠ 10 ∧ op ≠ 11 ∧ op ≠ 14 ∧ op ≠ 15) →
      let ev := if ret.isSome then exec (.atomicComplete id) s else exec (.redComplete id) s
      let w := if wide then 64 else 32
      let m := s.leaveLine o site a
      (m.readParts o site (atomParts a wide) = none → ∃ t acts, ev = .next t ∧ Joined s t o.cluster o.tenant acts ∧
        Fetches s o.cluster false (atomicBytes (s.cluster o.cluster) a wide) acts) ∧
      (∀ old p, m.readParts o site (atomParts a wide) = some (old, p) →
        let m2 := if p = true ∨ (op = 9 ∧ leNat old ≠ x.toNat % 2 ^ w) then m
          else m.writeParts o site
            (leBytes (atomNew w op (leNat old) (x.toNat % 2 ^ w) (n.toNat % 2 ^ w)) (w / 8)) (atomParts a wide)
        (site ≠ .fabricUnit → ret = none → ev = .next (m2.retireOp id)) ∧
        (site ≠ .fabricUnit → ∀ d, ret = some d → ∃ t, ev = .next t ∧
          Filled (m2.retireOp id) t d p (wordsOf old)) ∧
        (site = .fabricUnit → ev = .next (if s.hallBusy a (w / 8) then s
          else m.turnOp id (.hallAtom a wide op x n ret old p))))) ∧
    (∀ a wide op x n ret old p, o.act = .hallAtom a wide op x n ret old p → op < 16 →
      (wide = true → op ≠ 10 ∧ op ≠ 11 ∧ op ≠ 14 ∧ op ≠ 15) → old.length = (if wide then 8 else 4) →
      let ev := if ret.isSome then exec (.atomicComplete id) s else exec (.redComplete id) s
      let w := if wide then 64 else 32
      let m2 := if p = true ∨ (op = 9 ∧ leNat old ≠ x.toNat % 2 ^ w) then s
        else s.writeParts o .fabricUnit
          (leBytes (atomNew w op (leNat old) (x.toNat % 2 ^ w) (n.toNat % 2 ^ w)) (w / 8)) (atomParts a wide)
      (ret = none → ev = .next (m2.retireOp id)) ∧
      (∀ d, ret = some d → ∃ t, ev = .next t ∧ Filled (m2.retireOp id) t d p (wordsOf old)))

/-- STORE_PERFORMED, LINE_EVICTION and LMODE_COMPLETE. For an operation under way that follows nothing: a store at
home writes its bytes there, clears their poison, and updates the issuing cluster's copy, which it leaves clean
(assumption 102); a store to the Larder, of global data or of a private slab, makes its bytes dirty there; a
store to scratch writes them there, each byte reading elsewhere as before; a store to the host window asks the
host for the write and, once that is performed, asks for the zero-length read of R333, with whose end it is
over; the fault record that such a write held is then complete, and PROD passes it (R307; assumption 104). A
fence of scope BLOCK or narrower is over at once; at a wider scope rel and full write every dirty byte of a
global line back, and acq and full then keep no clean byte of one and no row copy, while private bytes stay. WBL
writes a line back and keeps it; INVL and an eviction write the line back and keep none of its bytes. LMODE
switches exactly the banks of its mask that are not refused, fills its pair with the mask of those that now have
the mode asked for, and writes the Larder back when a bank leaves CACHE (that it is then empty is the model's
choice, assumption 36). Responses of home that hold older bytes of what was written back, dropped or stored are
read again or no longer joined (assumption 107). Cites: spec/15_memory_instructions.md, spec/25_memory_model.md,
spec/21_engine_instructions.md, spec/33_fabric_host.md. -/
def Obligations.StoresFencesAndModes : Prop :=
  ∀ (s : State) (id : Nat) (o : MemOp),
    (Due s id o →
      (∀ site a data, o.act = .store site a data →
        (s.siteNow o site = .home → (memBase ≤ a ∧ a + data.length ≤ memEnd) ∨ 2 ^ 52 ≤ a →
          ∃ t, exec (.storePerformed id) s = .next t ∧
            t.inflight = (((s.staleFills o.cluster (fun x => decide (a ≤ x) && decide (x < a + data.length))).retireOp
              id).beginAccess o).inflight ∧
            t.threads = s.threads ∧ t.groups = s.groups ∧ t.blocks = s.blocks ∧
            (∀ j, j ≠ o.cluster → t.cluster j = s.cluster j) ∧
            (∀ x, Memory.read t.mem x = stored a data x (Memory.read s.mem x)) ∧
            (∀ x, x ∈ t.poison ↔ x ∈ s.poison ∧ (x < a ∨ a + data.length ≤ x)) ∧
            ∀ x, (t.cluster o.cluster).cache.find x = ((s.cluster o.cluster).cache.find x).map (fun p =>
              if a ≤ x ∧ x < a + data.length then (data.getD (x - a) 0, false) else p)) ∧
        (s.siteNow o site = .larder →
          ∃ t, exec (.storePerformed id) s = .next t ∧
            t.inflight = ((s.retireOp id).beginAccess o).inflight ∧
            t.threads = s.threads ∧ t.groups = s.groups ∧ t.blocks = s.blocks ∧ t.mem = s.mem ∧ t.poison = s.poison ∧
            (∀ j, j ≠ o.cluster → t.cluster j = s.cluster j) ∧
            ∀ x, (t.cluster o.cluster).cache.find x =
              if a ≤ x ∧ x < a + data.length then some (data.getD (x - a) 0, true)
              else (s.cluster o.cluster).cache.find x) ∧
        (∀ y, s.blocks.find o.block = some y →
          (s.siteNow o site = .larderScratch →
            ∃ t y', exec (.storePerformed id) s = .next t ∧ t = { s with
                blocks := t.blocks, inflight := ((s.retireOp id).beginAccess o).inflight } ∧
              t.blocks.find o.block = some y' ∧ y' = { y with lmem := y'.lmem } ∧
              (∀ j, j ≠ o.block → t.blocks.find j = s.blocks.find j) ∧
              ∀ x, Memory.read y'.lmem x = if (s.cluster y.cluster).bankMode (y.bankOf x) = 1
                then stored a data x (Memory.read y.lmem x) else Memory.read y.lmem x) ∧
          (s.siteNow o site = .coreScratch →
            ∃ t y', exec (.storePerformed id) s = .next t ∧ t = { s with
                blocks := t.blocks, inflight := ((s.retireOp id).beginAccess o).inflight } ∧
              t.blocks.find o.block = some y' ∧ y' = { y with cmem := y'.cmem } ∧
              (∀ j, j ≠ o.block → t.blocks.find j = s.blocks.find j) ∧
              ∀ x, Memory.read y'.cmem x = stored a data x (Memory.read y.cmem x))) ∧
        (site = .hostWindow → ∃ m, exec (.storePerformed id) s = .next ((m.turnOp id (.hostFlush a)).beginAccess o) ∧
          AskedHost s m o.tenant (.write a (s.tenant o.tenant).hpasid data) (.write o.tenant a data) (.write id))) ∧
      (∀ a, o.act = .hostFlush a →
        (s.tagPending (.write id) = true → exec (.storePerformed id) s = .next s) ∧
        (s.tagPending (.write id) = false → ∃ m, exec (.storePerformed id) s = .next (m.turnOp id (.hostWait a)) ∧
          AskedHost s m o.tenant (.read a (s.tenant o.tenant).hpasid 0) (.read o.tenant a 0) (.write id))) ∧
      (∀ a, o.act = .hostWait a →
        (s.tagPending (.write id) = true → exec (.storePerformed id) s = .next s) ∧
        (s.tagPending (.write id) = false → s.io.jobs = [] → s.recorderUp = true →
          ∃ t, exec (.storePerformed id) s = .next t ∧ t.inflight = (s.retireOp id).inflight ∧
            t.threads = s.threads ∧ t.groups = s.groups ∧ t.blocks = s.blocks ∧ t.clusters = s.clusters ∧
            t.mem = s.mem ∧ ∀ q, q < 16 → t.tenant q = if (s.tenant q).writing = some id
              then { s.tenant q with prod := ((s.tenant q).prod + 1) % 2 ^ 17, writing := none }
              else s.tenant q)) ∧
      (∀ kind scope, o.act = .fence kind scope →
        (scope < 3 → exec (.storePerformed id) s = .next (s.retireOp id)) ∧
        (3 ≤ scope → 1 ≤ kind → kind ≤ 3 → (s.cluster o.cluster).cache.sorted = true →
          let stale := s.staleFills o.cluster (fun x => !inPool x)
          ∃ t, exec (.storePerformed id) s = .next t ∧
            t.inflight = ((if kind = 3 then stale.staleFills o.cluster (fun x => !inPool x) else stale).retireOp
              id).inflight ∧
            t.threads = s.threads ∧ t.groups = s.groups ∧ t.blocks = s.blocks ∧
            (∀ j, j ≠ o.cluster → t.cluster j = s.cluster j) ∧
            WrittenBack s t o.cluster (fun x => kind ≠ 1 ∧ x < 2 ^ 52) ∧
            (∀ x, 2 ^ 52 ≤ x → (t.cluster o.cluster).cache.find x = (s.cluster o.cluster).cache.find x) ∧
            (kind = 3 → ∀ x, x < 2 ^ 52 → (t.cluster o.cluster).cache.find x = none) ∧
            (kind = 1 → ∀ x, x < 2 ^ 52 →
              (t.cluster o.cluster).cache.find x = match (s.cluster o.cluster).cache.find x with
                | some (b, true) => some (b, true)
                | _ => none) ∧
            (kind = 2 → ∀ x, x < 2 ^ 52 → (t.cluster o.cluster).cache.find x =
              ((s.cluster o.cluster).cache.find x).map (fun p => (p.1, false))) ∧
            (t.cluster o.cluster).rows = if kind = 2 then (s.cluster o.cluster).rows else [])) ∧
      (∀ line, (s.cluster o.cluster).cache.sorted = true →
        let stale := s.staleFills o.cluster (inLine line)
        (o.act = .writeBack line → ∃ t, exec (.storePerformed id) s = .next t ∧
          t.inflight = (stale.retireOp id).inflight ∧ t.threads = s.threads ∧ t.blocks = s.blocks ∧
          WrittenBack s t o.cluster (fun x => x / 128 = line / 128) ∧
          ∀ x, (t.cluster o.cluster).cache.find x = ((s.cluster o.cluster).cache.find x).map (fun p =>
            if x / 128 = line / 128 then (p.1, false) else p)) ∧
        (o.act = .invalidate line → ∃ t, exec (.storePerformed id) s = .next t ∧
          t.inflight = ((stale.staleFills o.cluster (inLine line)).retireOp id).inflight ∧
          t.threads = s.threads ∧ t.blocks = s.blocks ∧
          WrittenBack s t o.cluster (fun x => x / 128 = line / 128) ∧
          (∀ x, (t.cluster o.cluster).cache.find x =
            if x / 128 = line / 128 then none else (s.cluster o.cluster).cache.find x) ∧
          (∀ r ∈ (t.cluster o.cluster).rows,
            r.row.pa + 2 ^ r.row.k ≤ line / 128 * 128 ∨ line / 128 * 128 + 128 ≤ r.row.pa) ∧
          ∀ p ∈ (t.cluster o.cluster).icopy, p.1 / 128 ≠ line / 128)) ∧
      (∀ mode mask d, o.act = .lmode mode mask d → ∃ t got, exec (.lmodeComplete id) s = .next t ∧
        (∀ i, i < 48 → (t.cluster o.cluster).bankMode i =
          if mask.testBit i = true ∧ s.bankRefused o.cluster i (some o.block) = false then mode
          else (s.cluster o.cluster).bankMode i) ∧
        (∀ i, i < 48 → got.testBit i =
          (mask.testBit i && !s.bankRefused o.cluster i (some o.block))) ∧ got < 2 ^ 48 ∧
        (∀ i, i < 48 → mask.testBit i = true → s.bankRefused o.cluster i (some o.block) = false → mode ≠ 0 →
          (s.cluster o.cluster).bankMode i = 0 → (s.cluster o.cluster).cache.sorted = true →
          WrittenBack s t o.cluster (fun _ => True) ∧ (t.cluster o.cluster).cache = []) ∧
        ∃ m, Filled m t d false [BitVec.ofNat 32 got, BitVec.ofNat 32 (got / 2 ^ 32)] ∧
          m.threads = s.threads ∧ m.groups = s.groups ∧
          m.inflight.map (·.id) = (s.retireOp id).inflight.map (·.id))) ∧
    (∀ cl line, (s.cluster cl).cache.sorted = true → ∃ t, exec (.lineEviction cl line) s = .next t ∧
      t.inflight = (s.staleFills cl (inLine line)).inflight ∧ t.threads = s.threads ∧ t.blocks = s.blocks ∧
      WrittenBack s t cl (fun x => x / 128 = line / 128) ∧
      ∀ x, (t.cluster cl).cache.find x = if x / 128 = line / 128 then none else (s.cluster cl).cache.find x)

/-- ROW_READ_COMPLETE, ROW_WRITE_APPLY, NEAR_PROBE and SECTOR_FILL. For an operation under way that follows nothing:
a row load writes 2^K bytes to its local range (Larder scratch keeps only bytes of banks in SCRATCH mode), which
are those of the row at home (in no poisoned sector) once the cluster's own dirty bytes of it are written back
(assumption 133), or for a NEAR read those of some Larder's copy that is no older than what its threads have
seen, and releases its range; a row write reads its local bytes and releases its range, and by its next event
leaves those bytes at home, or element by element the sums of R176 over the row with the cluster's own dirty
bytes written back, counts 1 in the row's version where no poison lies on it, and updates the issuing cluster's
copy of both (R236; assumption 133); a probe counts the lag of R178 of such a version; a fill takes the bytes of
its sector from a peer, or home's response, which holds the bytes at home or, where it joins another response
(R338), those of that one (which, and that a response whose bytes the cluster has seen replaced is not joined,
is the model's choice, assumption 107); the bytes of a fill go where the Larder holds none, poisoned where they
come poisoned, and those that it holds keep their values (R262). Cites: spec/15_memory_instructions.md,
spec/25_memory_model.md, spec/21_engine_instructions.md, spec/33_fabric_host.md. -/
def Obligations.RowsAndFills : Prop :=
  ∀ (s : State) (id : Nat) (o : MemOp), Due s id o →
    (∀ near r loc y, o.act = .rowRead near r loc → s.blocks.find loc.block = some y →
      let own := fun x => match (s.cluster o.cluster).cache.find x with
        | some (v, true) => v
        | _ => Memory.read s.mem x
      ∃ (t : State) (y' : Block) (image : List Byte), exec (.rowReadComplete id) s = .next t ∧
        t.inflight.all (fun q => q.id != id) = true ∧
        (∀ q ∈ s.inflight, q.id ≠ id → (∀ sec ro d bad bars, q.act ≠ .response sec ro d bad bars) → q ∈ t.inflight) ∧
        (∀ e ∈ (t.cluster o.cluster).rsb, e.memOp ≠ some id) ∧
        t.blocks.find loc.block = some y' ∧
        (∀ i, i < image.length → Memory.read (if loc.core then y'.cmem else y'.lmem) (loc.off + i) =
          if loc.core = true ∨ (s.cluster y.cluster).bankMode (y.bankOf (loc.off + i)) = 1 then image.getD i 0
          else Memory.read y.lmem (loc.off + i)) ∧
        ((image.length = 2 ^ r.k ∧ ((s.cluster o.cluster).cache.sorted = true →
              WrittenBack s t o.cluster (fun x => r.owns x = true) ∧
              ∀ i, i < 2 ^ r.k → memBase ≤ r.pa → r.pa + 2 ^ r.k ≤ memEnd → r.pa + i ∉ s.poison →
                image.getD i 0 = own (r.pa + i))) ∨
          (near = true ∧ t.mem = s.mem ∧ ∃ p ∈ s.clusters, ∃ x ∈ p.2.rows, x.row.pa = r.pa ∧ x.row.k = r.k ∧
            s.rowBound r o.members ≤ x.stamp ∧ image = x.image))) ∧
    (∀ op r loc, o.act = .rowWrite op r loc → exec (.rowWriteApply id) s = .next
      ((s.turnOp id (.rowData op r (s.scratchRead loc.block loc.core loc.off (2 ^ r.k)))).dropRange o.cluster id)) ∧
    (∀ op r data, o.act = .rowData op r data → data.length = 2 ^ r.k → memBase ≤ r.pa → r.pa + 2 ^ r.k ≤ memEnd →
      memBase ≤ r.ver → r.ver + 4 ≤ memEnd → (r.ver + 4 ≤ r.pa ∨ r.pa + 2 ^ r.k ≤ r.ver) → 2 ≤ r.k → op < 4 →
      (∀ a ∈ s.poison, a < r.pa ∨ r.pa + 2 ^ r.k ≤ a) → (s.cluster o.cluster).cache.sorted = true →
      let own := fun x => match (s.cluster o.cluster).cache.find x with
        | some (v, true) => v
        | _ => Memory.read s.mem x
      let row := fun a n => leNat ((List.range n).map (fun i => own (r.pa + a + i)))
      let loc' := fun a n => leNat ((data.drop a).take n)
      ∃ t, exec (.rowWriteApply id) s = .next t ∧ t.groups = s.groups ∧ t.blocks = s.blocks ∧
        t.inflight = (((s.staleFills o.cluster r.owns).staleFills o.cluster r.owns).retireOp id).inflight ∧
        (∀ x, (t.cluster o.cluster).cache.find x =
          if r.owns x = true then
            ((s.cluster o.cluster).cache.find x).map (fun _ => (Memory.read t.mem x, false))
          else (s.cluster o.cluster).cache.find x) ∧
        (∀ x, (x < r.pa ∨ r.pa + 2 ^ r.k ≤ x) → (x < r.ver ∨ r.ver + 4 ≤ x) →
          Memory.read t.mem x = Memory.read s.mem x) ∧
        (s.homePoisoned r.ver 4 = false →
          leNat (Memory.readBytes t.mem r.ver 4) =
            (leNat ((List.range 4).map (fun i => own (r.ver + i))) + 1) % 2 ^ 32) ∧
        (op = 0 → ∀ i, i < 2 ^ r.k → (Memory.read t.mem (r.pa + i)).toNat = loc' i 1) ∧
        (op = 1 → ∀ e, 2 * e < 2 ^ r.k → leNat (Memory.readBytes t.mem (r.pa + 2 * e) 2) =
          bf16.encode .rne (fpSum .rne [bf16.decode (row (2 * e) 2), bf16.decode (loc' (2 * e) 2)]) % 2 ^ 16) ∧
        (op = 2 → ∀ e, 4 * e < 2 ^ r.k → leNat (Memory.readBytes t.mem (r.pa + 4 * e) 4) =
          fp32.encode .rne (fpSum .rne [fp32.decode (row (4 * e) 4), fp32.decode (loc' (4 * e) 4)]) % 2 ^ 32) ∧
        (op = 3 → ∀ e, 2 * e < 2 ^ r.k → leNat (Memory.readBytes t.mem (r.pa + 2 * e) 2) =
          minMax bf16 true (row (2 * e) 2) (loc' (2 * e) 2) % 2 ^ 16)) ∧
    (∀ r served, o.act = .probe r served → s.homePoisoned r.ver 4 = false →
      let e := (s.tenant r.tenant).rows.getD r.entry RowEntry.reset
      let lag := (BitVec.ofNat 32 (leNat (Memory.readBytes s.mem r.ver 4)) - served).toNat
      ∃ t, exec (.nearProbe id) s = .next t ∧ t.inflight = (s.retireOp id).inflight ∧
        t.threads = s.threads ∧ t.mem = s.mem ∧
        (t.tenant r.tenant).rows.getD r.entry RowEntry.reset = { e with
            stale := if lag = 0 then e.stale else Nat.min countMax (e.stale + 1)
            lag1 := if lag = 1 then Nat.min countMax (e.lag1 + 1) else e.lag1
            lag2 := if lag = 2 ∨ lag = 3 then Nat.min countMax (e.lag2 + 1) else e.lag2
            lag4 := if 4 ≤ lag ∧ lag < 16 then Nat.min countMax (e.lag4 + 1) else e.lag4
            lag16 := if 16 ≤ lag then Nat.min countMax (e.lag16 + 1) else e.lag16 }) ∧
    (∀ sector ro, o.act = .fill sector ro →
      (∃ data bad, exec (.sectorFill id) s = .next (s.drawn.turnOp id (.response sector ro data bad [])) ∧
        ((data = Memory.readBytes s.mem sector 32 ∧
            ∀ x, x ∈ bad ↔ x ∈ s.poison ∧ sector ≤ x ∧ x < sector + 32) ∨
          ∃ q ∈ s.inflight, ∃ ro' barred, q.act = .response sector ro' data bad barred ∧ o.cluster ∉ barred)) ∨
      (ro = true ∧ ∃ t peer, exec (.sectorFill id) s = .next t ∧ peer ≠ o.cluster ∧ dieOf peer = dieOf o.cluster ∧
        t.inflight = (s.retireOp id).inflight ∧ t.threads = s.threads ∧ t.mem = s.mem ∧
        ((s.cluster o.cluster).hasCache = true → ∃ data : List Byte, data.length = 32 ∧
          (∀ x, sector ≤ x → x < sector + 32 →
            (s.cluster peer).cache.find x = some (data.getD (x - sector) 0, false)) ∧
          SectorIn (s.cluster o.cluster) (t.cluster o.cluster) sector data
            (fun x => (s.cluster peer).cachePoisoned x 1 = true)))) ∧
    (∀ sector ro data bad barred, o.act = .response sector ro data bad barred → data.length = 32 →
      ∃ t, exec (.sectorFill id) s = .next t ∧ t.inflight = (s.retireOp id).inflight ∧ t.threads = s.threads ∧
        t.mem = s.mem ∧ (∀ j, j ≠ o.cluster → t.cluster j = s.cluster j) ∧
        ((s.cluster o.cluster).hasCache = false → t.cluster o.cluster = s.cluster o.cluster) ∧
        ((s.cluster o.cluster).hasCache = true →
          SectorIn (s.cluster o.cluster) (t.cluster o.cluster) sector data (fun x => x ∈ bad)))

/-- Messages, releases, timers and answers of the barriers. For a message under way that follows nothing: an arrival
of n at a block's object outside its core raises A by n, to 16,384 at most, sets the thread's token where it
asks for that and no later arrival or wait of the thread has taken the token over, and leaves a waiting thread
waiting at the object for its token's phase, or for PHASE as it stood at issue; the object then stands as
counted, or, with A at E or above, has completed its phase (A 0, PHASE toggled), unless another message for it
is still on its way, in which case the two may count as of one cycle of the holder (the model's choice,
assumption 42); an arrival at the launch barrier does the same to it, to 2^48 - 1, and a completion that no
release before it holds up moves START on by 7 and is sent to the clusters that hold waiters in the order from
START on, from the next Hall cycle or from the end of the last interval sent (assumption 123); an exit lowers E
of those of the block's ALL-mode objects that counted the thread, or of the launch barrier, by one; an arrival
or an exit of a saved block's thread acts on the parked objects alone: under R190 in the parked table, and in
the save pool as an ADD to A or a lower E, where completion is left to the restore; a release takes each thread
that waits on its index to READY at its next unit with its token emptied. A launch barrier that is releasing
sends to its next 8 clusters. A timer that has reached a BARTMO that is not 0 opens one record of kind 6 and
starts again, and one that has not changes nothing; the record names the block and PHASE (R354), that of a
launch barrier the block of the first thread that waits there, in the order of blocks and threads (assumption
40), and for no other block is it written. BALLOC_ANSWER answers the oldest request of a group (assumption 82)
with 0 (the object is there), 0xFFFF_FFFF (no room) or 1 (it is made, in ALL mode with E the live threads, whose
exits on their way it does not count again). The debugger is off. Cites: spec/17_control_instructions.md,
spec/18_control_notes.md, spec/31_faults.md, spec/35_power_security.md, spec/19_uniform_instructions.md. -/
def Obligations.BarrierEvents : Prop :=
  ∀ (s : State), s.dbgOn = false →
    (∀ (id : Nat) (o : MemOp), Due s id o →
      (∀ k i n token wait obj th, o.act = .arrival i n token wait → o.members = [k] → o.block = blockOf k →
        s.isLaunchBar (blockOf k) i = false → s.barRemote (blockOf k) i = true →
        s.isSaved (blockOf k) = false →
        s.barObj (blockOf k) i = some obj → s.threads.find k = some th → th.exited = false →
        (wait = true → ∃ p r next w, th.st = .blocked (.barrier i p r next w)) →
        ∃ t obj' th', exec (.barrierArrivalReceive id) s = .next t ∧ o ∉ t.inflight ∧
          t.barObj (blockOf k) i = some obj' ∧ obj'.e = obj.e ∧ obj'.count = obj.count ∧
          (Nat.min 16384 (obj.a + n) < obj.e → obj'.a = Nat.min 16384 (obj.a + n) ∧ obj'.phase = obj.phase) ∧
          (obj.e ≤ Nat.min 16384 (obj.a + n) → (obj'.a = 0 ∧ obj'.phase = !obj.phase) ∨
            (obj'.a = Nat.min 16384 (obj.a + n) ∧ obj'.phase = obj.phase ∧ ∃ q ∈ s.inflight, q.id ≠ id ∧
              q.block = o.block ∧ ((∃ objs, q.act = .leave false objs) ∨ ∃ m x y, q.act = .arrival i m x y))) ∧
          t.threads.find k = some th' ∧ (∀ j, j ≠ k → t.threads.find j = s.threads.find j) ∧
          th' = { th with token := th'.token, tokenOp := th'.tokenOp, st := th'.st } ∧
          th'.token = (if token = true ∧ th.tokenOp = id then some (i, obj.phase) else th.token) ∧
          th'.tokenOp = (if token = true ∧ th.tokenOp = id then 0 else th.tokenOp) ∧
          (wait = false → th'.st = th.st) ∧
          (∀ p r next w, wait = true → th.st = .blocked (.barrier i p r next w) →
            th'.st = .blocked (.barrier i (match th'.token with
              | some (j, q) => if j = i then q else p
              | none => p) true next w))) ∧
      (∀ i n token wait, (∃ objs, o.act = .leave false objs) ∨
          (o.act = .arrival i n token wait ∧ s.isLaunchBar o.block i = false) → s.isSaved o.block = true →
        exec (.barrierArrivalReceive id) s = .next s) ∧
      (∀ k i n token wait bar, o.act = .arrival i n token wait → o.members = [k] → o.block = blockOf k →
        s.isLaunchBar (blockOf k) i = true → s.launchBar (s.launchOf (blockOf k)) = some bar → bar.spent = false →
        ∃ t bar', exec (.barrierArrivalReceive id) s = .next t ∧ o ∉ t.inflight ∧
          t.launchBar (s.launchOf (blockOf k)) = some bar' ∧ bar'.e = bar.e ∧
          (Nat.min (2 ^ 48 - 1) (bar.a + n) < bar.e → bar'.a = Nat.min (2 ^ 48 - 1) (bar.a + n) ∧
            bar'.phase = bar.phase) ∧
          (bar.e ≤ Nat.min (2 ^ 48 - 1) (bar.a + n) →
            (bar'.a = 0 ∧ bar'.phase = (!bar.phase) ∧
              (s.releasing = false → s.tree.completions = [] →
                t.sec.slew = (s.sec.slew + 7) % 96 ∧ bar'.next = Nat.max (s.tree.cycle + 1) s.tree.sendFree ∧
                bar'.sendPhase = bar.phase ∧
                bar'.sending = ((List.range 96).map (fun j => (s.sec.slew + j) % 96)).filter (fun c =>
                  ((t.launchWaiters (s.launchOf (blockOf k)) bar.phase).map
                    (fun j => t.clusterOfBlock (blockOf j))).contains c))) ∨
            (bar'.a = Nat.min (2 ^ 48 - 1) (bar.a + n) ∧ bar'.phase = bar.phase ∧ ∃ q ∈ s.inflight, q.id ≠ id ∧
              s.launchOf q.block = s.launchOf (blockOf k) ∧
              ((∃ objs, q.act = .leave true objs) ∨ ∃ m x y, q.act = .arrival i m x y)))) ∧
      (∀ x i obj objs, o.act = .leave false objs → s.blocks.find o.block = some x → x.objs.find i = some obj →
        (x.st ≠ .saved → ∃ t obj', exec (.barrierArrivalReceive id) s = .next t ∧ o ∉ t.inflight ∧
          t.barObj o.block i = some obj' ∧ obj'.count = obj.count ∧
          obj'.e = if obj.count = true ∨ i ∉ objs then obj.e else obj.e - 1) ∧
        (x.st = .saved → x.parkedTab.Nodup → ∃ t obj', exec (.parkedBarrierArrival id) s = .next t ∧ o ∉ t.inflight ∧
          t.barObj o.block i = some obj' ∧ obj'.count = obj.count ∧
          obj'.e = (if obj.count = true ∨ i ∉ objs then obj.e else obj.e - 1) ∧
          ((i ∉ x.parkedTab ∨ obj.a < obj'.e) → obj'.a = obj.a ∧ obj'.phase = obj.phase) ∧
          (i ∈ x.parkedTab → obj'.e ≤ obj.a → obj'.a = 0 ∧ obj'.phase = !obj.phase))) ∧
      (∀ bar objs, o.act = .leave true objs → s.launchBar (s.launchOf o.block) = some bar →
        ∃ t bar', exec (.barrierArrivalReceive id) s = .next t ∧ o ∉ t.inflight ∧
          t.launchBar (s.launchOf o.block) = some bar' ∧ bar'.e = bar.e - 1) ∧
      (∀ x i n token wait obj k, o.act = .arrival i n token wait → o.members = [k] → blockOf k = o.block →
        s.blocks.find o.block = some x → x.st = .saved → s.isLaunchBar o.block i = false →
        x.objs.find i = some obj → obj.a ≤ 16384 →
        ∃ t obj', exec (.parkedBarrierArrival id) s = .next t ∧ o ∉ t.inflight ∧
          t.barObj o.block i = some obj' ∧ obj'.e = obj.e ∧ obj'.count = obj.count ∧
          (i ∉ x.parkedTab → i ∈ x.parkedPool → obj'.a = obj.a + n ∧ obj'.phase = obj.phase) ∧
          (i ∈ x.parkedTab → Nat.min 16384 (obj.a + n) < obj.e →
            obj'.a = Nat.min 16384 (obj.a + n) ∧ obj'.phase = obj.phase) ∧
          (i ∈ x.parkedTab → obj.e ≤ Nat.min 16384 (obj.a + n) → obj'.a = 0 ∧ obj'.phase = !obj.phase)) ∧
      (∀ i, o.act = .release i → ∃ t, exec (.barrierReleaseArrival id) s = .next t ∧
        t.mem = s.mem ∧ t.groups = s.groups ∧ t.blocks = s.blocks ∧
        (∀ k ∈ o.members, ∀ th p next w, s.threads.find k = some th → th.st = .blocked (.barrier i p true next w) →
          t.threads.find k = some { th with pc := next, st := .ready, token := none, tokenOp := 0 } ∧
          ∃ q ∈ t.inflight, q.members = [k] ∧ q.act = .fence 1 2) ∧
        (∀ k th, s.threads.find k = some th →
          (k ∉ o.members ∨ ∀ p next w, th.st ≠ .blocked (.barrier i p true next w)) → t.threads.find k = some th))) ∧
    (∀ l bar, s.launchBar l = some bar →
      (bar.sending ≠ [] → bar.next ≤ s.tree.cycle → ∃ t, exec (.launchBarrierRelease l) s = .next t ∧
        t.launchBar l = some { bar with sending := bar.sending.drop 8, next := bar.next + 64 } ∧
        t.tree.sendFree = bar.next + 64 ∧
        t.threads = s.threads ∧
        ∀ k ∈ s.launchWaiters l bar.sendPhase, s.clusterOfBlock (blockOf k) ∈ bar.sending.take 8 →
          ∃ q ∈ t.inflight, k ∈ q.members ∧ q.act = .release 2047) ∧
      ((bar.sending = [] ∨ s.tree.cycle < bar.next) → exec (.launchBarrierRelease l) s = .next s)) ∧
    (∀ b i obj n, s.isLaunchBar b i = false → s.barObj b i = some obj → obj.timer = some n →
      let limit := (s.tenant (s.tenantOfBlock b)).bartmo.toNat
      ((limit = 0 ∨ n < limit) → exec (.barrierTimeout b i) s = .next s) ∧
      (limit ≠ 0 → limit ≤ n → ∃ t r, exec (.barrierTimeout b i) s = .next t ∧ r.kind = 6 ∧
        r.info = BitVec.ofNat 32 i ∧ r.info2 = (if obj.phase then 1 else 0) ∧ NamesBlock s b r ∧
        Reported s t (s.tenantOfBlock b) r (.block b) ∧ t.threads = s.threads ∧
        t.barObj b i = some { obj with timer := some 0 })) ∧
    (∀ b i bar n, s.isLaunchBar b i = true → s.launchBar (s.launchOf b) = some bar → bar.timer = some n →
      let limit := (s.tenant (s.tenantOfBlock b)).bartmo.toNat
      let named := ((s.launchWaiters (s.launchOf b) bar.phase).head?).map blockOf
      ((limit = 0 ∨ n < limit ∨ named ≠ some b) → exec (.barrierTimeout b i) s = .next s) ∧
      (limit ≠ 0 → limit ≤ n → named = some b → ∃ t r, exec (.barrierTimeout b i) s = .next t ∧
        r.kind = 6 ∧ r.info = 2047 ∧ r.info2 = (if bar.phase then 1 else 0) ∧ NamesBlock s b r ∧ Reported s t (s.tenantOfBlock b) r (.block b) ∧ t.threads = s.threads ∧
        t.launchBar (s.launchOf b) = some { bar with timer := some 0 })) ∧
    (∀ g x n pc, s.groups.find g = some x → x.bargTmr = some (n, pc) →
      let limit := (s.tenant (s.tenantOfBlock (blockOfGroup g))).bartmo.toNat
      ((limit = 0 ∨ n < limit) → exec (.bargTimeout g) s = .next s) ∧
      (limit ≠ 0 → limit ≤ n → ∃ t r, exec (.bargTimeout g) s = .next t ∧ r.kind = 6 ∧ r.info = 0xFFFFFFFF ∧
        r.pc = pc ∧ r.group = g % 2048 ∧ r.gtag = x.gtag ∧ r.lane = 0 ∧ r.info2 = 0 ∧
        (∀ y, s.blocks.find (blockOfGroup g) = some y → r.set = true ∧ r.launch = y.launch ∧ r.block = y.lin) ∧
        Reported s t (s.tenantOfBlock (blockOfGroup g)) r (.block (blockOfGroup g)) ∧
        t.threads = s.threads ∧ t.groups.find g = some { x with bargTmr := some (0, pc) })) ∧
    (∀ g x b sd i req k th, s.groups.find g = some x → s.blocks.find (blockOfGroup g) = some b →
      s.threads.find k = some th → groupOf k = g → th.st = .blocked (.balloc i sd req) → sd ≠ 0 →
      (∀ j tj i' sd' r', s.threads.find j = some tj → groupOf j = g → tj.st = .blocked (.balloc i' sd' r') →
        req < r' ∨ (r' = req ∧ i' = i ∧ sd' = sd)) → s.threads.sorted = true →
      let full := 2048 ≤ s.objsUsed b
      ∃ t x', exec (.ballocAnswer g) s = .next t ∧ t.groups.find g = some x' ∧
        x' = { x with sregs := x'.sregs } ∧
        (∀ q, x'.sreg q = if q = sd then ⟨if (b.objs.find i).isSome then 0 else if full then 0xFFFFFFFF else 1,
          true, false⟩ else x.sreg q) ∧
        t.threads.find k = some { th with pc := th.pc + 4, st := .ready, wait := 0 } ∧
        ((b.objs.find i).isNone → ¬full →
          t.barObj (blockOfGroup g) i = some ⟨false, s.liveThreads (blockOfGroup g), 0, false, none, [], []⟩ ∧
          ∀ q ∈ t.inflight, ∀ objs, q.act = .leave false objs → q.block = blockOfGroup g → i ∉ objs) ∧
        (((b.objs.find i).isSome ∨ full) → t.blocks = s.blocks))

/-- CORE_CYCLE, the floor queues, the override slot, deferral and runs. The end of a core cycle whose units are
executed advances CYCLE by 1 and ETIME by the period of R245 to R248 for the highest class in X1, X2 and X3; it
counts the slot, makes the active set of the groups picked (R57) and lets threads leave and enter the floor
queues; no other core changes; a cycle of another core, or with units left, is not ended. With the debugger off
it also does the following: each wait count is as R47 says; each hatch is what the cycle's operations on it make
(R132, R209); GTAG is the last value written (R208), a single FATTACH or FDETACH counts its bank's attachments
(R210), and a single engine range enters the scoreboard (R220); each exit lowers E of the ALL-mode objects of
its block on the core (R193), and an object whose A has reached E completes its phase and releases its waiters
(R190); a group all of whose threads wait at a BARG goes on (R194); a BLOCKED thread whose event has come about
is READY, one on an empty hatch whose mates have all exited traps with cause 8 (R52), one on an empty FIFO
without attachments with cause 9 (R53), and the others stay; a block whose threads have exited and whose
counters and accesses are over is gone (R31, R196), and its launch counts it (R30). A cycle that begins first
wakes what has come true since the last (R39, R46); its units hold threads that stand at the unit's address and
are READY, UNSTARTED or DEFERRED (assumptions 30, 113 and 115 are the model's choices); a core on which nothing
can be picked goes through its cycle at once. Where a block's next issue slot is its 64th, the gang holds its
thread of longest wait (R42). The threads at a wait of 12,288 enter the floor queue of their side, in the order
of R54. A deferral ends with its slots, or when no other thread (assumption 28) of equal or more urgent priority
is eligible. In the cycle that finds a run at its length, K becomes the highest class of the eligible threads
(R252). Cites: spec/03_execution.md, spec/04_execution_notes.md, spec/11_lane_integer.md,
spec/17_control_instructions.md, spec/19_uniform_instructions.md, spec/23_timing_classes.md. -/
def Obligations.CoreCycles : Prop :=
  ∀ (s : State),
    (∀ c, s.cyc = some c → c.todo = [] →
      let x := s.core c.core
      let top := c.classes.foldl Nat.max 0
      let T := 16 * [60, 72, 87, 120].getD (Nat.max top (Nat.max x.x2 x.x3)) 120 + x.frac
      let gs := (c.picked.map groupOf).eraseDups
      ∃ t, exec (.coreCycle c.core) s = .next t ∧ t.cyc = none ∧
        (t.core c.core).cycle = x.cycle + 1 ∧ (t.core c.core).etime = x.etime + BitVec.ofNat 64 (T / 25) ∧
        (t.core c.core).frac = T % 25 ∧ (t.core c.core).x2 = top ∧ (t.core c.core).x3 = x.x2 ∧
        (t.core c.core).slot = (if c.issued = [] then x.slot else x.slot + 1) ∧
        (t.core c.core).run = (if c.issued = [] ∨ x.mode = false then x.run else x.run + 1) ∧
        (t.core c.core).active = (let l := x.active.filter (fun g => !gs.contains g) ++ gs; l.drop (l.length - 64)) ∧
        (∀ d, d ≠ c.core → t.core d = s.core d) ∧
        ((c.laneWait ++ c.uniWait).Nodup → s.threads.sorted = true → ∃ new unew,
          (t.core c.core).floorQ = x.floorQ.filter (fun k => !c.issued.contains k && s.liveOn c.core k) ++ new ∧
          (t.core c.core).ufloorQ = x.ufloorQ.filter (fun k => !c.uissued.contains k && s.liveOn c.core k) ++ unew ∧
          (∀ k, k ∈ new ↔ k ∈ c.laneWait ∧ ¬(k ∈ x.floorQ ∧ k ∉ c.issued ∧ s.liveOn c.core k = true) ∧
            ∃ th, s.threads.find k = some th ∧ 12288 ≤ c.waitAfter k th.wait) ∧
          ∀ k, k ∈ unew ↔ k ∈ c.uniFull ∧ ¬(k ∈ x.ufloorQ ∧ k ∉ c.uissued ∧ s.liveOn c.core k = true) ∧
            ∃ th, s.threads.find k = some th ∧ 12288 ≤ c.waitAfter k th.wait)) ∧
    (∀ c, s.cyc = some c → c.todo = [] → s.dbgOn = false → s.threads.sorted = true →
      s.groups.sorted = true → s.blocks.sorted = true → (c.laneWait ++ c.uniWait).Nodup → c.exiting.Nodup →
      (∀ k ∈ c.exiting, ∃ th, s.threads.find k = some th ∧ th.exited = true) →
      ∃ t, exec (.coreCycle c.core) s = .next t ∧
        (∀ k th th', s.threads.find k = some th → t.threads.find k = some th' → th'.wait = c.waitAfter k th.wait) ∧
        (∀ g x x', s.groups.find g = some x → t.groups.find g = some x' →
          (∀ h, HatchAfter c g h (x.hatch h) (x'.hatch h)) ∧
          x'.gtag = ((c.late.filterMap (fun o => match o with
            | .gtag j v => if j = g then some v else none
            | _ => none)).getLast?).getD x.gtag) ∧
        (∀ e, c.late = [.range e] → (∀ id, e.engOp = some id → (s.ops.find id).isSome = true) →
          (∃ k th, s.threads.find k = some th ∧ blockOf k = e.block ∧ th.exited = false) →
          e ∈ (t.cluster (s.clusterOfBlock e.block)).rsb) ∧
        (∀ g x cl i on, c.late = [.attach g cl i on] → c.exiting = [] → s.groups.find g = some x →
          (∀ b, (s.blocks.find b).isSome = true → ∃ k th, s.threads.find k = some th ∧ blockOf k = b ∧ th.exited = false) →
          (t.cluster cl).attached.getD i 0 =
            (if x.attach.contains i = on then (s.cluster cl).attached.getD i 0
            else if on then (s.cluster cl).attached.getD i 0 + 1
            else (s.cluster cl).attached.getD i 0 - 1)) ∧
        (∀ b x y, s.blocks.find b = some x → x.core = some c.core → x.runs = true → x.objs.sorted = true →
          t.blocks.find b = some y → ∀ i obj, x.objs.find i = some obj →
          let e := if obj.count then obj.e else obj.e - (c.exiting.filter (fun k => blockOf k == b)).length
          ∃ obj', y.objs.find i = some obj' ∧ obj'.e = e ∧ obj'.count = obj.count ∧
            (obj.a < e → obj'.a = obj.a ∧ obj'.phase = obj.phase) ∧
            (e ≤ obj.a → obj'.a = 0 ∧ obj'.phase = !obj.phase) ∧
            ∀ k th next w, s.threads.find k = some th → blockOf k = b →
              th.st = .blocked (.barrier i obj.phase true next w) → ∃ th', t.threads.find k = some th' ∧
                (obj.a < e → th'.st = th.st ∧ th'.pc = th.pc) ∧
                (e ≤ obj.a → th'.pc = next ∧ th'.st = .ready ∧ th'.token = none ∧
                  ∃ q ∈ t.inflight, q.members = [k] ∧ q.act = .fence 1 2)) ∧
        (∀ k th x b next, s.threads.find k = some th → s.groups.find (groupOf k) = some x → x.core = c.core →
          s.blocks.find (blockOf k) = some b → b.runs = true → th.st = .blocked (.barg next) →
          ∃ th', t.threads.find k = some th' ∧
            ((∀ j tj, s.threads.find j = some tj → groupOf j = groupOf k → tj.exited = true ∨ tj.atBarg = true) →
              th'.pc = next ∧ th'.st = .ready ∧ ∃ q ∈ t.inflight, q.members = [k] ∧ q.act = .fence 1 1) ∧
            ((∃ j tj, s.threads.find j = some tj ∧ groupOf j = groupOf k ∧ tj.exited = false ∧ tj.atBarg = false) →
              th'.pc = th.pc ∧ th'.st = th.st)) ∧
        (∀ k th x b w, s.threads.find k = some th → s.groups.find (groupOf k) = some x → x.core = c.core →
          s.blocks.find (blockOf k) = some b → b.runs = true → th.st = .blocked w →
          ∃ th', t.threads.find k = some th' ∧
            (w.plain = true → th' = { th with
              wait := c.waitAfter k th.wait
              st := th'.st } ∧ ((∀ e, LateOp.range e ∉ c.late) → CameTrue s k th x w → th'.st = .ready) ∧
              (¬CameTrue s k th x w → th'.st = th.st)) ∧
            (∀ h x', w = .hatch h false → t.groups.find (groupOf k) = some x' →
              let mates := ∀ j tj, s.threads.find j = some tj → groupOf j = groupOf k → j ≠ k → tj.exited = true
              ((x'.hatch h).full = true → th'.st = .ready ∧ th'.pc = th.pc) ∧
              ((x'.hatch h).full = false → ¬mates → th'.st = th.st ∧ th'.pc = th.pc) ∧
              ((x'.hatch h).full = false → mates → Handled s k th → Trapped 8 th.pc (BitVec.ofNat 64 h)
                (s.handlerOf (blockOf k)) { th with wait := c.waitAfter k th.wait } th')) ∧
            (∀ i ea, w = .fifoPop i ea →
              let cl := s.clusterOfBlock (blockOf k)
              (s.fifo cl i ≠ [] → th'.st = .ready ∧ th'.pc = th.pc) ∧
              (s.fifo cl i = [] → c.late = [] → c.exiting = [] →
                ((s.cluster cl).attached.getD i 0 ≠ 0 → th'.st = th.st ∧ th'.pc = th.pc) ∧
                ((s.cluster cl).attached.getD i 0 = 0 → Handled s k th → Trapped 9 th.pc ea
                  (s.handlerOf (blockOf k)) { th with wait := c.waitAfter k th.wait } th')))) ∧
        (∀ g x b, s.groups.find g = some x → x.core = c.core → s.blocks.find (blockOfGroup g) = some b →
          b.st ≠ .saved →
          ((∃ k th, s.threads.find k = some th ∧ blockOf k = blockOfGroup g ∧ th.exited = false) →
            (t.blocks.find (blockOfGroup g)).isSome = true) ∧
          (s.canRetire (blockOfGroup g) = true →
            t.blocks.find (blockOfGroup g) = none ∧ t.groups.find g = none ∧
            (∀ k, blockOf k = blockOfGroup g → t.threads.find k = none) ∧
            ∀ e, s.entry b.launch = some e → e.live = true → e.level = 0 →
              (∀ j, j ≠ blockOfGroup g → (∃ gj, blockOfGroup gj = j ∧ ∃ xj, s.groups.find gj = some xj ∧
                xj.core = c.core) → ∃ k th, s.threads.find k = some th ∧ blockOf k = j ∧ th.exited = false) →
              ∃ e', t.entry b.launch = some e' ∧
                (e.counter ≠ 0 → e'.counter = e.counter - 1 ∧ e'.live = true ∧ e'.succ = e.succ) ∧
                (e.counter = 0 → e'.live = false ∧ e'.succ = if e.failed then [] else e.succ)))) ∧
    (∀ c core, s.cyc = some c → (c.core ≠ core ∨ c.todo ≠ []) → exec (.coreCycle core) s = .next s) ∧
    (∀ core, s.cyc = none → 384 ≤ core → exec (.coreCycle core) s = .next s) ∧
    (∀ core, s.cyc = none → core < 384 → (s.core core).held = none →
      let s' := (s.wakeThreads core).noteStirs core
      (s'.cands core s'.freeCtr = [] →
        ∃ t, exec (.coreCycle core) s = .next t ∧ t.cyc = none ∧ (t.core core).cycle = (s.core core).cycle + 1) ∧
      (s.threads.sorted = true → ∃ t, exec (.coreCycle core) s = .next t ∧
        ∀ c, t.cyc = some c → c.core = core ∧ c.todo ≠ [] ∧
          ∀ u ∈ c.todo, ∀ k ∈ u.lanes, ∃ th, s'.threads.find k = some th ∧ th.pc = u.pc ∧
            (th.st = .ready ∨ th.st = .unstarted ∨ ∃ n, th.st = .deferred n))) ∧
    (∀ core, (384 ≤ core ∨ s.cyc ≠ none ∨ s.overrideDue core = false) → exec (.starvationOverride core) s = .next s) ∧
    (∀ core, core < 384 → s.cyc = none → s.overrideDue core = true → (s.core core).held = none →
      (s.core core).floorQ = [] → s.dbgOn = false → s.threads.sorted = true →
      let s' := (s.wakeThreads core).noteStirs core
      ∃ t c, exec (.starvationOverride core) s = .next t ∧
        t.cyc = some c ∧ c.core = core ∧
        ∀ b, c.block = some b → (s.blockSlots core b + 1) % 64 = 0 → c.override = true ∧
          ∃ w ∈ s'.cands core s'.freeCtr, w.block = b ∧ w.peek.uniform = false ∧ w.deferred = false ∧
            (∀ y ∈ s'.cands core s'.freeCtr, y.block = b → y.peek.uniform = false → y.deferred = false →
              y.wait ≤ w.wait) ∧
            ∃ u ∈ c.todo, w.key ∈ u.lanes ∧ u.pc = w.pc) ∧
    (∀ core, ∃ t new, exec (.floorQueueEntry core) s = .next t ∧ t = { s with cores := t.cores } ∧
      (t.core core).floorQ = (s.core core).floorQ ++ new ∧
      new.Pairwise (fun j k => before3 (s.floorOrder j) (s.floorOrder k) = true) ∧
      (s.threads.sorted = true → ∀ k, k ∈ new ↔ k ∉ (s.core core).floorQ ∧ ∃ x ∈ s.cands core s.freeCtr,
        x.key = k ∧ x.peek.uniform = false ∧ 12288 ≤ x.wait)) ∧
    (∀ core, ∃ t new, exec (.uniformFloorQueueEntry core) s = .next t ∧ t = { s with cores := t.cores } ∧
      (t.core core).ufloorQ = (s.core core).ufloorQ ++ new ∧
      new.Pairwise (fun j k => before3 (s.floorOrder j) (s.floorOrder k) = true) ∧
      (s.threads.sorted = true → ∀ k, k ∈ new ↔ k ∉ (s.core core).ufloorQ ∧ ∃ x ∈ s.cands core s.freeCtr,
        x.key = k ∧ x.peek.uniform = true ∧ x.full = true ∧ 12288 ≤ x.wait)) ∧
    (∀ k th b n, s.threads.find k = some th → s.blocks.find (blockOf k) = some b → th.st = .deferred n →
      let others := ∃ p ∈ s.threads, p.1 ≠ k ∧ (p.2.st = .ready ∨ p.2.st = .unstarted) ∧
        s.coreOfThread p.1 = s.coreOfThread k ∧ ∃ b', s.blocks.find (blockOf p.1) = some b' ∧ b'.runs = true ∧
          b'.packet.prio ≤ b.packet.prio
      ((n = 0 ∨ ¬others) → exec (.deferralEnd k) s = .next { s with threads := s.threads.set k { th with st := .ready } }) ∧
      (n ≠ 0 → others → exec (.deferralEnd k) s = .next s)) ∧
    (∀ core, let x := s.core core
      let s' := (s.wakeThreads core).noteStirs core
      let e := (s'.cands core s'.freeCtr).filter (fun y => !y.peek.uniform && !y.deferred)
      (core < 384 → s.cyc = none → x.mode = true → x.runLen ≤ x.run → e ≠ [] →
        ∃ t K, exec (.runExpiry core) s = .next t ∧ (∃ c, t.cyc = some c ∧ c.core = core) ∧
        (t.core core).k = K ∧ (t.core core).run = 0 ∧ (∀ y ∈ e, y.peek.cls ≤ K) ∧ (∃ y ∈ e, y.peek.cls = K) ∧
        ∀ d, d ≠ core → t.core d = s.core d) ∧
      ((384 ≤ core ∨ s.cyc ≠ none ∨ x.mode = false ∨ x.run < x.runLen) → exec (.runExpiry core) s = .next s))

/-- A register access that is not an aligned 32-bit one has no effect, reads 0 and is logged. For every requester
that reaches the register window, an access whose size is not 4 bytes or whose offset is not a multiple of 4
changes nothing of the machine but the log, the interrupt that announces the log entry, and, where that
interrupt is a packet to the bridge's device, the ports that it goes by: every register but the interrupt entry
of the log, and but the port statistics of a device that is not the bridge, reads as before; a read of this kind
answers 0; the log receives one register access error with the requester and the offset. Cites: R8. -/
def Obligations.UnalignedRegisterAccess : Prop :=
  ∀ (s : State) (req off size : Nat) (val : BitVec 32), (size ≠ 4 ∨ off % 4 ≠ 0) → (req = 1 → s.sec.bridge = true) →
    (∃ t, exec (.registerWrite req off size val) s = .next t ∧ Logged s t (.regError req off) ∧
      ∀ r, r ≠ .irt 24 → (s.sec.bridge = true ∨ ∀ n, r ≠ .fpstat n) → t.regValue r = s.regValue r) ∧
    (∃ t m, exec (.registerRead req off size) s = .next t ∧ Logged s m (.regError req off) ∧
      t = { m with desk := { m.desk with reads := t.desk.reads } } ∧ t.desk.reads.find req = some 0 ∧
      ∀ r, r ≠ .irt 24 → (s.sec.bridge = true ∨ ∀ n, r ≠ .fpstat n) → t.regValue r = s.regValue r)

/-- Which registers a host write through BAR2 reaches. On a bridge, an aligned 32-bit host write to a register that
exists: to HALL.PWRLIM, CORE.RDGRANT, CORE.CLASSPOL, or, while debug is enabled, a CORE debug, range or counter
register, it is applied, as the Parlour's own write of that register is (two host writes, low word first, set a
64-bit register); every other host write changes nothing and is logged as refused. Cites: R345. -/
def Obligations.HostRegisterWrites : Prop :=
  ∀ (s : State) (off : Nat) (r : RegRef), s.sec.bridge = true → off % 4 = 0 → regAt off = some r →
    let may := r.name = .pwrlim ∨ (∃ c, r.name = .rdgrant c ∨ r.name = .classpol c) ∨
      (s.dbgOn = true ∧ ((∃ c, r.name = .dbgctl c ∨ r.name = .dbgsel c) ∨
        ∃ c i, r.name = .cmpAddr c i ∨ r.name = .cmpCtl c i ∨ r.name = .rngBase c i ∨ r.name = .rngLim c i ∨
          ∃ k, r.name = .lcr c i k))
    (may → r.wide = false → ∀ val : BitVec 32, ∃ t t', exec (.hostRegisterWrite off 4 val) s = .next t ∧
      exec (.registerWrite 1 off 4 val) s = .next t ∧
      exec (.registerWrite 0 off 4 val) s = .next t' ∧ t = { t' with desk := t.desk }) ∧
    (may → r.wide = true → r.high = false → ∀ lo hi : BitVec 32, ∃ m t, exec (.hostRegisterWrite off 4 lo) s = .next m ∧
      (∀ x, m.regValue x = s.regValue x) ∧ exec (.hostRegisterWrite (off + 4) 4 hi) m = .next t ∧
      t.regValue r.name = (2 ^ 32 * hi.toNat + lo.toNat) %
        (match r.name with
         | .lcr _ _ _ => 2 ^ 48
         | _ => 2 ^ 64)) ∧
    (¬may → ∀ val : BitVec 32, ∃ t, exec (.hostRegisterWrite off 4 val) s = .next t ∧
      exec (.registerWrite 1 off 4 val) s = .next t ∧ Logged s t (.hostRefused off))

/-- Register reads, and the writes that stand in the opcode table. An aligned read of a 32-bit register answers its
value, and of the high half of a 64-bit one the half that the low read latched; HALL.PWRLIM and CORE.RDGRANT
store the nearer bound; DEVNUM and LOCK are taken until LOCK is set, and a packet that waited for LOCK goes out
under the number; CORE.CLASSPOL stores its run length within 8 to 256 and starts K and the run at 0 when it
turns the floor on; CL.LMODE switches each bank whose code is not 3, not its mode and not refused, and the
Larder is written back when a bank leaves CACHE (that it is then empty is the model's choice, assumption 36); a
staging region that breaks R301, an enable that breaks R291, a leaf program that fails its check, a write to a
named program slot, a row entry that breaks R273, and a CONS outside the queue are refused and logged, and
otherwise take effect; a leaf's depth holds from the next Hall cycle on; NDATA is the word that NSEL names, and
reads 0 and is logged where it names none; the first write that unmasks a pending interrupt entry sends its
message once, with the entry's VEC (of the low word that the Parlour holds, R7) and PASID, which are not checked
again (the model's choice, assumption 78): on a bridge by its MSI-X table entry, or with that entry's pending
bit set while it is masked (assumption 127), on another device to the bridge, after the source's earlier
messages; while runner cores 4 and 5 stand or an earlier event of the source waits, it waits (R344). Nothing
else changes, but for the register halves that the requester held or had latched (R7). Cites: spec/01_device.md,
spec/23_timing_classes.md, spec/25_memory_model.md, spec/27_scheduling_tree.md, spec/29_matrix_engines.md,
spec/31_faults.md, spec/33_fabric_host.md, spec/35_power_security.md. -/
def Obligations.RegisterWrites : Prop :=
  ∀ (s : State),
    (∀ off r, off % 4 = 0 → regAt off = some r → r.wide = false → r.name ≠ .ndata →
      ∃ t, exec (.registerRead 0 off 4) s = .next t ∧ t = { s with desk := t.desk } ∧
        t.desk.reads.find 0 = some (BitVec.ofNat 32 (s.regValue r.name))) ∧
    (∀ off r, off % 4 = 0 → regAt off = some r → r.wide = true → r.high = false →
      ∃ t, exec (.registerRead 0 off 4) s = .next t ∧ t = { s with desk := t.desk } ∧
        t.desk.reads.find 0 = some (BitVec.ofNat 32 (s.regValue r.name)) ∧
        t.desk.latched.find 0 = some (off, BitVec.ofNat 32 (s.regValue r.name / 2 ^ 32))) ∧
    (∀ off r w, off % 4 = 0 → regAt off = some r → r.wide = true → r.high = true →
      s.desk.latched.find 0 = some (off - 4, w) →
      ∃ t, exec (.registerRead 0 off 4) s = .next t ∧ t = { s with desk := t.desk } ∧ t.desk.reads.find 0 = some w) ∧
    (∀ val : BitVec 32, ∃ m t, Cleared s m ∧ exec (.registerWrite 0 0x100 4 val) s = .next t ∧ t = { m with sec :=
      { s.sec with pwrlim := Nat.max 300 (Nat.min 1800 (val.toNat % 2048)) } }) ∧
    (∀ (c : Nat) (val : BitVec 32), c < 384 → ∃ m t, Cleared s m ∧
      exec (.registerWrite 0 (0x2000040 + 0x4000 * c) 4 val) s = .next t ∧ t = { m with cores := t.cores } ∧
      t.core c = { s.core c with grant := Nat.max 8 (Nat.min 96 (val.toNat % 128)) } ∧
      ∀ d, d ≠ c → t.core d = s.core d) ∧
    (∀ off r, off % 4 = 0 → regAt off = some r → r.name = .ndata →
      (∀ x, nselTarget s.tree.nsel = some x → ∃ t, exec (.registerRead 0 off 4) s = .next t ∧
        t = { s with desk := t.desk } ∧ t.desk.reads.find 0 = some (BitVec.ofNat 32 (s.regValue .ndata))) ∧
      (nselTarget s.tree.nsel = none → ∃ m1 m t, Cleared s m1 ∧ Logged m1 m (.regError 0 off) ∧
        exec (.registerRead 0 off 4) s = .next t ∧ t = { m with desk := { m.desk with reads := t.desk.reads } } ∧
        t.desk.reads.find 0 = some 0)) ∧
    (∀ val : BitVec 32, ∃ m t, Cleared s m ∧ exec (.devnumWrite val) s = .next t ∧
      t.sec = (if s.sec.devLock then s.sec
        else { s.sec with devnum := val.extractLsb' 0 6, devLock := val.getLsbD 31 }) ∧
      ((s.sec.devLock = true ∨ val.getLsbD 31 = false ∨ s.io.waitPkts = []) → t = { m with sec := t.sec }) ∧
      t = { m with sec := t.sec, io := t.io, freeCtr := t.freeCtr } ∧
      (∀ h, s.sec.devLock = false → val.getLsbD 31 = true → s.io.waitPkts = [h] →
        (s.io.held.filter (fun x => x.packet.dest == h.packet.dest)).length < 4096 →
        let d := h.packet.dest
        let p := { h.packet with src := val.toNat % 64, num := s.io.pktNum.getD d 0 }
        t.io.waitPkts = [] ∧ t.io.held = s.io.held ++ [{ h with packet := p }] ∧
        t.io.out = s.io.out ++ [.request p] ∧ t.io.pktNum.getD d 0 = (s.io.pktNum.getD d 0 + 1) % 65536)) ∧
    (∀ (c : Nat) (val : BitVec 32), c < 384 → ∃ m t, Cleared s m ∧ exec (.classpolWrite c val) s = .next t ∧
      t = { m with cores := t.cores } ∧
      t.core c = { s.core c with
        mode := val.getLsbD 0
        runLen := Nat.max 8 (Nat.min 256 (val.extractLsb' 8 9).toNat)
        k := if val.getLsbD 0 = true ∧ (s.core c).mode = false then 0 else (s.core c).k
        run := if val.getLsbD 0 = true ∧ (s.core c).mode = false then 0 else (s.core c).run } ∧
      ∀ d, d ≠ c → t.core d = s.core d) ∧
    (∀ (cl reg : Nat) (val : BitVec 32), cl < 96 → reg < 3 → ∃ m t, Cleared s m ∧
      exec (.lmodeRegisterWrite cl reg val) s = .next t ∧
      t = { m with
        clusters := t.clusters, mem := t.mem, poison := t.poison, blocks := t.blocks, inflight := t.inflight } ∧
      (∀ j, j ≠ cl → t.cluster j = s.cluster j) ∧ t.inflight.map (·.id) = s.inflight.map (·.id) ∧
      let code := fun (i : Nat) => (val.extractLsb' (2 * (i - 16 * reg)) 2).toNat
      let taken := fun (i : Nat) => 16 * reg ≤ i ∧ i < 16 * reg + 16 ∧ code i ≠ 3 ∧ s.bankRefused cl i none = false
      (∀ i, i < 48 → (taken i → (t.cluster cl).bankMode i = code i) ∧
        (¬taken i → (t.cluster cl).bankMode i = (s.cluster cl).bankMode i)) ∧
      ((∀ i, taken i → (s.cluster cl).bankMode i = 0 → code i = 0) → t.mem = s.mem ∧ t.poison = s.poison ∧
        (t.cluster cl).cache = (s.cluster cl).cache) ∧
      (∀ i, taken i → (s.cluster cl).bankMode i = 0 → code i ≠ 0 → (s.cluster cl).cache.sorted = true →
        WrittenBack s t cl (fun _ => True) ∧ (t.cluster cl).cache = [])) ∧
    (∀ (cl : Nat) (g : Bool) (val : BitVec 32), cl < 96 →
      let v := val &&& 0x00003F3F
      (s.regionOk cl g v = true → ∃ m t, Cleared s m ∧ exec (.stagingRegionWrite cl g val) s = .next t ∧
        t = { m with clusters := t.clusters } ∧ (∀ j, j ≠ cl → t.cluster j = s.cluster j) ∧
        t.cluster cl = (if g then { s.cluster cl with stgg := v } else { s.cluster cl with stgp := v })) ∧
      (s.regionOk cl g v = false → ∃ t, exec (.stagingRegionWrite cl g val) s = .next t ∧
        RefusedWrite s t (0x1000000 + 0x10000 * cl + if g then 0x40C else 0x408))) ∧
    (∀ n, n < 64 → ∃ m m' t, Cleared s m ∧ exec (.irtUnmask n) s = .next t ∧
      let vec := match s.desk.heldLow.find 0 with
        | some (o, w) => if o = 0x7000 + 8 * n then w.extractLsb' 0 8 else (s.irt n).vec
        | none => (s.irt n).vec
      let e := { s.irt n with mask := false, vec := vec }
      m' = { m with io := { s.io with irt := m'.io.irt } } ∧ m'.irt n = { e with pend := false } ∧
      (∀ j, j ≠ n → m'.irt j = s.irt j) ∧
      (e.pend = false → t = m') ∧
      (e.pend = true → s.sourceFree n = false → t = { m' with io := { m'.io with jobs := s.io.jobs ++ [.unmask n e] } }) ∧
      (e.pend = true → s.sourceFree n = true → s.sec.bridge = true → 
        let masked := (s.msixWord vec.toNat 3).getLsbD 0
        (s.sec.locked = true → t = m') ∧
        (s.sec.locked = false → masked = true →
          t = { m' with io := { m'.io with msixPend := s.io.msixPend.set vec.toNat e.pasid } }) ∧
        (s.sec.locked = false → masked = false → t = { m' with io := { m'.io with msix := s.io.msix ++
          [⟨vec.toNat, e.pasid, s.msixWord vec.toNat 1 ++ s.msixWord vec.toNat 0, s.msixWord vec.toNat 2⟩] } })) ∧
      (e.pend = true → s.sourceFree n = true → s.sec.bridge = false →
        (s.tagPending (.msg n) = true → t = { m' with io := { m'.io with
          msgs := s.io.msgs ++ [(n, vec.toNat, e.pasid)] } }) ∧
        (s.tagPending (.msg n) = false →
          Told m' t s.io.bridgeDev 0 (.bridge (.msix vec.toNat e.pasid)) (.msg n)))) ∧
    (∀ (n : Nat) (val : BitVec 32), n < 4096 →
      let x := s.sluice n
      let y := { x with
        tenant := (val.extractLsb' 27 4).toNat
        prog := (val.extractLsb' 16 11).toNat
        cap := (val.extractLsb' 0 12).toNat }
      (val.getLsbD 31 = true →
        (x.en = true → ∃ t, exec (.sluiceEnable n val) s = .next t ∧ Cleared s t) ∧
        (x.en = false → (s.setSluice n y).enableOk n = true → ∃ m t, Cleared s m ∧
          exec (.sluiceEnable n val) s = .next t ∧ t = { m with tree := t.tree } ∧ t.sluice n = { y with en := true } ∧
          ∀ j, j ≠ n → t.sluice j = s.sluice j) ∧
        (x.en = false → (s.setSluice n y).enableOk n = false → ∃ m t, Cleared (s.setSluice n y) m ∧
          exec (.sluiceEnable n val) s = .next t ∧ Logged m t (.regRefused (0x80000 + 0x80 * n)))) ∧
      (val.getLsbD 31 = false → ∃ m t, Cleared s m ∧ exec (.sluiceDisable n val) s = .next t ∧
        t = { m with tree := t.tree } ∧ t.sluice n = (if x.en then { x with en := false } else y) ∧
        ∀ j, j ≠ n → t.sluice j = s.sluice j)) ∧
    (∀ (l : Nat) (val : BitVec 32), l < 403 →
      let n := 4096 + l
      let p := (val.extractLsb' 16 11).toNat
      let d := if l < 384 ∧ (l % 4 = 1 ∨ l % 4 = 2) then (val.extractLsb' 12 4).toNat else (s.sluice n).dNext
      ∃ m t, Cleared s m ∧ exec (.leafProgWrite l val) s = .next t ∧
        (∀ j, j ≠ n → t.sluice j = s.sluice j) ∧
        (s.tree.progOk p = true → t = { m with tree := { s.tree with sluices := t.tree.sluices } } ∧
          t.sluice n = { s.sluice n with dNext := d, prog := p }) ∧
        (s.tree.progOk p = false → t.sluice n = { s.sluice n with dNext := d } ∧
          ∃ m', m' = { m with tree := { s.tree with sluices := m'.tree.sluices } } ∧
            Logged m' t (.regRefused (if l < 384 then 0x1000000 + 0x10000 * (l / 4) + 0x300 + 0x20 * (l % 4)
              else 0x2000 + 0x20 * (l - 384))))) ∧
    (∀ (p w : Nat) (val : BitVec 32), p < 2048 → w < 24 →
      (s.progNamed p = false → ∃ m t, Cleared s m ∧ exec (.progStoreWrite p w val) s = .next t ∧
        t = { m with tree := t.tree } ∧
        (∀ q v, v < 24 → t.tree.progWord q v = if q = p ∧ v = w then val else s.tree.progWord q v) ∧
        ∀ j, t.sluice j = s.sluice j) ∧
      (s.progNamed p = true → ∃ t, exec (.progStoreWrite p w val) s = .next t ∧
        RefusedWrite s t (0x10000 + 0x80 * p + 4 * w))) ∧
    (∀ val : BitVec 32,
      (nselTarget s.tree.nsel = none → ∃ m t, Cleared s m ∧ exec (.ndataWrite val) s = .next t ∧
        Logged m t (.regError 0 0x1104)) ∧
      (∀ n b i, nselTarget s.tree.nsel = some (n, b, i) → ∃ m t, Cleared s m ∧ exec (.ndataWrite val) s = .next t ∧
        t = { m with tree := t.tree } ∧ (∀ j, j ≠ n → t.sluice j = s.sluice j) ∧
        t.sluice n = { s.sluice n with nwords := (t.sluice n).nwords, tables := (t.sluice n).tables } ∧
        (∀ j, (t.sluice n).nwords.getD j 0 = if b = false ∧ j = i then val else (s.sluice n).nwords.getD j 0) ∧
        ∀ j, (t.sluice n).tables.getD j 0 = if b = true ∧ j = i then val else (s.sluice n).tables.getD j 0)) ∧
    (∀ (q e : Nat) (val : BitVec 32), q < 16 → e < 16 →
      let r := (s.tenant q).rows.getD e RowEntry.reset
      let r1 := { r with k := (val.extractLsb' 0 4).toNat }
      (val.getLsbD 31 = true → r.valid = false →
        (r1.ok = true → ∃ m t, Cleared s m ∧ exec (.rowEntryValidate q e val) s = .next t ∧
          t = { m with tenants := t.tenants } ∧ (t.tenant q).rows.getD e RowEntry.reset = { r1 with valid := true }) ∧
        (r1.ok = false → ∃ t, exec (.rowEntryValidate q e val) s = .next t ∧
          RefusedWrite s t (0x8000 + 0x800 * q + 0x80 * e + 0x18))) ∧
      (val.getLsbD 31 = true → r.valid = true → ∃ m t, Cleared s m ∧ exec (.rowEntryValidate q e val) s = .next t ∧
        t = { m with tenants := t.tenants } ∧ (t.tenant q).rows.getD e RowEntry.reset = r) ∧
      (r.valid = true → ∃ m t, Cleared s m ∧ exec (.rowEntryDeregister q e) s = .next t ∧
        t = { m with tenants := t.tenants } ∧ (t.tenant q).rows.getD e RowEntry.reset = { r with valid := false })) ∧
    (∀ (q : Nat) (val : BitVec 32), q < 16 →
      let v := (val.extractLsb' 0 17).toNat
      let x := s.tenant q
      ((x.prod + 2 ^ 17 - v) % 2 ^ 17 ≤ 2 ^ x.log2n → ∃ m t, Cleared s m ∧ exec (.fqconsWrite q val) s = .next t ∧
        t = { m with tenants := t.tenants } ∧ t.tenant q = { x with cons := v } ∧
        ∀ j, j ≠ q → t.tenant j = s.tenant j) ∧
      (2 ^ x.log2n < (x.prod + 2 ^ 17 - v) % 2 ^ 17 → ∃ t, exec (.fqconsWrite q val) s = .next t ∧
        RefusedWrite s t (0x3010 + 0x100 * q)))

/-- PAN_RESET, GRAINER_RESET, ENGINE_WATCHDOG, ENGINE_RESET_END, TENANT_RESET and the TLB invalidations. A reset of
a Pan or a Grainer that is not under reset starts its 512 cycles, counts it, empties the engine and its leaf,
and every queued item waits to enter its leaf again with its rank, behind the running item, which starts again
from pass 0 where its operation carries RESTART_OK (that they enter the leaf and not the tenant's top sluice,
and the tail of a task that had stopped waits as it is, are the model's choice, assumptions 124 and 79);
otherwise the running item's block is killed; an engine under reset takes no further one, and the last cycle of
a reset is a cycle of the cluster. The watchdog resets an engine and logs the hang once it has made no step for
WDOG × 1,024 cycles, and does nothing before, or with WDOG 0. A tenant reset, whose steps take place at once
(the model's choice, assumption 71), leaves no block, live launch, queued item, move, re-push, queued LAUNCH or
COPY request, open or waiting record, row copy and TLB entry of the tenant, clears its fault queue's counts and
its sluices' words, and stands BUSY until it is done; for tenant 0, or while BUSY, it is refused and logged. A
TLB invalidation stands BUSY with its kind and page, one in progress ending first (the model's choice,
assumption 72), and when it is done no entry of the tenant that it names is left and every other entry is. A
write of the Parlour may discard register halves that it held (R7). Cites: spec/21_engine_instructions.md,
spec/29_matrix_engines.md, spec/31_faults.md, spec/33_fabric_host.md. -/
def Obligations.ResetsAndInvalidations : Prop :=
  ∀ (s : State),
    (∀ (cl : Nat) (g : Bool), cl < 96 →
      let i : Instr := if g then .grainerReset cl else .panReset cl
      let leaf := engineLeaf cl g
      let back := fun (it : Item) (rank : BitVec 16) (seat : Option (Place × List Owner)) => match s.opOf it with
        | some (_, _, o) => [(⟨o.block, it, some rank, true, s.tree.cycle, seat⟩ : Repush)]
        | none => []
      let owners := (s.sluice leaf).items.map (fun q => q.item.owner)
      ((s.cluster cl).resetting g ≠ 0 → ∃ m, Cleared s m ∧ exec i s = .next m) ∧
      ((s.cluster cl).resetting g = 0 → ∃ m t, Cleared s m ∧ exec i s = .next t ∧
        (t.cluster cl).resetting g = 512 ∧
        (if g then (t.cluster cl).grResets = Nat.min 255 ((s.cluster cl).grResets + 1)
         else (t.cluster cl).pnResets = Nat.min 255 ((s.cluster cl).pnResets + 1)) ∧
        (t.sluice leaf).items = [] ∧
        ((∀ r id p o, (s.cluster cl).run g = some r → s.opOf r.item = some (id, p, o) → o.restartOk = true) →
          (t.cluster cl).run g = none ∧ t = { m with clusters := t.clusters, tree := t.tree } ∧
          t.tree = { s.tree with sluices := t.tree.sluices, repush := t.tree.repush } ∧
          (∀ n, n ≠ leaf → t.sluice n = s.sluice n) ∧ (∀ j, j ≠ cl → t.cluster j = s.cluster j) ∧
          t.tree.repush = s.tree.repush ++ (match (s.cluster cl).run g with
            | some r => (back r.item r.rank none).map (fun e => { e with item := { e.item with p0 := 0 } })
            | none => []) ++ (s.sluice leaf).items.flatMap (fun q =>
              back q.item q.rank (some (q.place, owners.takeWhile (fun x => x != q.item.owner))))) ∧
        (∀ r id p o, (s.cluster cl).run g = some r → s.opOf r.item = some (id, p, o) →
          o.restartOk = false → (s.blocks.find o.block).isSome = true → t.blocks.find o.block = none ∧
            ∀ k th, t.threads.find k = some th → blockOf k ≠ o.block)) ∧
      (∀ r, (s.cluster cl).run g = some r →
        (((s.cluster cl).wdog = 0 ∨ r.idle < 1024 * (s.cluster cl).wdog.toNat) →
          exec (.engineWatchdog cl g) s = .next s) ∧
        ((s.cluster cl).wdog ≠ 0 → 1024 * (s.cluster cl).wdog.toNat ≤ r.idle →
          ∃ m m' t handle, exec i s = .next m ∧ Cleared m' m ∧ exec (.engineWatchdog cl g) s = .next t ∧
            Logged m' t (.hang cl g handle) ∧ ∀ id p o, s.opOf r.item = some (id, p, o) → handle = o.handle)) ∧
      ((s.cluster cl).resetting g ≠ 1 → exec (.engineResetEnd cl g) s = .next s) ∧
      ((s.cluster cl).resetting g = 1 → ∃ t, exec (.engineResetEnd cl g) s = .next t ∧ t = s.clusterCycle cl ∧
        (t.cluster cl).resetting g = 0)) ∧
    (∀ q, 15 < q → exec (.tenantReset q) s = .next s) ∧
    (∀ q, q ≤ 15 → (q = 0 ∨ (s.tenant q).trBusy = true) →
      ∃ t, exec (.tenantReset q) s = .next t ∧ RefusedWrite s t (0x3028 + 0x100 * q)) ∧
    (∀ q, 0 < q → q ≤ 15 → (s.tenant q).trBusy = false → ∃ t, exec (.tenantReset q) s = .next t ∧
      (t.tenant q).trBusy = true ∧ (t.tenant q).prod = 0 ∧ (t.tenant q).cons = 0 ∧ (t.tenant q).waiting = [] ∧
      (t.tenant q).writing = none ∧
      (∀ p ∈ t.blocks, p.2.tenant ≠ q) ∧ (∀ e ∈ t.tlb, e.tenant ≠ q) ∧ (∀ r ∈ t.desk.open_, r.queue ≠ q) ∧
      (s.tree.entries.sorted = true → ∀ i e, t.entry i = some e → e.tenant = q → e.live = false) ∧
      (∀ n, ∀ x ∈ (t.sluice n).items, x.item.tenant ≠ q) ∧ (∀ e ∈ t.tree.repush, e.item.tenant ≠ q) ∧
      (∀ v ∈ t.tree.moving, v.item.item.tenant ≠ q) ∧ (∀ e ∈ t.tree.frozen, e.2.item.tenant ≠ q) ∧
      (∀ r ∈ t.tree.reads, r.tenant ≠ q) ∧
      (s.tree.entries.sorted = true → ∀ i e, t.entry i = some e → e.tenant = q → e.succ = []) ∧ (∀ c ∈ t.io.copies, c.tenant ≠ q) ∧
      (∀ a, ∀ r ∈ (t.aqi a).queue, r.tenant = q → r.kind ≠ 0 ∧ r.kind ≠ 2) ∧
      (∀ c, ∀ r ∈ (t.cluster c).rows, r.row.tenant ≠ q) ∧
      (∀ n, n ≠ 0 → n < 4096 → (t.sluice n).tenant = q → (t.sluice n).nwords = [] ∧ (t.sluice n).tables = [])) ∧
    (∀ q, ∃ t, exec (.tenantResetDone q) s = .next t ∧ t = { s with tenants := t.tenants } ∧
      t.tenant q = { s.tenant q with trBusy := false } ∧ ∀ p, p ≠ q → t.tenant p = s.tenant p) ∧
    (∀ q, q ≤ 15 →
      let named := fun (e : TlbEnt) => e.tenant = q ∧
        (((s.tenant q).tlbKind = 1 ∧ e.stage = 1 ∧ e.base ≤ (s.tenant q).tlbPage ∧
            (s.tenant q).tlbPage < e.base + 2 ^ e.size) ∨
          ((s.tenant q).tlbKind = 2 ∧ e.stage = 1) ∨ (s.tenant q).tlbKind = 3)
      (∀ kind i, (kind, i) ∈ [(1, Instr.tlbiPage q), (2, .tlbiStage1 q), (3, .tlbiAll q)] →
        ∃ m t, Cleared s m ∧ exec i s = .next t ∧ t = { m with tenants := t.tenants, tlb := t.tlb } ∧
          t.tenant q = { s.tenant q with tlbBusy := true, tlbKind := kind, tlbPage := (s.tenant q).tlbiva } ∧
          (∀ p, p ≠ q → t.tenant p = s.tenant p) ∧
          ∀ e, e ∈ t.tlb ↔ e ∈ s.tlb ∧ ¬((s.tenant q).tlbBusy = true ∧ named e)) ∧
      ∃ t, exec (.tlbInvalidationDone q) s = .next t ∧ t = { s with tenants := t.tenants, tlb := t.tlb } ∧
        (t.tenant q).tlbBusy = false ∧ (∀ p, p ≠ q → t.tenant p = s.tenant p) ∧
        ∀ e, e ∈ t.tlb ↔ e ∈ s.tlb ∧ ¬((s.tenant q).tlbBusy = true ∧ named e))

/-- Records of translation faults and stalls, their draining and their answers. A translation fault of a thread, of
an arrival set or of an engine item that reaches the Hall joins the unanswered record of its queue, kind, tenant
and 64 KiB region, which then acts on its agent too, and whose NMRG rises while it waits for room; otherwise,
and always for an engine's stage-1 fault, whose record has its handle (the model's choice, assumption 69), it
posts a record of its own (in tenant 0's queue for stage 2). A waiting record is written, in order, once its
queue has room and the record before it is complete (R307, R333). A stall that has lasted a BSTALL that is not 0
posts one record of kind 7. RESUME of a record makes its parked threads READY, at their unit again or after
their UPARK, and pushes its engine items again with their ranks, toward the cluster where their block now
stands, or keeps them with a saved block's frozen items; ABORT traps the threads, cause 12 with the address or
cause 11 with the UPARK's code, and kills the blocks of the items; both wait for the restore of a thread's block
that is being saved or is saved. RESUME of a killed block's record pushes its BLOCK item again while its launch
lives, and ABORT makes it fail; ABORT of a record that names a block kills it with cause 5. An answer that names
no open record, or comes during the tenant's reset, does nothing. The write of an answer may discard register
halves that the Parlour held (R7). Cites: spec/31_faults.md, spec/21_engine_instructions.md,
spec/19_uniform_instructions.md. -/
def Obligations.FaultRecords : Prop :=
  ∀ (s : State),
    (∀ i m, s.desk.msgs[i]? = some m →
      let q := if m.stage = 2 then 0 else m.fault.ten
      let ids := if m.engine.isNone then [m.id] else []
      let same := fun (r : OpenRec) => m.fault.kind ≠ 3 ∧ r.queue = q ∧ r.kind = m.fault.kind ∧
        r.tenant = m.fault.ten ∧ r.region = m.fault.addr / 65536
      let ev := if m.engine.isNone then exec (.translationFault i) s else exec (.engineTranslationFault i) s
      (if m.engine.isNone then exec (.engineTranslationFault i) s else exec (.translationFault i) s) = .next s ∧
      ((∀ r ∈ s.desk.open_, ¬same r) → ∃ t, ev = .next t ∧
        Reported s t q m.fault (.agents ids m.engine.toList) ∧ t.desk.msgs = removeAt s.desk.msgs i ∧
        t.threads = s.threads ∧ t.tree = s.tree) ∧
      ((∃ r ∈ s.desk.open_, same r) → ∃ t r, ev = .next t ∧ r ∈ s.desk.open_ ∧ same r ∧
        t = { s with desk := t.desk, tenants := t.tenants } ∧
        t.desk = { s.desk with open_ := t.desk.open_, msgs := removeAt s.desk.msgs i } ∧
        (∀ ms items, r.what = .agents ms items →
          { r with what := .agents (ms ++ ids) (items ++ m.engine.toList) } ∈ t.desk.open_) ∧
        (∀ x ∈ s.desk.open_, x ≠ r → x ∈ t.desk.open_) ∧ t.desk.open_.length = s.desk.open_.length ∧
        (∀ p, p ≠ q → t.tenant p = s.tenant p) ∧
        t.tenant q = { s.tenant q with waiting := (s.tenant q).waiting.map (fun f =>
          if f.tag = r.tag ∧ f.kind = r.kind then { f with nmrg := Nat.min 255 (f.nmrg + 1) } else f) })) ∧
    (∀ q, (s.tenant q).waiting = [] ∨ (s.tenant q).room = false → exec (.faultRecordDrain q) s = .next s) ∧
    (∀ q r rest, (s.tenant q).waiting = r :: rest → (s.tenant q).room = true →
      ∃ t, exec (.faultRecordDrain q) s = .next t ∧ (t.tenant q).waiting = rest ∧ t.threads = s.threads ∧
        (inHostWindow (s.recordPlace q) = false → (t.tenant q).prod = ((s.tenant q).prod + 1) % 2 ^ 17 ∧
          (memBase ≤ (s.tenant q).fqbase → (s.tenant q).fqbase + 64 * 2 ^ (s.tenant q).log2n ≤ memEnd →
            Memory.readBytes t.mem (s.recordPlace q) 64 = r.bytes)) ∧
        (inHostWindow (s.recordPlace q) = true → (t.tenant q).prod = (s.tenant q).prod ∧ t.mem = s.mem ∧
          ∃ id, (t.tenant q).writing = some id ∧
            ∃ o ∈ t.inflight, o.id = id ∧ o.act = .hostFlush (s.recordPlace q - hostBase))) ∧
    (∀ b x, s.blocks.find b = some x →
      let limit := (s.tenant x.tenant).bstall.toNat
      ((limit = 0 ∨ x.stallRep = true ∨ x.stall < limit ∨ s.stalled b = false) →
        exec (.blockStalled b) s = .next s) ∧
      (limit ≠ 0 → x.stallRep = false → limit ≤ x.stall → s.stalled b = true →
        ∃ t r, exec (.blockStalled b) s = .next t ∧ r.kind = 7 ∧ Reported s t x.tenant r (.block b) ∧
          t.blocks.find b = some { x with stallRep := true } ∧ t.threads = s.threads)) ∧
    (∀ (q : Nat) (tag : BitVec 24), q ≤ 15 →
      let rec? := s.desk.open_.find? (fun r => r.queue == q && r.tag == tag.toNat)
      ((rec? = none ∨ (s.tenant q).trBusy = true) → ∃ m, Cleared s m ∧
        exec (.fqansResume q tag) s = .next m ∧ exec (.fqansAbort q tag) s = .next m) ∧
      ((s.tenant q).trBusy = false →
      (∀ r ms items, rec? = some r → r.what = .agents ms items →
        (∀ k th, s.threads.find k = some th → ∀ x, s.blocks.find (blockOf k) = some x →
          (∀ n ea f, n ∈ ms → th.st = .parked (.xlate n ea f) →
            (∃ t, exec (.fqansResume q tag) s = .next t ∧ r ∉ t.desk.open_ ∧ t.mem = s.mem ∧
              (x.runs = true → t.threads.find k = some { th with st := .ready }) ∧
              (x.runs = false → t.threads.find k = some th ∧ (k, true) ∈ t.desk.late)) ∧
            (items = [] → ∃ t th', exec (.fqansAbort q tag) s = .next t ∧ t.threads.find k = some th' ∧
              (x.runs = true → Handled s k th → Trapped 12 th.pc ea (s.handlerOf (blockOf k)) th th') ∧
              (x.runs = false → th' = th ∧ (k, false) ∈ t.desk.late))) ∧
          (∀ n code, n ∈ ms → th.st = .parked (.upark n code) →
            (∃ t, exec (.fqansResume q tag) s = .next t ∧ r ∉ t.desk.open_ ∧ t.mem = s.mem ∧
              (x.runs = true → t.threads.find k = some { th with pc := th.pc + 4, st := .ready }) ∧
              (x.runs = false → t.threads.find k = some th ∧ (k, true) ∈ t.desk.late)) ∧
            (items = [] → ∃ t th', exec (.fqansAbort q tag) s = .next t ∧ t.threads.find k = some th' ∧
              (x.runs = true → Handled s k th → Trapped 11 th.pc (code.setWidth 64) (s.handlerOf (blockOf k)) th th') ∧
              (x.runs = false → th' = th ∧ (k, false) ∈ t.desk.late)))) ∧
        (∀ it rank id p o x, (it, rank) ∈ items → s.opOf it = some (id, p, o) → s.blocks.find o.block = some x →
          (∃ t, exec (.fqansResume q tag) s = .next t ∧ r ∉ t.desk.open_ ∧ t.mem = s.mem ∧
            (x.st ≠ .saved → (⟨o.block, if it.routeClass = 4 then it else it.reroute it.routeClass o.cluster, some rank,
              false, s.tree.cycle, none⟩ : Repush) ∈ t.tree.repush) ∧
            (x.st = .saved → (o.block, (⟨it, rank, .normal, false⟩ : QItem)) ∈ t.tree.frozen)) ∧
          ∃ t, exec (.fqansAbort q tag) s = .next t ∧ t.blocks.find o.block = none)) ∧
      (∀ r l lin it, rec? = some r → r.what = .relaunch l lin it →
        (∃ t, exec (.fqansResume q tag) s = .next t ∧ r ∉ t.desk.open_ ∧ t.threads = s.threads ∧
          t.tree.entries = s.tree.entries ∧ t.tree.repush = s.tree.repush ++
            (if (s.entry l).any (fun e => e.live) then
              [⟨0, { it with owner := .block l lin }, none, false, s.tree.cycle, none⟩] else [])) ∧
        ∃ t, exec (.fqansAbort q tag) s = .next t ∧ t.threads = s.threads ∧ t.tree.repush = s.tree.repush ∧
          ∀ e, s.entry l = some e → e.live = true → e.level = 0 → ∃ e', t.entry l = some e' ∧ e'.failed = true ∧
            (e.counter ≠ 0 → e'.counter = e.counter - 1 ∧ e'.live = true) ∧ (e.counter = 0 → e'.live = false)) ∧
      (∀ r b x, rec? = some r → r.what = .block b → s.blocks.find b = some x →
        (∃ m, Cleared s m ∧ exec (.fqansResume q tag) s = .next m) ∧
        ∃ t m m' rec, exec (.fqansAbort q tag) s = .next t ∧ t.blocks.find b = none ∧
          (∀ k, blockOf k = b → t.threads.find k = none) ∧ Recorded m m' x.tenant rec ∧ rec.kind = 10 ∧ rec.info = 5 ∧
          t = m'.blockDone x.launch true)))

/-- Power-on reset, the throttle, the alarm, attestation, PMBus, the test port and DEBUG_RUN. A power-on reset
leaves everything as after reset but fuses, straps, the identity key or its erasure, and what the boot found,
and releases the alarm lock; the boot verifies its three stages in order by the digest, the fused digest of the
key, the signature over digest and version, and the rollback counter, and names the first stage that fails
(SHA-512 and ECDSA P-521 themselves are uninterpreted, assumption 126); the first good boot makes the key; a
power window moves STEP by at most one against LIMIT and 90 % of it and each change sets GRANT of every core to
⌊96 ÷ 2^STEP⌋, or 64 at step 0, and at 105 °C the alarm rises; the first alarm of a source 1 to 3 erases the key
where KEYERASE is set, and else locks the device and takes every link down, all at the end of the Hall cycle
under way, and a later one does nothing; GO starts an attestation, whose report holds the nonce, HALL.ID,
DEVNUM, the digests and the rollback counter, and is signed over these by the key, only with the key and without
an alarm; PMBus answers at 0x40 + the strap with LINEAR11 values exact where the value is a whole number up to
1,023, command 0xD0 reads LIMIT and writes it within 300 to 1,800, every other command but the four measurements
(their codes are the model's, assumption 119) is NACKed, and so is another address; IDCODE shifts 0x0096_00F3
out, lowest bit first, BYPASS delays by one bit, and BOUNDARY_SCAN gives the pins; DEBUG_RUN, a write of the
debugger (assumption 130), makes the halted named thread READY. A register write may discard halves that its
requester held (R7). Cites: spec/35_power_security.md, spec/01_device.md. -/
def Obligations.PowerSecurityAndDebug : Prop :=
  ∀ (s : State),
    (∀ (strap : Bool) (stages : List BootImage),
      let good := fun (n : Nat) => ∃ i, stages[n]? = some i ∧ i.digest = Config.sha512 i.image ∧
        Config.sha512 i.key = s.sec.keyHash ∧ s.sec.rollback.toNat ≤ i.version.toNat ∧
        Config.ecdsaValid i.key ((leBytes i.digest.toNat 64).reverse ++ leBytes i.version.toNat 4) i.signature = true
      ∃ t, exec (.powerOnReset strap stages) s = .next t ∧
      t = { State.reset with sec := t.sec, freeCtr := s.freeCtr + 1, turns := s.turns } ∧
      t.sec.locked = false ∧ t.sec.bridge = strap ∧ t.sec.erased = s.sec.erased ∧ t.sec.fuseDbg = s.sec.fuseDbg ∧
      t.sec.keyerase = s.sec.keyerase ∧ t.sec.rollback = s.sec.rollback ∧ t.sec.pmStrap = s.sec.pmStrap ∧
      t.sec.keyHash = s.sec.keyHash ∧
      t.sec.dbgen = false ∧ t.sec.devLock = false ∧ t.sec.pwrlim = 1800 ∧
      t.sec.digests = (stages.take 3).map (fun i => Config.sha512 i.image) ∧
      (good 0 → good 1 → good 2 → t.sec.boot = 0) ∧
      (∀ n, n < 3 → ¬good n → (∀ m, m < n → good m) → t.sec.boot = n + 1) ∧
      (s.sec.erased = true → t.sec.key = none) ∧
      (∀ k, s.sec.erased = false → s.sec.key = some k → t.sec.key = some k) ∧
      (s.sec.erased = false → s.sec.key = none → (t.sec.key.isSome = true ↔ t.sec.boot = 0))) ∧
    (∀ avg temp : Nat, temp < 105 → ∃ m t, Cleared s m ∧ exec (.powerWindow avg temp) s = .next t ∧
      t = { m with sec := t.sec, cores := t.cores } ∧ t.sec = { s.sec with
        avg := Nat.min 2047 avg, temp := temp, step := t.sec.step } ∧
      t.sec.step = (if s.sec.pwrlim < avg then Nat.min 3 (s.sec.step + 1)
        else if 10 * avg < 9 * s.sec.pwrlim then s.sec.step - 1 else s.sec.step) ∧
      (t.sec.step = s.sec.step → t.cores = s.cores) ∧
      (t.sec.step ≠ s.sec.step → ∀ c, c < 384 → t.core c = { s.core c with
        grant := if t.sec.step = 0 then 64 else 96 / 2 ^ t.sec.step })) ∧
    (∀ avg temp : Nat, 105 ≤ temp → s.sec.src = 0 → s.sec.keyerase = false →
      ∃ t, exec (.powerWindow avg temp) s = .next t ∧ t.sec.locked = true ∧ t.sec.src = 3 ∧
        ∀ p, p < 18 → (t.port p).up = false) ∧
    (∀ src : BitVec 2, (src = 0 ∨ s.sec.src ≠ 0) → exec (.securityAlarm src) s = .next s) ∧
    (∀ src : BitVec 2, src ≠ 0 → s.sec.src = 0 →
      let e := if s.tree.pushing then s.closeCycle else s
      (s.sec.keyerase = true → exec (.securityAlarm src) s = .next { e with sec := { e.sec with
        src := src, key := none, erased := true, attAlarm := s.sec.attBusy } }) ∧
      (s.sec.keyerase = false → ∃ t, exec (.securityAlarm src) s = .next t ∧ t = { e with
          sec := { e.sec with src := src, locked := true, attAlarm := s.sec.attBusy }
          io := { e.io with ports := t.io.ports } } ∧
        ∀ p, p < 18 → t.port p = { e.port p with up := false })) ∧
    (∃ m t, Cleared s m ∧ exec .attestation s = .next t ∧ t = { m with sec := if s.sec.attBusy then s.sec
      else { s.sec with attBusy := true, attAlarm := false } }) ∧
    (∀ rand : Nat, s.sec.attBusy = false → exec (.attestationDone rand) s = .next s) ∧
    (∀ rand : Nat, s.sec.attBusy = true → ∃ (t : State) (body : List Byte), exec (.attestationDone rand) s = .next t ∧
      let signed := s.sec.key.isSome && !s.sec.attAlarm
      let sig := match s.sec.key with
        | some k => if s.sec.attAlarm then [] else Config.ecdsaSign k body rand
        | none => []
      let n := s.sec.digests.length
      t = { s with sec := t.sec, mem := t.mem, poison := t.poison, freeCtr := t.freeCtr } ∧
      t.sec = { s.sec with attBusy := false, attErr := !signed, attAlarm := false } ∧
      body.length = 76 + 64 * n ∧
      (s.homePoisoned s.sec.attaddr 64 = false → body.take 64 = Memory.readBytes s.mem s.sec.attaddr 64) ∧
      leNat ((body.drop 64).take 4) = 0x00961001 ∧
      leNat ((body.drop 68).take 4) = (if s.sec.devLock then 2 ^ 31 else 0) + s.sec.devnum.toNat ∧
      (∀ i d, s.sec.digests[i]? = some d → (body.drop (72 + 64 * i)).take 64 = (leBytes d.toNat 64).reverse) ∧
      leNat (body.drop (72 + 64 * n)) = s.sec.rollback.toNat ∧
      (memBase ≤ s.sec.attaddr → s.sec.attaddr + 64 + body.length + sig.length ≤ memEnd →
        Memory.readBytes t.mem (s.sec.attaddr + 64) (body.length + sig.length) = body ++ sig ∧
        ∀ x, (x < s.sec.attaddr + 64 ∨ s.sec.attaddr + 64 + body.length + sig.length ≤ x) →
          Memory.read t.mem x = Memory.read s.mem x)) ∧
    (∀ (addr : BitVec 7), s.sec.pmStrap < 16 →
      let mine := addr.toNat = 0x40 + s.sec.pmStrap
      let out := fun (v : Option (BitVec 16)) => ({ s with sec := { s.sec with pmOut := v } } : State)
      (∀ i ∈ [Instr.readPout addr 0, .readTemperature1 addr 0, .readVin addr 0, .readIout addr 0, .pmbusLimitRead ⟨addr, 0xD0⟩],
        ¬mine → exec i s = .next (out none)) ∧
      (mine → exec (.pmbusLimitRead ⟨addr, 0xD0⟩) s = .next (out (some (BitVec.ofNat 16 s.sec.pwrlim)))) ∧
      (∀ cmd : BitVec 8, cmd ∉ [(0xD0 : BitVec 8), 0x88, 0x8C, 0x8D, 0x96] →
        exec (.pmbusLimitRead ⟨addr, cmd⟩) s = .next (out none)) ∧
      (∀ (cmd : BitVec 8) (v : BitVec 16), (cmd ≠ 0xD0 ∨ ¬mine) →
        exec (.pmbusLimitWrite ⟨addr, cmd⟩ v) s = .next (out none)) ∧
      (∀ v : BitVec 16, mine → exec (.pmbusLimitWrite ⟨addr, 0xD0⟩ v) s = .next { s with sec := { s.sec with
        pwrlim := Nat.max 300 (Nat.min 1800 v.toNat) } }) ∧
      (∀ milli : Int, mine → ∃ w : BitVec 16,
        exec (.readPout addr milli) s = .next (out (some w)) ∧
        exec (.readTemperature1 addr milli) s = .next (out (some w)) ∧
        exec (.readVin addr milli) s = .next (out (some w)) ∧ exec (.readIout addr milli) s = .next (out (some w)) ∧
        (∀ n : Int, milli = 1000 * n → -1024 ≤ n → n ≤ 1023 →
          let e := (w.extractLsb' 11 5).toInt
          let y := (w.extractLsb' 0 11).toInt
          e ≤ 0 ∧ y = n * 2 ^ (-e).toNat))) ∧
    (∃ t, exec .idcode s = .next t ∧ t = { s with sec := { s.sec with jtag := t.sec.jtag } } ∧
      t.sec.jtag.length = 32 ∧ ∀ i, i < 32 → t.sec.jtag.getD i false = (0x009600F3#32).getLsbD i) ∧
    (∀ bits : List Bool, ∃ t, exec (.bypass bits) s = .next t ∧
      t = { s with sec := { s.sec with jtag := t.sec.jtag } } ∧ t.sec.jtag.length = bits.length ∧
      ∀ i, i < bits.length → t.sec.jtag.getD i false = if i = 0 then false else bits.getD (i - 1) false) ∧
    (∀ pins : List Bool, exec (.boundaryScan pins) s = .next { s with sec := { s.sec with jtag := pins } }) ∧
    (∀ c, (384 ≤ c ∨ s.dbgOn = false) → exec (.debugRun c) s = .next s) ∧
    (∀ c, c < 384 → s.dbgOn = true → s.namedHalted c = false → ∃ m, Cleared s m ∧ exec (.debugRun c) s = .next m) ∧
    (∀ c k th, c < 384 → s.dbgOn = true → s.namedThread c = some k → s.threads.find k = some th →
      th.st = .parked .debug → ∃ m, Cleared s m ∧
      exec (.debugRun c) s = .next { m with threads := s.threads.set k { th with st := .ready } })

/-- Launch packets, the launch unit, Hall cycles, moves, pre-emption, admission, successors, cancels, saves and
tails. LAUNCH_PACKET_READ waits while the root is full, a successor behind the earlier ones of its launch, an
AQI's while its runner cores stand, and a replicated one for LOCK (assumption 131); a packet that cannot be
read, breaks its limits (assumption 118), does not fit, or stands beneath a cancelled level or a tenant's reset
is refused with its status along its path; another takes the next table index, its counter one less than its
blocks, and its LAUNCH item enters the root; an AQI's is answered at once, or at its placement if it names
tables (assumption 84). LAUNCH_POP, requested before the Hall cycle, puts the head of the root in the lowest
free slot, with the readable table of least heat or all clusters, or fails the launch; BLOCK_EXPANSION pushes
the next BLOCK of the oldest slot that can. A Hall cycle has two turns: its pops and grants, then its pushes
(assumption 122). INNER_SLUICE_MOVE lets a granted move enter its child, after the re-pushes and the moves of
lower parents, or removes a stray head with a record of kind 8. A pre-empting head of a core leaf that does not
fit takes victims, if they make room, the largest s first, of equal ones the youngest (assumption 38); each is
drained, saved or flushed, as costs least. CORE_LEAF_POP makes a block that fits resident as R117 says, or
restores a saved one, whose frozen items are pushed again toward the cluster (assumption 57), whose late answers
take effect, and whose cluster drops its clean copies (assumption 100); one that does not fit waits.
SUCCESSOR_RELEASE reads the packets of a retired launch; CANCEL ends a launch of the tenant that asked with all
its own; BLOCK_SAVE retires a block that is done, or saves a drained one, its cluster's dirty bytes written home
(assumption 100), freezes its items and pushes its RESTORE item; TAIL_REPUSH pushes a tail into its leaf with
its rank (assumption 79), and an item of a reset engine behind those that stood ahead of it. The times are free
(assumptions 7 and 91). Cites: spec/01_device.md, spec/03_execution.md, spec/09_assembly.md,
spec/27_scheduling_tree.md, spec/31_faults.md. -/
def Obligations.LaunchesAndBlocks : Prop :=
  ∀ (s : State),
    (s.rootRoom = true ↔ (s.sluice 0).en = true ∧ (s.sluice 0).items.length ≤ (s.sluice 0).cap ∧
      s.tree.pushing = true ∧ s.tree.moving = [] ∧ (s.sluice 0).ordinal ≤ ordLaunch) ∧
    (∀ i r, s.tree.reads[i]? = some r →
      ((∃ l, r.path = .successor l ∧ ∃ q ∈ s.tree.reads.take i, q.path = .successor l) ∨
        (∃ a tag compl mask, r.path = .aqi a tag compl mask ∧
          (s.runnerUp = false ∨ (mask ≠ 0 ∧ s.sec.devLock = false)))) →
      exec (.launchPacketRead (.pending i)) s = .next s) ∧
    (∀ (src : PacketSource) (r : PktRead) (m : State),
      (src = .parlour r.va ∧ r = ⟨.parlour, 0, r.va, 0, none⟩ ∧ m = s) ∨
        (∃ i, src = .pending i ∧ s.tree.reads[i]? = some r ∧
          (∀ l, r.path = .successor l → ∀ q ∈ s.tree.reads.take i, q.path ≠ .successor l) ∧
          ((∃ a tag compl mask, r.path = .aqi a tag compl mask) → s.runnerUp = true) ∧
          m = { s with tree := { s.tree with reads := removeAt s.tree.reads i } }) →
      (∀ a tag compl mask, r.path = .aqi a tag compl mask → mask = 0) →
      (s.rootRoom = false → exec (.launchPacketRead src) s = .next s) ∧
      (s.rootRoom = true →
        let h := if r.data = none then m.readRequests r.tenant r.va 128 2 else m
        let bytes := match r.data with
          | some d => d
          | none => m.readVa r.tenant r.va 128 2
        let refused := fun (st : Nat) => ∃ t, exec (.launchPacketRead src) s = .next t ∧
          (r.path = .parlour → Logged h t (.launchRefused st)) ∧
          (∀ l, r.path = .successor l → Logged h t (.succRefused l st)) ∧
          (∀ a tag compl mask, r.path = .aqi a tag compl mask →
            t = h.completeAqi a r.tenant compl tag (if st = 5 then 5 else 3) 0)
        ((∀ va pa a b, m.translate hallUnit r.tenant va permR m.choice = .ok pa a b → inHostWindow pa = false) → h = m) ∧
        (bytes = none → refused 5) ∧
        (∀ d, bytes = some d →
          (∀ st, checkPacket d = .error st → refused st) ∧
          (∀ p, checkPacket d = .ok p → (h.cancelledAbove 4 p.parent = true ∨ (h.tenant r.tenant).trBusy = true) →
            refused 4) ∧
          (∀ p, checkPacket d = .ok p → h.cancelledAbove 4 p.parent = false → (h.tenant r.tenant).trBusy = false →
            let l := h.tree.nextEntry
            ∃ (n t : State) (it : Item) (rank : BitVec 16) (e : Entry), Entered { h with tree := { h.tree with
                entries := n.tree.entries, nextEntry := l + 1 } } n 0 it rank ∧
              it.owner = .launch l ∧ it.field 0 = 0x9000 ∧ it.field 7 = BitVec.ofNat 16 l ∧
              n.tree.entries.find l = some e ∧ e.live = true ∧ e.level = 0 ∧ e.tenant = r.tenant ∧
              e.packet = some p ∧ e.counter = BitVec.ofNat 32 (p.blocks - 1) ∧ e.parent = p.parent ∧
              e.failed = false ∧ e.cancelled = false ∧ e.bound = r.bound ∧
              (∀ i, i < 8 → e.succ.getD i 0 = if i < p.nsucc then p.succ + 128 * i else 0) ∧
              (p.cooperative = false → e.barrier = none) ∧
              (p.cooperative = true → ∃ x, e.barrier = some x ∧ x.e = p.blocks * p.blockt ∧ x.a = 0) ∧
              (∀ j, j ≠ l → n.tree.entries.find j = h.tree.entries.find j) ∧ n.tree.nextEntry = l + 1 ∧
              exec (.launchPacketRead src) s = .next t ∧
              ((∀ a tag compl mask, r.path ≠ .aqi a tag compl mask) → t = n) ∧
              (∀ a tag compl mask, r.path = .aqi a tag compl mask →
                (p.nplace = 0 → t = n.completeAqi a r.tenant compl tag 0 l) ∧
                (p.nplace ≠ 0 → t = { n with tree := { n.tree with entries := t.tree.entries } } ∧
                  t.entry l = some { e with reply := some r.path } ∧ ∀ j, j ≠ l → t.entry j = n.entry j)))))) ∧
    (∀ d, (fieldAt d 0 2 ≠ 0x4C01 ∨ 4 ≤ fieldAt d 2 1 ∨ 64 ≤ fieldAt d 3 1 ∨ fieldAt d 0x18 2 = 0 ∨
        fieldAt d 0x1A 2 = 0 ∨ fieldAt d 0x1C 2 = 0 ∨ fieldAt d 8 8 % 4 ≠ 0 ∨ 8 < fieldAt d 0x3C 1 ∨
        4 < fieldAt d 0x3D 1 ∨ fieldAt d 0x3E 2 ≠ 0 ∨ fieldAt d 0x78 8 ≠ 0 ∨ fieldAt d 0x1E 2 = 0 ∨
        16384 < fieldAt d 0x1E 2 ∨ fieldAt d 0x20 1 = 0 ∨ 16 < fieldAt d 0x20 1 ∨ fieldAt d 0x21 1 = 0 ∨
        16 < fieldAt d 0x21 1 ∨ 6291456 < fieldAt d 0x24 4 ∨ 1048576 < fieldAt d 0x28 4 ∨ 2048 < fieldAt d 0x2C 2 ∨
        (fieldAt d 2 1 / 2 % 2 = 1 ∧ fieldAt d 0x2C 2 = 2048) ∨ (fieldAt d 0x3C 1 ≠ 0 ∧ fieldAt d 0x40 8 = 0) ∨
        ((List.range 4).filter (fun i => fieldAt d (0x48 + 8 * i) 8 != 0)).length < fieldAt d 0x3D 1) →
      checkPacket d = .error 1) ∧
    (∀ d p, parsePacket d = some p → 2 ^ 32 < p.blocks → checkPacket d = .error 2) ∧
    (∀ d p, checkPacket d = .ok p → p.entry = fieldAt d 8 8 ∧ p.handler = fieldAt d 0x10 8 ∧
      p.blockt = fieldAt d 0x1E 2 ∧ 1 ≤ p.blockt ∧ p.blockt ≤ 16384 ∧ p.vregs = 8 * fieldAt d 0x20 1 ∧
      8 ≤ p.vregs ∧ p.vregs ≤ 128 ∧ p.uregs = 16 * fieldAt d 0x21 1 ∧ 16 ≤ p.uregs ∧ p.uregs ≤ 256 ∧
      p.args = fieldAt d 0x30 8 ∧ p.parent = fieldAt d 0x38 4 ∧ p.blocks ≤ 2 ^ 32) ∧
    (((s.sluice 0).items = [] ∨ s.canPop 0 = false ∨ 0 ∉ s.tree.asks ∨
        (∃ q rest, (s.sluice 0).items = q :: rest ∧ q.hold = true) ∨
        (∀ i, i < 16 → (s.tree.slots.find i).isSome = true)) → exec .launchPop s = .next s) ∧
    (∀ q rest l e p slot, (s.sluice 0).items = q :: rest → s.canPop 0 = true → 0 ∈ s.tree.asks → q.hold = false →
      q.item.owner = .launch l → s.entry l = some e → e.packet = some p → slot < 16 →
      s.tree.slots.find slot = none → (∀ i, i < slot → (s.tree.slots.find i).isSome = true) →
      ∃ m t, Popped s m 0 q rest ∧ exec .launchPop s = .next t ∧
        let tables := p.place.filterMap (m.placement e.tenant)
        let sum := fun (x : List Nat) => x.foldl (fun n c => n + s.heat c) 0
        (∀ tab, (p.nplace = 0 ∧ tab = List.range 96) ∨ (p.nplace ≠ 0 ∧ ∃ i : Nat, tables[i]? = some tab ∧
            ∀ (j : Nat) x, tables[j]? = some x → sum tab ≤ sum x ∧ (j < i → sum tab < sum x)) →
          ∃ n, n = { s with nextId := s.nextId + 1, tree := n.tree, io := n.io, freeCtr := n.freeCtr } ∧
            n.tree = { m.tree with slots := n.tree.slots, entries := n.tree.entries } ∧
            n.tree.slots.find slot = some ⟨l, s.nextId, 0, tab⟩ ∧
            (∀ i, i ≠ slot → n.tree.slots.find i = s.tree.slots.find i) ∧
            n.entry l = some { e with reply := none } ∧ (∀ j, j ≠ l → n.entry j = s.entry j) ∧
            (p.place = [] → n.io = s.io ∧ n.freeCtr = s.freeCtr) ∧
            ((∀ a tag compl mask, e.reply ≠ some (.aqi a tag compl mask)) → t = n) ∧
            (∀ a tag compl mask, e.reply = some (.aqi a tag compl mask) →
              t = n.completeAqi a e.tenant compl tag 0 l)) ∧
        (p.nplace ≠ 0 → tables = [] → ∃ n e', t.entry l = some e' ∧ e'.live = false ∧ e'.failed = true ∧ e'.succ = [] ∧
          t.tree.slots = s.tree.slots ∧ t = n.retireLaunch l ∧
          n.entry l = some { e with reply := none, failed := true } ∧
          ((∀ a tag compl mask, e.reply ≠ some (.aqi a tag compl mask)) → ∀ l', e.reply ≠ some (.successor l') →
            Logged { m with tree := { m.tree with entries := n.tree.entries } } n (.launchRefused 3)) ∧
          (∀ a tag compl mask, e.reply = some (.aqi a tag compl mask) →
            n = ({ m with tree := { m.tree with entries := n.tree.entries } } : State).completeAqi a e.tenant compl tag
              3 0))) ∧
    (∀ slot, (s.tree.expanded = true ∨ s.tree.slots.find slot = none ∨
        (∃ x, s.tree.slots.find slot = some x ∧ ∃ y ∈ s.tree.slots, y.2.age < x.age ∧ (s.expand y.1).isSome = true)) →
      exec (.blockExpansion slot) s = .next s) ∧
    (∀ slot x e p, s.tree.slots.find slot = some x → s.entry x.launch = some e → e.packet = some p →
      s.tree.expanded = false → (∀ y ∈ s.tree.slots, y.2.age < x.age → s.expand y.1 = none) → e.tenant < 16 →
      ((s.topOf e.tenant = none ∨ ∃ n, s.topOf e.tenant = some n ∧ s.tree.repush = [] ∧ s.canPush n ordLaunch = false) →
        exec (.blockExpansion slot) s = .next s) ∧
      (∀ n, s.topOf e.tenant = some n → s.tree.repush = [] → s.canPush n ordLaunch = true →
      ∃ m t it rank, Entered s m n it rank ∧ exec (.blockExpansion slot) s = .next t ∧
        t = { m with tree := { m.tree with expanded := true, slots := t.tree.slots } } ∧
        it.owner = .block x.launch x.next ∧ it.kind = 7 ∧ it.tenant = e.tenant ∧
        it.field 6 = BitVec.ofNat 16 (x.table.getD (x.next % x.table.length) 0) ∧
        it.field 7 = BitVec.ofNat 16 x.next ∧
        t.tree.slots.find slot = (if x.next + 1 < p.blocks then some { x with next := x.next + 1 } else none) ∧
        ∀ i, i ≠ slot → t.tree.slots.find i = s.tree.slots.find i)) ∧
    (∀ n, s.canMove n = true ↔ (s.sluice n).en = true ∧
      (s.sluice n).start + (s.tree.moving.filter (fun m => m.child == n)).length < if 4096 ≤ n then 256 else (s.sluice n).cap + 1) ∧
    (∀ j q rest, (s.sluice j).items = q :: rest → j ≠ 0 → j < 4096 → s.canPop j = true →
      (∀ n, (s.sluice j).childFor q.item = some n → n ≠ 0 → n ≠ j →
        (s.canMove n = false → s.grantMove j = s) ∧
        (s.canMove n = true → ∃ m, Popped s m j q rest ∧
          s.grantMove j = { m with tree := { m.tree with moving := s.tree.moving ++ [⟨j, n, q⟩] } })) ∧
      ((s.sluice j).childFor q.item = none → s.grantMove j = s ∧ (s.tree.moving = [] →
        ∃ (m0 m : State) (r : FaultRec), (m0.sluice j).items = rest ∧ (∀ i, i ≠ j → m0.sluice i = s.sluice i) ∧
          m0 = { s with tree := { s.tree with sluices := m0.tree.sluices } } ∧ Recorded m0 m q.item.tenant r ∧
          r.kind = 8 ∧ r.info = (q.item.field 7).setWidth 32 ∧ m.tree = m0.tree ∧ m.threads = s.threads ∧
          m.blocks = s.blocks ∧ m.ops = s.ops ∧
          (∀ op part o, q.item.owner = .engine op part → s.ops.find op = some o → r.handle = o.handle ∧
            r.pc = o.pc ∧ exec (.innerSluiceMove j) s = .next (m.killBlock o.block 1)) ∧
          (∀ l lin, q.item.owner = .block l lin → r.launch = l ∧ r.block = lin ∧
            exec (.innerSluiceMove j) s = .next (m.cancelLevel 0 l)) ∧
          (∀ b x, q.item.owner = .restore b → s.blocks.find b = some x →
            exec (.innerSluiceMove j) s = .next (m.cancelLevel 0 x.launch)) ∧
          (∀ c part, q.item.owner = .host c part → exec (.innerSluiceMove j) s = .next (m.hostPartDone c true))))) ∧
    (∀ j v rest, s.tree.moving = v :: rest →
      (v.parent ≠ j → exec (.innerSluiceMove j) s = .next s) ∧
      (v.parent = j → s.tree.repush = [] → ∃ t rank,
        Entered { s with tree := { s.tree with moving := rest } } t v.child v.item.item rank ∧
        ((v.child < 4096 ∨ 4480 ≤ v.child ∨ v.child % 4 ≠ 0) → exec (.innerSluiceMove j) s = .next t) ∧
        (4096 ≤ v.child → v.child < 4480 → v.child % 4 = 0 →
          exec (.innerSluiceMove j) s = .next (t.preemptCore ((v.child - 4096) / 4))))) ∧
    (s.tree.pushing = false → s.hallTurn.tree.pushing = true ∧ s.hallTurn.tree.cycle = s.tree.cycle) ∧
    (s.tree.pushing = true → s.hallTurn.tree.pushing = false ∧ s.hallTurn.tree.cycle = s.tree.cycle + 1 ∧
      s.hallTurn.tree.expanded = false ∧ ∀ n, (s.hallTurn.sluice n).popped = false ∧ (s.hallTurn.sluice n).ordinal = 0 ∧
        (s.hallTurn.sluice n).start = (s.hallTurn.sluice n).items.length) ∧
    (∀ cl, ((s.sluice (coreLeaf cl)).items = [] → s.preemptCore cl = s) ∧
      (∀ q rest p bars, (s.sluice (coreLeaf cl)).items = q :: rest → s.itemPacket q.item = some (p, bars) →
        (q.place ≠ .preempt → s.preemptCore cl = s) ∧
        (q.place = .preempt →
          let leaving := (s.blocks.filter (fun x => x.2.cluster == cl &&
            (x.2.st == .draining || x.2.st == .saving))).map (·.1)
          let margin := ((s.sluice (coreLeaf cl)).pmargin.toNat : Int)
          let s_ := fun (x : Block) => (q.rank - x.rank).toInt
          let cand := fun (b : Nat) (x : Block) => (b, x) ∈ s.blocks ∧ x.cluster = cl ∧ x.st = .running ∧
            x.packet.cooperative = false ∧ margin ≠ 0 ∧ s_ x ≤ -margin
          (s.fitsCluster cl p bars leaving = true → s.preemptCore cl = s) ∧
          let all := (s.blocks.filter (fun z => z.2.cluster == cl && z.2.st == .running &&
            !z.2.packet.cooperative && decide (margin ≠ 0 ∧ s_ z.2 ≤ -margin))).map (·.1)
          (s.fitsCluster cl p bars leaving = false →
            (s.preemptCore cl = s ∧ s.fitsCluster cl p bars (leaving ++ all) = false) ∨
            ∃ vs : List (Nat × Block), vs ≠ [] ∧ (∀ v ∈ vs, cand v.1 v.2) ∧
              s.fitsCluster cl p bars (leaving ++ vs.map (·.1)) = true ∧
              (∀ n, n < vs.length → s.fitsCluster cl p bars (leaving ++ (vs.take n).map (·.1)) = false) ∧
              (vs.Pairwise (fun a b => s_ b.2 < s_ a.2 ∨ (s_ b.2 = s_ a.2 ∧ b.2.age ≤ a.2.age))) ∧
              (∀ v ∈ vs, ∀ b x, cand b x → (b, x) ∉ vs →
                s_ x < s_ v.2 ∨ (s_ x = s_ v.2 ∧ x.age ≤ v.2.age)) ∧
              s.preemptCore cl = vs.foldl (fun m v => m.evict q.item.bound v.1) s)))) ∧
    (∀ b x bound, s.blocks.find b = some x →
      let age := s.tree.cycle / 64 - x.since
      let foot := x.packet.storeBytes + x.packet.lscr + 8 * x.objs.length
      let save := (foot + s.tree.saverate - 1) / s.tree.saverate
      let allowed := fun (m : Mode) (est cost : Nat) =>
        (m = .drain ∧ x.packet.drain ≠ 0xFFFF ∧ est = x.packet.drain - age ∧ cost = est) ∨
        (m = .save ∧ est = save ∧ cost = 2 * save) ∨
        (m = .flush ∧ x.packet.restartable = true ∧ est = 0 ∧ cost = age)
      let meets := fun (est : Nat) => bound ≠ 0 ∧ est ≤ bound
      ∃ m est cost, allowed m est cost ∧
        ((∃ m' est' cost', allowed m' est' cost' ∧ meets est') → meets est) ∧
        (∀ m' est' cost', allowed m' est' cost' → (meets est → meets est') →
          cost ≤ cost' ∧ (cost = cost' → m = .drain ∨ m = m' ∨ (m = .save ∧ m' = .flush))) ∧
        (m = .drain → s.evict bound b = { s with blocks := s.blocks.set b { x with st := .draining } }) ∧
        (m = .save → s.evict bound b = { s with blocks := s.blocks.set b { x with st := .saving } }) ∧
        (m = .flush → let t := s.evict bound b
          t.blocks.find b = none ∧ (∀ k, k / 16384 = b → t.threads.find k = none) ∧
          ∃ pre, t.tree.repush = pre ++ [⟨b, { x.item with owner := .block x.launch x.lin }, none, false, s.tree.cycle,
            none⟩] ∧
            ∀ r ∈ pre, r ∈ s.tree.repush)) ∧
    (∀ cl, (96 ≤ cl ∨ coreLeaf cl ∉ s.tree.asks ∨ s.canPop (coreLeaf cl) = false ∨ (s.sluice (coreLeaf cl)).items = []) →
      exec (.coreLeafPop cl) s = .next s) ∧
    (∀ cl q rest p bars, cl < 96 → (s.sluice (coreLeaf cl)).items = q :: rest → s.canPop (coreLeaf cl) = true →
      coreLeaf cl ∈ s.tree.asks → s.itemPacket q.item = some (p, bars) →
      ((s.roomFor cl p bars [] = none ∨ s.partsFor cl p.lscr [] = none) →
        exec (.coreLeafPop cl) s = .next (s.preemptCore cl)) ∧
      (∀ core parts, s.roomFor cl p bars [] = some core → s.partsFor cl p.lscr [] = some parts →
        (∀ l lin e, q.item.owner = .block l lin → s.entry l = some e → p.blockt ≤ 16384 → p.groups ≤ 2048 →
          let b := s.nextId
          ∃ t y, exec (.coreLeafPop cl) s = .next t ∧ (t.sluice (coreLeaf cl)).items = rest ∧
            t.mem = s.mem ∧ t.inflight = s.inflight ∧ t.blocks.find b = some y ∧
            (∀ j, j ≠ b → t.blocks.find j = s.blocks.find j) ∧
            y.launch = l ∧ y.lin = lin ∧ y.tenant = e.tenant ∧ y.packet = p ∧ y.cluster = cl ∧ y.core = core ∧
            y.rank = q.rank ∧ y.st = .running ∧ y.lparts = parts ∧
            (∀ i, y.objs.find i = if i < p.bars then some ⟨false, p.blockt, 0, false, none, [], []⟩ else none) ∧
            (∀ k, k < p.blockt → ∃ th, t.threads.find (threadKey b k) = some th ∧
              th.pc = BitVec.ofNat 64 p.entry ∧ th.st = .unstarted ∧ (∀ r, (th.reg r).full = false) ∧
              th.tepc = 0 ∧ th.tcause = 0 ∧ th.tval = 0 ∧ th.token = none ∧
              th.stacklim = BitVec.ofNat 32 (4 * p.privw) ∧ th.privbase = BitVec.ofNat 32 (4 * p.privw)) ∧
            (∀ k, blockOf k ≠ b → t.threads.find k = s.threads.find k) ∧
            (∀ g, g < p.groups → ∃ x, t.groups.find (groupKey b g) = some x ∧
              x.core = (core.getD (4 * cl + g % 4)) ∧ (x.sreg 2).val = BitVec.ofNat 32 p.args ∧
              (x.sreg 3).val = BitVec.ofNat 32 (p.args / 2 ^ 32) ∧ (x.sreg 2).full = true ∧ (x.sreg 3).full = true ∧
              ∀ r, 4 ≤ r → (x.sreg r).full = false) ∧
            ∀ g, blockOfGroup g ≠ b → t.groups.find g = s.groups.find g) ∧
        (∀ b x, q.item.owner = .restore b → s.blocks.find b = some x → x.objs.sorted = true →
          ∃ t y, exec (.coreLeafPop cl) s = .next t ∧ (t.sluice (coreLeaf cl)).items = rest ∧
            t.blocks.find b = some y ∧ (∀ j, j ≠ b → t.blocks.find j = s.blocks.find j) ∧
            y = { x with cluster := cl, core := core, rank := q.rank, st := .running, lparts := parts,
                         age := y.age, objs := y.objs, parkedTab := [], parkedPool := [], ranges := [],
                         since := y.since, slots := [] } ∧
            (∀ i o, x.objs.find i = some o → ∃ o', y.objs.find i = some o' ∧ o'.e = o.e ∧
              (Nat.min barMax o.a < o.e → o' = { o with a := Nat.min barMax o.a }) ∧
              (o.e ≤ Nat.min barMax o.a → o'.phase = !o.phase ∧ o'.a = 0)) ∧
            (∀ g z, s.groups.find g = some z → ∃ z', t.groups.find g = some z' ∧
              z' = { z with core := z'.core, attach := z'.attach } ∧
              (blockOfGroup g = b → z'.core = core.getD (4 * cl + g % 2048 % 4))) ∧
            (∀ e ∈ x.ranges, e.block = b → e ∈ (t.cluster cl).rsb) ∧
            (∀ a v, a < 2 ^ 52 → (t.cluster cl).cache.find a ≠ some (v, false)) ∧
            t.tree.frozen = s.tree.frozen.filter (fun e => e.1 != b) ∧
            t.tree.repush = s.tree.repush ++
              (inIssueOrder ((s.tree.frozen.filter (fun e => e.1 == b)).map (·.2))).map (fun z =>
                ⟨b, z.item.reroute z.item.routeClass cl, some z.rank, false, s.tree.cycle, none⟩) ∧
            ((∀ z ∈ s.desk.late, blockOf z.1 ≠ b) → (∀ z ∈ x.objs, z.2.a < z.2.e) →
              t.mem = s.mem ∧ t.threads = s.threads) ∧
            (∀ k th m ea f, s.desk.late = [(k, true)] → blockOf k = b → s.threads.find k = some th →
              th.st = .parked (.xlate m ea f) → (∀ z ∈ x.objs, z.2.a < z.2.e) →
              t.threads.find k = some { th with st := .ready })))) ∧
    (∀ l e, s.entry l = some e →
      ((e.live = true ∨ e.level ≠ 0) → exec (.successorRelease l) s = .next s) ∧
      (e.live = false → e.level = 0 → ∃ t, exec (.successorRelease l) s = .next t ∧
        let vas := e.succ.filter (fun va => decide (va ≠ 0))
        let h := vas.foldl (fun m va => m.readRequests e.tenant va 128 2) s
        ((∀ va pa a b, s.translate hallUnit e.tenant va permR s.choice = .ok pa a b → inHostWindow pa = false) → h = s) ∧
        t = { h with tree := { s.tree with entries := t.tree.entries, reads := t.tree.reads } } ∧
        t.tree.reads = s.tree.reads ++
          vas.map (fun va => ⟨.successor l, e.tenant, va, 0, some (s.readVa e.tenant va 128 2)⟩) ∧
        t.entry l = some { e with succ := [] } ∧ ∀ j, j ≠ l → t.entry j = s.entry j)) ∧
    (∀ (q : Nat) (level : BitVec 2) (l : Nat),
      ((q, level.toNat, l) ∉ s.tree.cancels → exec (.cancel q level l) s = .next s) ∧
      (∀ e, s.entry l = some e → (q, level.toNat, l) ∈ s.tree.cancels →
        (e.tenant ≠ q → exec (.cancel q level l) s = .next
          { s with tree := { s.tree with cancels := s.tree.cancels.erase (q, level.toNat, l) } }) ∧
        (e.tenant = q → e.live = true → e.level = 0 → level = 0 → ∃ t e', exec (.cancel q level l) s = .next t ∧
          t.entry l = some e' ∧ e'.live = false ∧ e'.cancelled = true ∧ e'.succ = [] ∧ e'.reply = none ∧
          (∀ p ∈ t.blocks, p.2.launch ≠ l) ∧ (∀ p ∈ t.tree.slots, p.2.launch ≠ l) ∧
          (∀ n, ∀ x ∈ (t.sluice n).items, x.item.owner ≠ .launch l ∧ ∀ lin, x.item.owner ≠ .block l lin) ∧
          (∀ v ∈ t.tree.moving, ∀ lin, v.item.item.owner ≠ .block l lin) ∧
          (∀ r ∈ t.tree.repush, ∀ lin, r.item.owner ≠ .block l lin) ∧
          (∀ r ∈ t.tree.reads, r.path ≠ .successor l) ∧ (∀ c ∈ t.tree.completions, c.1 ≠ l) ∧
          (∀ p ∈ t.tree.pendings, p.launch ≠ l) ∧ ∀ r ∈ t.tree.replicas, r.launch ≠ l))) ∧
    (∀ b x, s.blocks.find b = some x →
      (x.st ≠ .saving → exec (.blockSave b) s = .next s) ∧
      (x.st = .saving → s.canRetire b = true → ∃ t, exec (.blockSave b) s = .next t ∧ t.blocks.find b = none ∧
        (∀ k, blockOf k = b → t.threads.find k = none) ∧ ∀ j, j ≠ b → t.blocks.find j = s.blocks.find j) ∧
      (x.st = .saving → s.canRetire b = false → (s.drained b = false ∨ s.poolRoom x = false) →
        exec (.blockSave b) s = .next s) ∧
      (x.st = .saving → s.canRetire b = false → s.drained b = true → s.poolRoom x = true →
        (s.cluster x.cluster).cache.sorted = true →
        ∃ t y it, exec (.blockSave b) s = .next t ∧ t.blocks.find b = some y ∧
        y = { x with st := .saved, parkedTab := y.parkedTab, parkedPool := y.parkedPool, ranges := y.ranges } ∧
        y.parkedTab ++ y.parkedPool = x.objs.map (·.1) ∧ y.parkedTab.length ≤ 64 ∧
        (∀ e ∈ y.ranges, e ∈ (s.cluster x.cluster).rsb ∧ e.block = b) ∧
        (∀ j, j ≠ b → t.blocks.find j = s.blocks.find j) ∧ t.threads = s.threads ∧ t.groups = s.groups ∧
        WrittenBack s t x.cluster (fun _ => True) ∧ (∀ a v, (t.cluster x.cluster).cache.find a ≠ some (v, true)) ∧
        (∀ n, ∀ q ∈ (t.sluice n).items, s.ownsItem b q.item = false) ∧
        (∀ v ∈ t.tree.moving, s.ownsItem b v.item.item = false) ∧
        (∀ e ∈ (t.cluster x.cluster).rsb, e.block ≠ b) ∧
        t.tree.repush = s.tree.repush ++ [⟨b, it, none, false, s.tree.cycle, none⟩] ∧ it.owner = .restore b ∧ it.kind = 8)) ∧
    (∀ (it : Item) b, it.owner = .restore b → it.f.length = 16 → let r := s.routedNow it
      r.owner = .restore b ∧ r.routeClass = 0 ∧ r.routeIndex < 96 ∧
      ∀ j, j < 96 → s.heat r.routeIndex ≤ s.heat j ∧ (j < r.routeIndex → s.heat r.routeIndex < s.heat j)) ∧
    (∀ cl g, (s.tree.repush = [] → exec (.tailRepush cl g) s = .next s) ∧
      (∀ e, s.tree.repush = [e] →
        ((96 ≤ cl ∨ s.repushTo e ≠ some (engineLeaf cl g) ∨ s.tree.cycle ≤ e.since ∨
            s.canPush (engineLeaf cl g) ordRepush = false) → exec (.tailRepush cl g) s = .next s) ∧
        (∀ rank, cl < 96 → e.leaf = true → e.rank = some rank → e.seat = none → e.item.leaf = some (engineLeaf cl g) →
          (∀ b, e.item.owner ≠ .restore b) → e.since < s.tree.cycle → s.canPush (engineLeaf cl g) ordRepush = true →
          ∃ m, Entered s m (engineLeaf cl g) e.item rank ∧
            exec (.tailRepush cl g) s = .next { m with tree := { m.tree with repush := [] } }) ∧
        (∀ rank place ahead, cl < 96 → e.leaf = true → e.rank = some rank → e.seat = some (place, ahead) →
          e.item.leaf = some (engineLeaf cl g) → e.since < s.tree.cycle →
          s.canPush (engineLeaf cl g) ordRepush = true →
          ∃ (m : State) (pre post : List QItem) (q : QItem), (s.sluice (engineLeaf cl g)).items = pre ++ post ∧ q.item = e.item ∧ q.rank = rank ∧
            (q.place = place ∨ q.place = .preempt) ∧ (∀ x ∈ post, x.item.owner ∉ ahead) ∧
            (m.sluice (engineLeaf cl g)).items.map QItem.view = (pre ++ q :: post).map QItem.view ∧
            (m.sluice (engineLeaf cl g)).rwf = (s.sluice (engineLeaf cl g)).rwf ∧
            (∀ j, j ≠ engineLeaf cl g → m.sluice j = s.sluice j) ∧ m = { s with tree := m.tree, clusters := m.clusters } ∧
            exec (.tailRepush cl g) s = .next { m with tree := { m.tree with repush := [] } })))

/-- Items of engine operations: pushes, pops, steps, copies, staging and completion. ENGINE_ITEM_PUSH pushes, after
the launch unit's BLOCK, the next item of the first entry of a cluster's engine queue, which frees with its
last, and waits while its top sluice takes none; a FAB for an absent device ends with status 2. A Pan and a
Grainer that are idle and not under reset pop their leaf's head, as they had asked before the Hall cycle, once
its staging is done, and start at its first pass; a step ends when its engine has spent its cycles on it
(assumption 96): it writes what it computes to Larder scratch and goes on with the next step or pass, or, at a
pass boundary with a marked yield, stops and leaves its tail to its leaf (assumption 79), or ends the item; an
operand fault kills the block with cause 1, and an illegal T5 byte, after the six cycles of the fill, with cause
2 after a record of kind 9. What a step computes is stated: of a PAN, C by R78 and its 8 or 18 + z cycles, and
the illegal byte of lowest offset that it reads; of a GRN the sums of R79 and R80 and the tiles and scales of
R81 and R82 (scale 1 where a block has no finite element is assumption 121). The copy engine pops its leaf when
nothing is to be staged; it reads and writes the bytes of a segment, at the addresses of R232, or does the rows
of a GAT or SCT, as far as free choices say (assumptions 53, 54 and 95), where an SCT does earlier rows that
name the same row with or before a later one, and it ends the item with the last write or row; a GAT row leaves
an image in its destination row and an SCT row is the row write of R176 (assumption 133). An operation completes
when all its items are done, is marked done in its group, releases its range, and a FAB writes its status word,
which is an operand fault in a bank that is not in SCRATCH mode. The segmenter checks a shape table and answers,
or raises the parameter fault (assumption 68); staging takes free units of the region and leaves the operand's
bytes there, and an eligible operand beyond the region is an operand fault. Cites: spec/05_numbers.md,
spec/15_memory_instructions.md, spec/21_engine_instructions.md, spec/27_scheduling_tree.md,
spec/29_matrix_engines.md. -/
def Obligations.EngineItems : Prop :=
  ∀ (s : State),
    (∀ cl id rest o ten, (s.cluster cl).engQ = id :: rest → s.ops.find id = some o →
      ten = s.tenantOfBlock o.block → ten < 16 → o.cluster < 96 → s.tree.repush = [] →
      let e := s.expandOldest
      (s.tree.slots.sorted = true → e = s ∨ ∃ slot, exec (.blockExpansion slot) s = .next e) ∧
      (∀ n port, (o.cls = 5 → s.routePort o.device = some port) → o.cls < 6 → e.topOf ten = some n →
        e.canPush n (ordCluster cl) = true →
        ∃ m t it rank, Entered e m n it rank ∧ exec (.engineItemPush cl) s = .next t ∧
          it.owner = .engine id o.pushed ∧ it.kind = o.cls + 1 ∧ it.tenant = ten ∧
          it.field 7 = o.handle.extractLsb' 0 16 ∧
          it.routeClass = (match o.cls with
            | 0 => 1
            | 1 => 2
            | 5 => 4
            | _ => 3) ∧
          t.ops.find id = some { o with pushed := o.pushed + 1 } ∧ t.tree = m.tree ∧ t.threads = s.threads ∧
          (o.pushed + 1 < o.parts → t.clusters = m.clusters) ∧
          (o.parts ≤ o.pushed + 1 → (t.cluster cl).engQ = rest.filter (fun i => decide (i ≠ id)))) ∧
      (∀ port, (o.cls = 5 → s.routePort o.device = some port) → (e.topOf ten = none ∨
          ∃ n, e.topOf ten = some n ∧ e.canPush n (ordCluster cl) = false) → exec (.engineItemPush cl) s = .next s) ∧
      (o.cls = 5 → s.routePort o.device = none → ∃ t, exec (.engineItemPush cl) s = .next t ∧ t.tree = s.tree ∧
        t.ops.find id = some { o with
          status := if o.status = 0 then 2 else o.status
          donePts := if o.donePts.contains o.pushed then o.donePts else o.donePts ++ [o.pushed]
          pushed := o.pushed + 1 })) ∧
    (∀ (cl : Nat) (g : Bool) (q : QItem) (rest : List QItem),
      let pop : Instr := if g then .grainerPop cl else .panPop cl
      (((s.cluster cl).run g).isSome = true ∨ (s.cluster cl).resetting g ≠ 0 ∨ s.canPop (engineLeaf cl g) = false ∨
          engineLeaf cl g ∉ s.tree.asks →
        exec pop s = .next s) ∧
      ((s.sluice (engineLeaf cl g)).items = q :: rest →
        (s.stageDone q.item = false → exec pop s = .next s) ∧
        (cl < 96 → (s.cluster cl).run g = none → (s.cluster cl).resetting g = 0 →
          s.canPop (engineLeaf cl g) = true → engineLeaf cl g ∈ s.tree.asks → s.stageDone q.item = true →
          ∃ m t, Popped s m (engineLeaf cl g) q rest ∧ exec pop s = .next t ∧
            t = { m with clusters := t.clusters } ∧
            (t.cluster cl).run g = some ⟨q.item, q.rank, q.item.p0, 0, 0, 0, false, []⟩ ∧
            (t.cluster cl).run (!g) = (s.cluster cl).run (!g) ∧ ∀ j, j ≠ cl → t.cluster j = s.cluster j))) ∧
    (∀ (cl : Nat) (g : Bool) (r : EngRun) (id part : Nat) (o : EngOp) (x : Block), (s.cluster cl).run g = some r →
      s.opOf r.item = some (id, part, o) → s.blocks.find o.block = some x →
      let i : Instr := if g then .grainerStep cl else .panStep cl
      let res := if g then s.grnStep x o r.item r.pass r.step r.sums else s.panStep x o r.item r.pass r.step
      (res = .fault → exec i s = .next (s.killBlock o.block 1)) ∧
      (((∃ off val, res = .illegal off val ∧ r.idle ≠ 6) ∨
          (∃ ws cycles sums, res = .done ws cycles sums ∧ r.idle ≠ cycles)) → exec i s = .next s) ∧
      (∀ off val, res = .illegal off val → r.idle = 6 → ∃ m rec, Recorded s m x.tenant rec ∧ rec.kind = 9 ∧
        rec.handle = o.handle ∧ rec.pc = o.pc ∧ (o.group < 2048 → rec.group = o.group ∧ rec.block = x.lin) ∧
        rec.info = BitVec.ofNat 32 (r.pass + 256 * r.step) ∧ rec.info2 = BitVec.ofNat 64 (off + 65536 * val) ∧
        m.blocks = s.blocks ∧ m.threads = s.threads ∧ m.tree = s.tree ∧ exec i s = .next (m.killBlock o.block 2)) ∧
      (∀ ws cycles sums, res = .done ws cycles sums → r.idle = cycles →
        s.larderOk x (ws.flatMap (fun w => natRange w.1 w.2.length)) = false →
        exec i s = .next (s.killBlock o.block 1)) ∧
      (∀ ws cycles sums, res = .done ws cycles sums → r.idle = cycles →
        s.larderOk x (ws.flatMap (fun w => natRange w.1 w.2.length)) = true →
        ∃ t, exec i s = .next t ∧
          t.blocks.find o.block = some { x with lmem := ws.foldl (fun m w => m.writeBytes w.1 w.2) x.lmem } ∧
          (∀ j, j ≠ o.block → t.blocks.find j = s.blocks.find j) ∧ t.threads = s.threads ∧ t.groups = s.groups ∧
          t.mem = s.mem ∧
          (r.step + 1 < o.steps → ∃ r', (t.cluster cl).run g = some r' ∧ r'.step = r.step + 1 ∧ r'.pass = r.pass ∧
            r'.idle = 0 ∧ r'.item = r.item ∧ r'.rank = r.rank ∧ r'.yield = r.yield ∧ r'.sums = sums ∧ t.ops = s.ops ∧
            t.tree = s.tree) ∧
          (o.steps ≤ r.step + 1 → r.pass + 1 < o.passes → r.yield = false → ∃ r', (t.cluster cl).run g = some r' ∧
            r'.step = 0 ∧ r'.pass = r.pass + 1 ∧ r'.idle = 0 ∧ r'.item = r.item ∧ r'.rank = r.rank ∧ t.ops = s.ops ∧
            t.tree = s.tree) ∧
          (o.steps ≤ r.step + 1 → r.pass + 1 < o.passes → r.yield = true → (t.cluster cl).run g = none ∧ t.ops = s.ops ∧
            t.tree = { s.tree with repush := s.tree.repush ++
              [⟨o.block, { r.item with p0 := r.pass + 1 }, some r.rank, true, s.tree.cycle, none⟩] }) ∧
          (o.steps ≤ r.step + 1 → o.passes ≤ r.pass + 1 → (t.cluster cl).run g = none ∧ t.tree = s.tree ∧
            t.ops.find id = some { o with
              donePts := if o.donePts.contains part then o.donePts else o.donePts ++ [part] }))) ∧
    (∀ (x : Block) (o : EngOp) (it : Item) (pass panel : Nat),
      let byte := fun (n j : Nat) =>
        if (par o.params 0).getLsbD 2 then ((s.cluster o.cluster).stagedByte it.stage.units
          (16384 * (pass * ((16 * ((par o.params 0).toNat / 2 ^ 20 % 64) + 255) / 256) + panel) + 64 * n + j)).toNat
        else x.byte ((par o.params 3).toNat % 2 ^ 23 + 64 * ((par o.params 4).toNat / 2 ^ 16) *
          (pass * ((16 * ((par o.params 0).toNat / 2 ^ 20 % 64) + 255) / 256) + panel) + 64 * n + j)
      let t : PanTile := ⟨x, o.params, pass, panel, byte⟩
      let read := fun (n j : Nat) => n < t.here ∧ j < t.depth ∧ t.skip n j = false
      (∀ i, i < 8 → (s.cluster x.cluster).bankMode (x.bankOf ((par o.params 9).toNat +
          8 * (pass * ((t.width + 255) / 256) + panel) + i)) ≠ 1 → s.panStep x o it pass panel = .fault) ∧
      (s.panStep x o it pass panel ≠ .fault →
        (t.entry.testBit 32 = true → ∃ ws, s.panStep x o it pass panel = .done ws 8 [] ∧
          ElementWrites ws t.rows (fun n => n < t.here) t.place t.value) ∧
        (t.entry.testBit 32 = false → (∀ n j, read n j → byte n j ≤ 242) → ∃ ws, s.panStep x o it pass panel =
            .done ws (18 + ((List.range t.rows).filter (fun m => !t.masked m)).length) [] ∧
          ElementWrites ws t.rows (fun n => n < t.here) t.place t.value) ∧
        (t.entry.testBit 32 = false → ∀ n j, read n j → 242 < byte n j →
          (∀ n' j', read n' j' → 64 * n' + j' < 64 * n + j → byte n' j' ≤ 242) →
          s.panStep x o it pass panel = .illegal (64 * n + j) (byte n j)))) ∧
    (∀ (x : Block) (o : EngOp) (it : Item) (pass step : Nat) (sums : NMap Word32),
      s.grnStep x o it pass step sums ≠ .fault →
      let p := o.params
      let mode := (par p 0).toNat / 2 ^ 28
      let rows := 64 * 2 ^ ((par p 0).toNat / 2 ^ 26 % 4)
      let width := 16 * ((par p 0).toNat / 2 ^ 20 % 64)
      let count := (par p 0).toNat / 2 ^ 12 % 256
      let len := if mode = 2 then 64 * count else 128 * count
      let b := fun (n j : Nat) => if (par p 0).getLsbD 2 then
          ((s.cluster o.cluster).stagedByte it.stage.units (n * len + j)).toNat
        else x.byte (descByte p 3 0 n j)
      let cols := fun (c n : Nat) => 128 * c ≤ n ∧ n < 128 * c + 128 ∧ n < width
      (mode < 2 → let f := if mode = 0 then e4m3 else e5m2
        ∃ ws, s.grnStep x o it pass step sums = .done ws (14 + rows) [] ∧
          ElementWrites ws rows (cols step) (fun m n => descByte p 5 pass m (4 * n)) (fun m n =>
            let v := rn .rne (fpSum .rne ((List.range 128).map (fun i =>
              (f.decode (x.byte (descByte p 1 0 m (128 * pass + i)))).mul (f.decode (b n (128 * pass + i))))))
            some (if v = 0x80000000 then 0 else v))) ∧
      (mode = 2 → 0 < count →
        let c := step / count
        let g := step % count
        let group := fun (m n : Nat) => treeSum (fun i =>
          (bf16.decode (leNat (Memory.readBytes x.lmem (descByte p 1 0 m (2 * (32 * g + i))) 2))).mul
            (bf16.decode (b n (2 * (32 * g + i)) + 256 * b n (2 * (32 * g + i) + 1)))) 4 0
        let place := fun (m n : Nat) => descByte p 5 0 m (4 * n)
        let s_ := fun (m n : Nat) =>
          if g = 0 ∧ (par p 0).getLsbD 0 = true then group m n
          else rn .rne (fpSum .rne [f32 (if g = 0 then x.word (place m n) else sums.getD (width * m + n) 0),
            f32 (group m n)])
        (g + 1 = count → ∃ ws, s.grnStep x o it pass step sums = .done ws (14 + rows) [] ∧
          ElementWrites ws rows (cols c) place (fun m n => some (s_ m n))) ∧
        (g + 1 < count → ∃ sums', s.grnStep x o it pass step sums = .done [] (14 + rows) sums' ∧
          ∀ m n, m < rows → cols c n → sums'.getD (width * m + n) 0 = s_ m n)) ∧
      (mode = 3 →
        let src := fun (m n : Nat) => x.half (descByte p 1 0 m (2 * n))
        let q := fun (v : Fp) (t : Int) => rne8 e4m3 true (v.shrink t)
        let scale := fun (t : Int) => leBytes (rn .rne (.fin false 1 t)).toNat 4
        ∃ (ws : List (Nat × List Byte)) (tr tc : Nat → Int), s.grnStep x o it pass step sums = .done ws 272 [] ∧
          (∀ m, m < 128 → ScaleExp (src m) (tr m)) ∧ (∀ n, n < 128 → ScaleExp (fun m => src m n) (tc n)) ∧
          ∀ a data, (a, data) ∈ ws ↔
            (∃ m n, m < 128 ∧ n < 128 ∧ a = descByte p 3 0 m n ∧ data = leBytes (q (src m n) (tr m)) 1) ∨
            (∃ m n, m < 128 ∧ n < 128 ∧ a = descByte p 5 0 n m ∧ data = leBytes (q (src m n) (tc n)) 1) ∨
            (∃ m, m < 128 ∧ a = (par p 7).toNat + 4 * m ∧ data = scale (tr m)) ∨
            (∃ n, n < 128 ∧ a = (par p 8).toNat + 4 * n ∧ data = scale (tc n))) ∧
      (mode = 4 →
        let src := fun (m k : Nat) => x.half (descByte p 1 pass m (2 * k))
        let rec_ := (par p 7).toNat + pass * (33 * rows / 8)
        ∃ (ws : List (Nat × List Byte)) (sc : Nat → Word32) (mask : Nat → Byte),
          s.grnStep x o it pass step sums = .done ws (14 + rows) [] ∧ (∀ m, m < rows → ScaleWord (src m) (sc m)) ∧
          (∀ i j, i < rows / 8 → j < 8 → ((mask i).getLsbD j = true ↔
            ∀ k, k < 320 → quant8 .rne ((src (8 * i + j) k).div (f32 (sc (8 * i + j)))) = 0)) ∧
          ∀ a data, (a, data) ∈ ws ↔
            (∃ m k, m < rows ∧ k < 320 ∧ a = descByte p 3 pass m k ∧
              data = leBytes (quant8 .rne ((src m k).div (f32 (sc m)))) 1) ∨
            (∃ m, m < rows ∧ a = rec_ + 4 * m ∧ data = leBytes (sc m).toNat 4) ∨
            (∃ i, i < rows / 8 ∧ a = rec_ + 4 * rows + i ∧ data = [mask i]))) ∧
    (∀ (o : EngOp) (z : Nat),
      let x := fun (d : Nat) => z / ((o.shape.take d).map (·.1)).prod % (o.shape.getD d (1, 0, 0)).1
      o.cpySrc z = ((par64 o.params 1 : Int) + ((List.range o.shape.length).map (fun d =>
        (x d : Int) * if d = 0 then 1 else (o.shape.getD d (1, 0, 0)).2.1)).sum).toNat ∧
      o.cpyDst z = ((par64 o.params 3 : Int) + ((List.range o.shape.length).map (fun d =>
        (x d : Int) * if d = 0 then 1 else (o.shape.getD d (1, 0, 0)).2.2)).sum).toNat) ∧
    (∀ (o : EngOp) (zs : List Nat),
      ((par o.params 0).getLsbD 0 = true → s.cpyRead o zs = .ok (zs.map (fun z =>
        (o.cpyDst z, byteOf (par o.params 6) (o.cpyDst z % 4))))) ∧
      ((par o.params 0).getLsbD 0 = false →
        (∀ data, (∀ i, i < zs.length → ∃ z v, zs[i]? = some z ∧ data[i]? = some v ∧
            s.engRead o.block (o.cpySrc z) = .ok v) → data.length = zs.length →
          s.cpyRead o zs = .ok ((zs.map o.cpyDst).zip data)) ∧
        ((∃ z ∈ zs, ∃ f, s.engRead o.block (o.cpySrc z) = .error f) → ∃ f, s.cpyRead o zs = .error f))) ∧
    (∀ b va x, s.blocks.find b = some x → va < 2 ^ 64 →
      (va / 2 ^ 48 = 0xFFF1 → (s.cluster x.cluster).bankMode (x.bankOf (va % 2 ^ 48)) = 1 →
        s.engRead b va = .ok (Memory.read x.lmem (va % 2 ^ 48)) ∧
        ∀ v, s.engWrite b va v = .ok { s with blocks := s.blocks.set b { x with
          lmem := Memory.write x.lmem (va % 2 ^ 48) v } }) ∧
      (va / 2 ^ 48 = 0xFFF1 → (s.cluster x.cluster).bankMode (x.bankOf (va % 2 ^ 48)) ≠ 1 →
        s.engRead b va = .error .operand ∧ ∀ v, s.engWrite b va v = .error .operand) ∧
      (va / 2 ^ 48 = 0xFFF2 → s.engRead b va = .ok (Memory.read x.cmem (va % 2 ^ 48)) ∧
        ∀ v, s.engWrite b va v = .ok { s with blocks := s.blocks.set b { x with
          cmem := Memory.write x.cmem (va % 2 ^ 48) v } }) ∧
      (va < 2 ^ 52 → ∀ pa a c, s.translate x.cluster x.tenant va permR s.choice = .ok pa a c → inHostWindow pa = false →
        ∀ v d, (s.cluster x.cluster).cache.find pa = some (v, d) → (s.cluster x.cluster).cachePoisoned pa 1 = false →
          s.engRead b va = .ok v) ∧
      (va < 2 ^ 52 → ∀ pa a c, s.translate x.cluster x.tenant va permW s.choice = .ok pa a c → memBase ≤ pa →
        pa < memEnd → ∀ v, ∃ t, s.engWrite b va v = .ok t ∧ Memory.read t.mem pa = v ∧
          ∀ y, y ≠ pa → Memory.read t.mem y = Memory.read s.mem y) ∧
      (va < 2 ^ 52 → ∀ pa a c, s.translate x.cluster x.tenant va permW s.choice = .ok pa a c → inHostWindow pa = true →
        ∀ v, s.engWrite b va v = .ok (s.hostPost x.tenant x.cluster (pa - hostBase) [v]))) ∧
    (∀ b vas, (∀ va ∈ vas, ∀ pa a c, s.translate (s.clusterOfBlock b) (s.tenantOfBlock b) va permR s.choice = .ok pa a c →
      inHostWindow pa = false) → s.engRequests b vas = s) ∧
    (∀ (o : EngOp) (i : Nat) (x : Block) (n : Nat) (e : RowEntry) (need : Perm), s.blocks.find o.block = some x →
      (s.tenant x.tenant).rowEntry (par64 o.params 1) = some (n, e) →
      let ga := par64 o.params 1 +
        leNat (Memory.readBytes x.lmem ((par o.params 3).toNat % 2 ^ 23 + 4 * i) 4) * 2 ^ e.k
      ((ga < e.base ∨ e.limit ≤ ga) → s.engRow o i need = .error .operand) ∧
      (∀ r, s.engRow o i need = .ok r → e.base ≤ ga ∧ ga < e.limit ∧ r.k = e.k ∧ r.entry = n ∧ r.tenant = x.tenant ∧
        (∃ a c, s.translate o.cluster x.tenant ga need s.choice = .ok r.pa a c) ∧
        ∃ a c, s.translate o.cluster x.tenant (e.verBase + 4 * ((ga - e.base) / 2 ^ e.k)) need s.choice = .ok r.ver a c)) ∧
    (∀ (o : EngOp) (i : Nat) (x : Block) (r : RowRef), s.blocks.find o.block = some x →
      let banks := ∀ j, j < 2 ^ r.k → (s.cluster x.cluster).bankMode (x.bankOf (descByte o.params 5 0 i j)) = 1
      (s.engRow o i permR = .ok r → s.homePoisoned r.pa (2 ^ r.k) = false → 6 ≤ r.k → banks →
        (∀ j k, j < 2 ^ r.k → k < 2 ^ r.k → descByte o.params 5 0 i j = descByte o.params 5 0 i k → j = k) →
        let own := fun y => match (s.cluster o.cluster).cache.find y with
          | some (v, true) => v
          | _ => Memory.read s.mem y
        ∃ (t : State) (x' : Block) (image : List Byte), s.gatRow o i = .ok t ∧
          t.blocks.find o.block = some x' ∧ x' = { x with lmem := x'.lmem } ∧
          (∀ j, j ≠ o.block → t.blocks.find j = s.blocks.find j) ∧
          (image.length = 2 ^ r.k → ∀ j, j < 2 ^ r.k → Memory.read x'.lmem (descByte o.params 5 0 i j) = image.getD j 0) ∧
          ((image.length = 2 ^ r.k ∧ ((s.cluster o.cluster).cache.sorted = true →
              WrittenBack s t o.cluster (fun y => r.owns y = true) ∧
              ∀ j, j < 2 ^ r.k → memBase ≤ r.pa → r.pa + 2 ^ r.k ≤ memEnd → r.pa + j ∉ s.poison →
                image.getD j 0 = own (r.pa + j))) ∨
            (o.home = false ∧ t.mem = s.mem ∧ ∃ c ∈ s.clusters, ∃ y ∈ c.2.rows, y.row.pa = r.pa ∧ y.row.k = r.k ∧
              (∀ z ∈ o.rowSeen, z.1 = r.pa → z.2 ≤ y.stamp) ∧ image = y.image))) ∧
      (s.engRow o i permRW = .ok r →
        (s.homePoisoned r.pa (2 ^ r.k) = true → s.sctRow o i = .error .operand) ∧
        (s.homePoisoned r.pa (2 ^ r.k) = false → banks → s.sctRow o i = .ok ((s.applyRowWrite o.cluster
          ((par o.params 0).toNat / 2 ^ 28 + 1) r ((List.range (2 ^ r.k)).map (fun j =>
            Memory.read x.lmem (descByte o.params 5 0 i j)))).dropRow o.cluster r.pa)))) ∧
    (∀ cl q rest id part o, cl < 96 → (s.sluice (copyLeaf cl)).items = q :: rest → (s.cluster cl).copy = none →
      s.canPop (copyLeaf cl) = true → copyLeaf cl ∈ s.tree.asks → s.staging cl false = none → s.staging cl true = none →
      s.opOf q.item = some (id, part, o) →
      ((s.canStage cl false = true ∨ s.canStage cl true = true) → exec (.copyLeafPop cl) s = .next s) ∧
      (s.canStage cl false = false → s.canStage cl true = false → ∃ m t, Popped s m (copyLeaf cl) q rest ∧
        exec (.copyLeafPop cl) s = .next t ∧ t = { m with clusters := t.clusters } ∧
        (t.cluster cl).copy = some ⟨q.item, q.rank, o.todo part q.item.p0, []⟩ ∧
        ∀ j, j ≠ cl → t.cluster j = s.cluster j)) ∧
    (∀ cl, (s.cluster cl).copy = none → exec (.copySegmentComplete cl) s = .next s) ∧
    (∀ cl r id part o, (s.cluster cl).copy = some r → s.opOf r.item = some (id, part, o) → o.cls = 2 →
      ∃ (m : State) (take keep : List Nat), m = { s with clusters := m.clusters, freeCtr := m.freeCtr } ∧ (m.cluster cl).copy = none ∧
        (∀ j, j ≠ cl → m.cluster j = s.cluster j) ∧ (take ++ keep).Perm r.todo ∧
        (r.writes = [] → r.todo ≠ [] → take ≠ []) ∧
        (∀ f, m.cpyRead o take = .error f →
          exec (.copySegmentComplete cl) s = .next (m.engineFail o r.item r.rank f)) ∧
        (∀ got, m.cpyRead o take = .ok got →
          ∃ out wait, (out ++ wait).Perm (r.writes ++ got) ∧ (take = [] → r.writes ≠ [] → out ≠ []) ∧
            (∀ n, (m.drawn.engRequests o.block (o.cpyReads take)).engWrites o.block out = (n, none) →
              (keep = [] → wait = [] → exec (.copySegmentComplete cl) s = .next (n.partDone id part)) ∧
              (keep ≠ [] ∨ wait ≠ [] → ∃ t, exec (.copySegmentComplete cl) s = .next t ∧
                t = { n with clusters := t.clusters } ∧
                (t.cluster cl).copy = some { r with todo := keep, writes := wait })) ∧
            (∀ n f, (m.drawn.engRequests o.block (o.cpyReads take)).engWrites o.block out = (n, some f) →
              exec (.copySegmentComplete cl) s = .next (n.engineFail o r.item r.rank f)))) ∧
    (∀ cl r id part o, (s.cluster cl).copy = some r → s.opOf r.item = some (id, part, o) → o.cls ≠ 2 →
      ∃ (m : State) (rows : List Nat), m = { s with clusters := m.clusters, freeCtr := m.freeCtr } ∧ (m.cluster cl).copy = none ∧
        (∀ j, j ≠ cl → m.cluster j = s.cluster j) ∧ (∀ i ∈ rows, i ∈ r.todo) ∧ (r.todo ≠ [] → rows ≠ []) ∧
        (o.cls = 4 → rows.Sublist r.todo ∧
          ∀ i ∈ r.todo, ∀ j ∈ rows, i < j → s.sameRow o i j = true → i ∈ rows) ∧
        (∀ n rest, State.engRows o m rows = (n, rest, none) → rest = [] ∧
          ((∀ i ∈ r.todo, i ∈ rows) → exec (.copySegmentComplete cl) s = .next (n.partDone id part)) ∧
          ((∃ i ∈ r.todo, i ∉ rows) → ∃ t, exec (.copySegmentComplete cl) s = .next t ∧
            t = { n with clusters := t.clusters } ∧
            (t.cluster cl).copy = some { r with todo := r.todo.filter (fun i => !rows.contains i) })) ∧
        (∀ n i rest f, State.engRows o m rows = (n, i :: rest, some f) → ∃ left,
          (∀ j, j ∈ left ↔ j ∈ r.todo ∧ (j ∉ rows ∨ j ∈ i :: rest)) ∧
          exec (.copySegmentComplete cl) s = .next (n.engineFail o { r.item with p0 := o.doneBits left } r.rank f))) ∧
    (∀ (o : EngOp) it rank f va w, ∃ m, s.engineFail o it rank (.xlate f va w) = { s with
        nextId := s.nextId + 1, desk := { s.desk with msgs := s.desk.msgs ++ [m] } } ∧ m.engine = some (it, rank) ∧
      m.stage = f.stage ∧ m.block = o.block ∧ m.fault.kind = (if f.stage = 2 then 2 else 3) ∧ m.fault.handle = o.handle ∧
      s.engineFail o it rank .operand = s.killBlock o.block 1) ∧
    (∀ id o g y, s.ops.find id = some o → s.groups.find (groupKey o.block o.group) = some g → o.cls < 6 →
      s.blocks.find o.block = some y →
      let banks := ∀ i, i < 4 → (s.cluster y.cluster).bankMode (y.bankOf ((par o.params 6).toNat + i)) = 1
      (o.finished = false → exec (.engineOpComplete id) s = .next s) ∧
      (o.finished = true → o.cls = 5 → par o.params 6 ≠ 0xFFFFFFFF → ¬banks →
        exec (.engineOpComplete id) s = .next (s.killBlock o.block 1)) ∧
      (o.finished = true → (o.cls = 5 → par o.params 6 ≠ 0xFFFFFFFF → banks) → ∃ (m : State) (g' : Group), exec (.engineOpComplete id) s = .next (m.retireIfDone o.block) ∧
        m.ops.find id = none ∧ (∀ j, j ≠ id → m.ops.find j = s.ops.find j) ∧ m.threads = s.threads ∧
        m.mem = s.mem ∧ (∀ e ∈ (m.cluster o.cluster).rsb, e.engOp ≠ some id) ∧
        m.groups.find (groupKey o.block o.group) = some g' ∧ g' = { g with ret := g'.ret, done := g'.done } ∧
        (∀ j, j ≠ groupKey o.block o.group → m.groups.find j = s.groups.find j) ∧
        (g.done = [] → g.ret.getD o.cls 0 = o.seq → g'.done = [] ∧ g'.ret.getD o.cls 0 = o.seq + 1) ∧
        (g.done = [] → (∀ c, c < 6 → g.ret.getD c 0 ≠ o.seq) → g'.done = [(o.cls, o.seq)] ∧
          ∀ c, c < 6 → g'.ret.getD c 0 = g.ret.getD c 0) ∧
        ((o.cls ≠ 5 ∨ par o.params 6 = 0xFFFFFFFF) → m.blocks = s.blocks) ∧
        (o.cls = 5 → par o.params 6 ≠ 0xFFFFFFFF → ∀ x, s.blocks.find o.block = some x →
          ∃ y, m.blocks.find o.block = some y ∧ y = { x with lmem := y.lmem } ∧
            ∀ a, Memory.read y.lmem a = if (s.cluster x.cluster).bankMode (x.bankOf a) = 1
              then stored (par o.params 6).toNat (leBytes o.status 4) a (Memory.read x.lmem a)
              else Memory.read x.lmem a))) ∧
    (∀ group x q, s.blocks.find (blockOfGroup group) = some x → x.runs = true →
      (s.cluster x.cluster).segReqs.find? (fun q => q.group == group && q.answer.isNone) = some q →
      s.hasAccess q.members = false →
      let want := if cpyTableOk q.params x.packet.lscr
        then natRange (par q.params 5).toNat (16 * cpyDims q.params) else []
      (∀ f, s.engLarders (blockOfGroup group) want = .error f →
        (firstBad (cpyStatic q.params x.packet.lscr) = none →
          exec (.segmenterRead group) s = .next (s.killBlock (blockOfGroup group) 1)) ∧
        (∀ w, firstBad (cpyStatic q.params x.packet.lscr) = some w →
          exec (.segmenterRead group) s = .next (s.killBlockAt (blockOfGroup group) 3
            (some (q.unit.group, q.pc, BitVec.ofNat 64 (0x12 + 256 * w)))))) ∧
      (∀ t, s.engLarders (blockOfGroup group) want = .ok t →
        (∀ w, firstBad (cpyChecks q.params x.packet.lscr x.packet.cscr t) = some w →
          exec (.segmenterRead group) s = .next (s.killBlockAt (blockOfGroup group) 3
            (some (q.unit.group, q.pc, BitVec.ofNat 64 (0x12 + 256 * w))))) ∧
        (firstBad (cpyChecks q.params x.packet.lscr x.packet.cscr t) = none →
          ∃ n, exec (.segmenterRead group) s = .next n ∧ n = { s with clusters := n.clusters } ∧
            { q with answer := some (shapeOf t (cpyDims q.params)) } ∈ (n.cluster x.cluster).segReqs))) ∧
    (∀ (cl : Nat) (g : Bool), (∀ o, s.oversized cl g = some o → exec (.stagingStart cl g) s = .next (s.killBlock o.block 1)) ∧
      (∀ (i : Nat) (q : QItem) id part o, (s.sluice (engineLeaf cl g)).items[i]? = some q → i ≤ (s.sluice (engineLeaf cl g)).d →
        s.opOf q.item = some (id, part, o) → o.stages = true → q.item.stage = .none →
        (s.cluster cl).regionUnits g < o.stageUnits → ∃ o', s.oversized cl g = some o')) ∧
    (∀ (cl : Nat) (g : Bool) (q : QItem) (o : EngOp), s.oversized cl g = none → s.nextStaged cl g = some (q, o) →
      (((s.cluster cl).copy.isSome = true ∨ (s.staging cl false).isSome = true ∨ (s.staging cl true).isSome = true ∨
          s.canStage cl g = false) → exec (.stagingStart cl g) s = .next s) ∧
      ((s.cluster cl).copy = none → s.staging cl false = none → s.staging cl true = none →
        s.canStage cl g = true → ∃ t us, exec (.stagingStart cl g) s = .next t ∧ us.length = o.stageUnits ∧
          (∀ u ∈ us, (s.cluster cl).staged.find u = none ∧ (t.cluster cl).staged.find u = some []) ∧
          (∀ u, u ∉ us → (t.cluster cl).staged.find u = (s.cluster cl).staged.find u) ∧
          { q with item := { q.item with stage := .begun us } } ∈ (t.sluice (engineLeaf cl g)).items ∧
          t.threads = s.threads ∧ t.blocks = s.blocks ∧ t.mem = s.mem)) ∧
    (∀ (cl : Nat) (g : Bool) (q : QItem) (id part : Nat) (o : EngOp) (us : List Nat), s.staging cl g = some q →
      s.opOf q.item = some (id, part, o) → q.item.stage = .begun us →
      let from_ := par64 o.params 3
      (us.Nodup → o.stageSize ≤ 131072 * us.length →
        ∀ data, s.engStage o.block (natRange from_ o.stageSize) = .ok data →
        ∃ t, exec (.stagingComplete cl g) s = .next t ∧ t.threads = s.threads ∧ t.blocks = s.blocks ∧
          t.mem = s.mem ∧
          { q with item := { q.item with stage := .complete us } } ∈ (t.sluice (engineLeaf cl g)).items ∧
          ∀ z, z < data.length → Memory.read ((t.cluster cl).staged.getD (us.getD (z / 131072) 0) [])
            (z % 131072) = data.getD z 0) ∧
      (∀ f, s.engStage o.block (natRange from_ o.stageSize) = .error f → ∃ (m : State), exec (.stagingComplete cl g) s =
          .next (m.engineFail o { q.item with stage := .none } q.rank f) ∧
        q ∉ (m.sluice (engineLeaf cl g)).items ∧ m = { s with tree := m.tree, clusters := m.clusters }) ∧
      ((∃ va pa a c, from_ ≤ va ∧ va < from_ + o.stageSize ∧
          s.translate (s.clusterOfBlock o.block) (s.tenantOfBlock o.block) va permR s.choice = .ok pa a c ∧
          inHostWindow pa = true) → s.engStage o.block (natRange from_ o.stageSize) = .error .operand))

/-- BAR0, AQI requests, the Hall transfer engine, the bridge, replicated launches and the runner cores. A read of
BAR0 answers 0. A write to a notify page that carries no PASID, or is not one aligned 64-byte write, is refused
with LCODE 1; one whose AQI is not enabled or holds no such PASID with LCODE 2 and its PASID; one that finds 64
requests queued completes with status 4; each counts. An accepted request joins its queue with the order of its
arrival; the request that arrived first among the heads that can start is taken while a runner core of them
works, and one with ORDER waits for the earlier ones of its AQI. A LAUNCH or COPY of a tenant under reset ends
without a record (assumption 71); a malformed request completes with status 2; LAUNCH hands its packet address
on, CANCEL cancels, COPY starts a copy of ⌈bytes ÷ 4,096⌉ parts, ROWREG registers a row range with its counters
0 (status 3 where the entry is valid or breaks its rules, 5 where its version words cannot be written), ROWDEREG
clears VALID, FQANSWER answers and FQCONS moves the consumed count, each completing with status 0. A completion
record is written, then announced by its AQI, and waits while no runner core writes records. The transfer engine
reads a part, writes it, and completes the COPY with its last part, with status 5 where one failed; a reading in
the host window asks the host for its bytes. The bridge issues what other devices ask, and nothing while its
link is held down. A replicated launch takes the next GEN of its tenant; it is checked by the peer table and its
GEN and held until GO; READY of the last device sends GO to the set, a refusal DROP, which takes the pending
launch away; each packet is acknowledged, does nothing before DEVNUM is locked, and waits while no runner core
takes it. A restarted runner core does what waits for it. Which reads the host answers and how PCI Express data
is ordered rest on assumptions 13 and 104; the numbers and the waiting of packets on 63, 83, 129 and 131; a
refusal with LCODE 1 on 85 and a valid entry's registration on 86. Cites: spec/33_fabric_host.md,
spec/27_scheduling_tree.md, spec/25_memory_model.md, spec/31_faults.md, spec/35_power_security.md. -/
def Obligations.HostRequests : Prop :=
  ∀ (s : State),
    (∀ (w : NotifyWrite) (k : Nat) (i : Instr), (k, i) ∈ [(0, Instr.aqiLaunch w), (1, .aqiCancel w), (2, .aqiCopy w),
        (3, .aqiRowreg w), (4, .aqiRowdereg w), (5, .aqiFqanswer w), (6, .aqiFqcons w)] →
      let q := s.aqi w.aqi
      let noted := fun (code : Nat) (pasid : BitVec 20) => ∃ t, exec i s = .next t ∧
        t.aqi w.aqi = { q with lcode := code, count := Nat.min 255 (q.count + 1), pasid := pasid } ∧
        (∀ b, b ≠ w.aqi → t.aqi b = s.aqi b) ∧ t = { s with io := { s.io with aqis := t.io.aqis } }
      ((s.sec.bridge = false ∨ (w.kind ≠ k ∧ w.kind ≤ 6)) → exec i s = .next s) ∧
      (s.sec.bridge = true → (w.kind = k ∨ 6 < w.kind) →
        (w.read = true → ∃ t, exec i s = .next t ∧ t = { s with desk := { s.desk with reads := t.desk.reads } } ∧
          t.desk.reads.find 3 = some 0 ∧ ∀ r, r ≠ 3 → t.desk.reads.find r = s.desk.reads.find r) ∧
        (w.read = false → 8 ≤ w.aqi → exec i s = .next s) ∧
        (w.read = false → w.aqi < 8 →
          ((w.pasid = none ∨ w.size ≠ 64 ∨ w.aligned = false ∨ w.bytes.length ≠ 64) → noted 1 q.pasid) ∧
          (∀ pasid, w.pasid = some pasid → w.size = 64 → w.aligned = true → w.bytes.length = 64 →
            ((q.en = false ∨ ∀ e ∈ q.pas, e.2 ≠ (true, pasid)) → noted 2 pasid) ∧
            (q.en = true → (∃ e ∈ q.pas, e.2 = (true, pasid)) →
              let p := w.bytes
              let r : AqiReq := ⟨s.nextId, w.kind, q.tenant, p⟩
              let done := fun (m : State) (st : Nat) =>
                m.completeAqi w.aqi q.tenant (fieldAt p 8 8) (BitVec.ofNat 32 (fieldAt p 0 4)) st 0
              let alone := ∀ a, a < 8 → (s.aqi a).queue = []
              let ready := fieldAt p 5 1 % 2 = 1 → q.busy = 0
              (64 ≤ q.queue.length → exec i s = .next
                (s.recordAqi w.aqi q.tenant (fieldAt p 8 8) (BitVec.ofNat 32 (fieldAt p 0 4)) 4 0)) ∧
              (q.queue.length < 64 → (s.runnerUp = false ∨ (alone ∧ ¬ready)) → ∃ t, exec i s = .next t ∧
                t.aqi w.aqi = { q with queue := q.queue ++ [r] } ∧ (∀ b, b ≠ w.aqi → t.aqi b = s.aqi b) ∧
                t = { s with io := { s.io with aqis := t.io.aqis }, nextId := s.nextId + 1 }) ∧
              (alone → s.runnerUp = true → ready →
                ∃ m, TakenUp s m w.aqi ∧
                ((w.kind = 0 ∨ w.kind = 2) → (s.tenant q.tenant).trBusy = true → ∃ t, exec i s = .next t ∧
                  (∀ a, t.aqi a = s.aqi a) ∧ t = { m with io := { m.io with aqis := t.io.aqis } }) ∧
                (reqOk w.kind p = false → ((w.kind = 0 ∨ w.kind = 2) → (s.tenant q.tenant).trBusy = false) →
                  exec i s = .next (done m 2)) ∧
                (reqOk w.kind p = true →
                  (w.kind = 0 → (s.tenant q.tenant).trBusy = false → exec i s = .next { m with tree := { m.tree with
                    reads := m.tree.reads ++ [⟨.aqi w.aqi (BitVec.ofNat 32 (fieldAt p 0 4)) (fieldAt p 8 8)
                      (fieldAt p 0x20 8), q.tenant, fieldAt p 0x18 8, BitVec.ofNat 32 (fieldAt p 16 4), none⟩] } }) ∧
                  (w.kind = 1 → exec i s = .next
                    (done (m.cancelBy q.tenant (fieldAt p 0x1C 1) (fieldAt p 0x18 4)) 0)) ∧
                  (w.kind = 2 → (s.tenant q.tenant).trBusy = false → (∀ x ∈ s.io.copies, x.id ≠ s.nextId + 1) →
                    ∃ t c, exec i s = .next t ∧ c ∈ t.io.copies ∧ c.id = s.nextId + 1 ∧ c.aqi = w.aqi ∧
                    c.tenant = q.tenant ∧ c.src = fieldAt p 0x18 8 ∧ c.dst = fieldAt p 0x20 8 ∧
                    c.bytes = fieldAt p 0x28 4 ∧ c.left = (fieldAt p 0x28 4 + 4095) / 4096 ∧ c.failed = false ∧
                    t.mem = s.mem ∧ t.threads = s.threads ∧
                    (s.topOf q.tenant = none → c.pushed = 0 ∧ t.tree = s.tree)) ∧
                  (w.kind = 3 → ∃ m2 st, m.registerRow q.tenant p = (m2, st) ∧ exec i s = .next (done m2 st) ∧
                    let e := (s.tenant q.tenant).rows.getD (fieldAt p 0x18 1) RowEntry.reset
                    let n : RowEntry := ⟨fieldAt p 0x20 8, fieldAt p 0x28 8, fieldAt p 0x30 8, true,
                      fieldAt p 0x19 1, 0, 0, 0, 0, 0, 0⟩
                    (st = 0 → e.valid = false ∧
                      (m2.tenant q.tenant).rows.getD (fieldAt p 0x18 1) RowEntry.reset = n) ∧
                    (e.valid = true → st = 3) ∧ (st = 0 ∨ st = 3 ∨ st = 5) ∧
                    (st ≠ 0 → m2.tenants = s.tenants)) ∧
                  (w.kind = 4 → ∃ c m2, Cleared m c ∧ m2 = { c with tenants := m2.tenants } ∧ exec i s = .next (done m2 0) ∧
                    (m2.tenant q.tenant).rows.getD (fieldAt p 0x18 1) RowEntry.reset =
                      { (s.tenant q.tenant).rows.getD (fieldAt p 0x18 1) RowEntry.reset with valid := false }) ∧
                  (w.kind = 5 → ∃ c, Cleared m c ∧ exec i s = .next
                    (done (c.answer q.tenant (fieldAt p 0x18 3) (fieldAt p 0x1B 1 / 64)) 0)) ∧
                  (w.kind = 6 → ∃ c, Cleared m c ∧ exec i s = .next
                    (done (c.writeCons q.tenant (fieldAt p 0x18 4)) 0)))))))) ) ∧
    (∀ a r, s.nextAqi = some (a, r) →
      (s.aqi a).queue.head? = some r ∧ (reqOrder r.bytes = true → (s.aqi a).busy = 0) ∧
      (∀ b x, b < 8 → (s.aqi b).queue.head? = some x → (reqOrder x.bytes = true → (s.aqi b).busy = 0) →
        r.arrived ≤ x.arrived) ∧
      (s.runnerUp = true → ∀ n, ∃ m : State, State.serveSome (n + 1) s = State.serveSome n (m.runRequest a r) ∧
        m = { s with io := { s.io with aqis := m.io.aqis } } ∧ (∀ b, b ≠ a → m.aqi b = s.aqi b) ∧
        m.aqi a = { s.aqi a with queue := (s.aqi a).queue.tail, busy := (s.aqi a).busy + 1 })) ∧
    (∀ a ten compl tag st info,
      (s.recorderUp = false → s.recordAqi a ten compl tag st info =
        { s with io := { s.io with jobs := s.io.jobs ++ [.record a ten compl tag st info none] } }) ∧
      (s.recorderUp = true → (compl = 0 → s.recordAqi a ten compl tag st info = s) ∧
        (compl ≠ 0 → ∀ m ok, s.writeVa ten compl (leBytes tag.toNat 4 ++ leBytes st 4 ++ leBytes info 8) 2 = (m, ok) →
          (ok = false → s.recordAqi a ten compl tag st info = m) ∧
          (ok = true → m.inflight = s.inflight → s.recordAqi a ten compl tag st info = m.raise a) ∧
          (ok = true → ∀ o more, m.inflight = s.inflight ++ o :: more → s.recordAqi a ten compl tag st info =
            { m with io := { m.io with
              jobs := m.io.jobs ++ [.record a ten compl tag st info (some ((o :: more).map (·.id)))] } })))) ∧
    (∀ r : Nat, (6 ≤ r → exec (.runnerRestart r) s = .next s) ∧
      (r < 6 → s.io.runners.length = 6 →
        ∃ k : State, exec (.runnerRestart r) s = .next k.runJobs.serveAqis ∧
          k = { s with io := { s.io with runners := k.io.runners } } ∧
          (∀ j, j < 6 → k.io.runners.getD j false = if j = r then true else s.io.runners.getD j false) ∧
          (s.io.jobs = [] → (∀ a, a < 8 → (s.aqi a).queue = []) → k.runJobs.serveAqis = k))) ∧
    (s.recorderUp = false → s.runJobs = s) ∧
    (∀ j, s.recorderUp = true → s.io.jobs = [j] → ∃ k : State, k = { s with io := { s.io with jobs := [] } } ∧
      (∀ a ten compl tag st info, j = .record a ten compl tag st info none →
        s.runJobs = k.recordAqi a ten compl tag st info) ∧
      (∀ a ten compl tag st info ids, j = .record a ten compl tag st info (some ids) →
        ((∃ o ∈ s.inflight, o.id ∈ ids) → s.runJobs = s) ∧ ((∀ o ∈ s.inflight, o.id ∉ ids) → s.runJobs = k.raise a)) ∧
      (∀ n, j = .interrupt n → s.runJobs = k.raise n) ∧ (∀ n e, j = .unmask n e → s.runJobs = k.sendMessage n e)) ∧
    (∀ n, (s.recorderUp = false ∨ ∃ j ∈ s.io.jobs, j.source = n) → s.raise n =
      { s with io := { s.io with jobs := s.io.jobs ++ [.interrupt n] } }) ∧
    ((s.io.hostRun.isSome = true ∨ s.canTake hostLeaf = false) → exec .hostTransferPop s = .next s) ∧
    (∀ q rest id part c, (s.sluice hostLeaf).items = q :: rest → s.io.hostRun = none → s.canTake hostLeaf = true →
      q.item.owner = .host id part → s.io.copies.find? (fun c => c.id == id) = some c →
      let n := Nat.min 4096 (c.bytes - 4096 * part)
      ∃ m, Popped s m hostLeaf q rest ∧
        (∀ d, m.readVa c.tenant (c.src + 4096 * part) n 2 = some d → ∃ h, h = m.readRequests c.tenant (c.src + 4096 * part) n 2 ∧
          exec .hostTransferPop s = .next { h with io := { h.io with hostRun := some ⟨id, part, d, none⟩ } }) ∧
        (m.readVa c.tenant (c.src + 4096 * part) n 2 = none →
          exec .hostTransferPop s = .next (m.hostPartDone id true))) ∧
    (∀ ten va n pa x y, 0 < n → va % 65536 + n ≤ 65536 → s.translate hallUnit ten va permR s.choice = .ok pa x y →
      (inHostWindow pa = false → s.readRequests ten va n 2 = s) ∧
      (inHostWindow pa = true → AskedHost s (s.readRequests ten va n 2) ten (.read (pa - hostBase) (s.tenant ten).hpasid n)
        (.read ten (pa - hostBase) n))) ∧
    (∀ id r, s.io.hostRun = some r → (r.copy ≠ id → exec (.hostTransferComplete id) s = .next s) ∧
      (r.copy = id → ∀ c, s.io.copies.find? (fun c => c.id == id) = some c →
        let free := fun (m : State) => ({ m with io := { m.io with hostRun := none } } : State)
        (r.sent = none → ∀ m ok, s.writeVa c.tenant (c.dst + 4096 * r.part) r.data 2 = (m, ok) →
          (m.inflight = s.inflight → exec (.hostTransferComplete id) s = .next ((free m).hostPartDone id (!ok))) ∧
          (∀ o more, m.inflight = s.inflight ++ o :: more → exec (.hostTransferComplete id) s = .next
            { m with io := { m.io with
              hostRun := some { r with data := [], sent := some (!ok, (o :: more).map (·.id)) } } })) ∧
        (∀ failed ids, r.sent = some (failed, ids) →
          ((∃ o ∈ s.inflight, o.id ∈ ids) → exec (.hostTransferComplete id) s = .next s) ∧
          ((∀ o ∈ s.inflight, o.id ∉ ids) →
            exec (.hostTransferComplete id) s = .next ((free s).hostPartDone id failed))))) ∧
    (∀ (id : Nat) (bad : Bool) (c : HostCopy), s.io.copies.find? (fun c => c.id == id) = some c →
      (2 ≤ c.left → { c with left := c.left - 1, failed := c.failed || bad } ∈ (s.hostPartDone id bad).io.copies) ∧
      (c.left ≤ 1 → ∃ m : State, m = { s with io := { s.io with copies := m.io.copies } } ∧
        (∀ x ∈ m.io.copies, x.id ≠ id) ∧ s.hostPartDone id bad =
          m.completeAqi c.aqi c.tenant c.compl c.tag (if c.failed = true ∨ bad = true then 5 else 0) 0)) ∧
    (∀ (src ten num : Nat) (gen : BitVec 32) (ok : Bool) (d : List (BitVec 8)) (b : BridgeRequest) (i : Instr),
      (i = .replicatedLaunchReceive ⟨src, num⟩ ten d ∨ i = .readyReceive ⟨src, num⟩ ten gen ok ∨ i = .goReceive ⟨src, num⟩ ten gen ∨
        i = .dropReceive ⟨src, num⟩ ten gen ∨ i = .bridgeRequestReceive ⟨⟨src, num⟩, b⟩) →
      let seen := num ∈ s.io.performed.getD src []
      (s.sec.devLock = false → exec i s = .next s) ∧
      (s.sec.devLock = true → seen → ∃ t, exec i s = .next t ∧ Posted s t [.ack src s.self num 0]) ∧
      (s.sec.devLock = true → ¬seen →
        (i = .bridgeRequestReceive ⟨⟨src, num⟩, b⟩ →
          (s.sec.bridge = false → exec i s = .next s) ∧
          (s.sec.bridge = true → ∃ m t, exec i s = .next t ∧ Served m t src num ∧
            (s.sec.locked = true → m = s) ∧
            (s.sec.locked = false →
              (∀ q a x, b = .write q a x → m = { s with io := { s.io with
                pcieOut := s.io.pcieOut ++ [.write a (s.tenant q).hpasid x] } }) ∧
              (∀ q a n, b = .read q a n → m = { s with io := { s.io with
                pcieOut := s.io.pcieOut ++ [.read a (s.tenant q).hpasid n] } }) ∧
              (∀ v p, b = .msix v p →
                ((s.msixWord v 3).getLsbD 0 = true →
                  m = { s with io := { s.io with msixPend := s.io.msixPend.set v p } }) ∧
                ((s.msixWord v 3).getLsbD 0 = false → m = { s with io := { s.io with msix := s.io.msix ++
                  [⟨v, p, s.msixWord v 1 ++ s.msixWord v 0, s.msixWord v 2⟩] } }))))) ∧
        (i ≠ .bridgeRequestReceive ⟨⟨src, num⟩, b⟩ → s.launcherUp = false → exec i s = .next s) ∧
        (i = .replicatedLaunchReceive ⟨src, num⟩ ten d → s.rootRoom = false → exec i s = .next s) ∧
        (i = .replicatedLaunchReceive ⟨src, num⟩ ten d → s.rootRoom = true → s.launcherUp = true →
          ((ten = 0 ∨ s.peerTenant ten src 30 = none) → ∃ m t, exec i s = .next t ∧
            Told s m src ten (.ready (BitVec.ofNat 32 (fieldAt d 4 4)) false) ∧ Posted m t [.ack src m.self num 1]) ∧
          (∀ l, 0 < ten → s.peerTenant ten src 30 = some l → ∃ ans m k t, exec i s = .next t ∧
            ReplicaTaken s m src ten l d 0 ans ∧ Served k t src num ∧ (ans = none → k = m) ∧
            (∀ yes, ans = some yes → Told m k src ten (.ready (BitVec.ofNat 32 (fieldAt d 4 4)) yes)))) ∧
        (i = .goReceive ⟨src, num⟩ ten gen → s.launcherUp = true →
          ∃ m t, exec i s = .next t ∧ GoTaken s m src ten gen ∧ Served m t src num) ∧
        (i = .dropReceive ⟨src, num⟩ ten gen → s.launcherUp = true →
          ∃ m t, exec i s = .next t ∧ PendingsGone s m src ten (some gen) ∧ Served m t src num) ∧
        (i = .readyReceive ⟨src, num⟩ ten gen ok → s.launcherUp = true →
          ∃ m t, exec i s = .next t ∧ m = s.takeReady src ten gen ok ∧ Served m t src num))) ∧
    (∀ (dev ten : Nat) (gen : BitVec 32) (ok : Bool),
      ((∀ r ∈ s.tree.replicas, r.tenant = ten → r.gen = gen → dev ∉ r.left) → s.takeReady dev ten gen ok = s) ∧
      (∀ r, s.tree.replicas.find? (fun r => r.tenant == ten && r.gen == gen && r.left.contains dev) = some r →
        (ok = true → (r.left.filter (fun d => decide (d ≠ dev))) ≠ [] → ∃ t, s.takeReady dev ten gen ok = t ∧
          t = { s with tree := { s.tree with replicas := t.tree.replicas } } ∧
          { r with left := r.left.filter (fun d => decide (d ≠ dev)) } ∈ t.tree.replicas) ∧
        ((ok = false ∨ (r.left.filter (fun d => decide (d ≠ dev))) = []) →
          ReplicaEnded s (s.takeReady dev ten gen ok) r ok))) ∧
    (∀ i a tag compl mask ten va bound d, s.tree.reads[i]? = some ⟨.aqi a tag compl mask, ten, va, bound, none⟩ → mask ≠ 0 →
      s.sec.devLock = true → s.runnerUp = true → s.rootRoom = true → (∀ x ∈ s.tree.replicas, x.tenant ≠ ten) →
      let m : State := { s with tree := { s.tree with reads := removeAt s.tree.reads i } }
      m.readVa ten va 128 2 = some d →
      let gen := (s.tenant ten).genOut + 1
      let packet := d.take 4 ++ leBytes gen.toNat 4 ++ d.drop 8
      let set := (natRange 0 64).filter (fun x => mask.testBit x || x == s.self)
      let away := set.filter (fun x => decide (x ≠ s.self))
      ∃ (f : Nat → State) (k z t : State) (ans : Option Bool) (l : Nat), exec (.launchPacketRead (.pending i)) s = .next t ∧
        (f 0).tenants = ((m.readRequests ten va 128 2).modTenant ten (fun x => { x with genOut := gen })).tenants ∧
        f 0 = { m.readRequests ten va 128 2 with tenants := (f 0).tenants } ∧
        (∀ j, j < away.length → Told (f j) (f (j + 1)) (away.getD j 0) ten (.launch packet)) ∧
        ReplicaTaken (f away.length) k s.self ten ten packet bound ans ∧
        (∀ x, k.tree.pendings.find? (fun p => p.issuer == s.self && p.tenant == ten && p.gen == gen) = some x →
          l = x.launch) ∧
        let rep : Replica := ⟨ten, gen, set, set, .aqi a tag compl mask, l⟩
        z = { k with tree := { k.tree with replicas := k.tree.replicas ++ [rep] } } ∧
        ((∃ x ∈ away, s.routePort x = none) → ReplicaEnded z t rep false) ∧
        ((∀ x ∈ away, s.routePort x ≠ none) → (ans = none → t = z) ∧
          ∀ yes, ans = some yes → t = z.takeReady s.self ten gen yes))

/-- Flits received and replayed, packets sent, acknowledged and resent, and requests of other devices. A port whose
link is down takes no flit. A flit with a bad CRC is counted and answered by an idle flit with NAK; the expected
flit is delivered, completes its packet with its last flit, and is acknowledged; one up to 255 ahead is buffered
with a NAK, and another is discarded; an acknowledgement frees the window up to the flit that it names; a NAK
sends the flit after the one that it names again, as a tombstone when its copy is uncorrectable; a flit may go
out as a tombstone at its first sending too, and none goes out beyond a window of 256; a tombstone is taken in
its flit's place and discards its packet up to the last flit, and asks the source that its header names for a
retry once a header was received. Before DEVNUM is locked no packet is taken from a leaf or a port and none is
acted on. A FAB item takes the next number of its destination and is held, or waits behind 4,096 held, or ends
with status 2 when the device is absent; it asks the host for the bytes that lie in the host window. An
acknowledgement ends a held packet with its status, a GET ends with its data, and a retry or a time-out sends it
again until RETRY is reached; a launch packet of the Hall that ends with a status refuses for its device; a
released packet lets a waiting one go on, and an interrupt source's next message. A message for another device
goes on to it; a request for another device is forwarded or answered with status 2; one that the peer table does
not allow with status 1; a PUT, a GET and a launch packet act for the local tenant, with status 3 where an
address does not translate and 4 where the packet is refused; a number already performed is only acknowledged
again. How flits are ordered in a CRC, what a header holds and where it names its source rest on assumptions 19
and 128; errors of the window on 22; which messages are forwarded and numbered on 63 and 64; a GET's repeated
data and status 3 on 65 and 66; what waits on 129 and 131. Cites: spec/33_fabric_host.md,
spec/21_engine_instructions.md. -/
def Obligations.FabricEvents : Prop :=
  ∀ (s : State),
    (∀ (n : Nat) (f : Flit),
      let p := s.port n
      let i : Instr := if f.kind = 1 then .tombstoneReceive n f else .flitReceive n f
      let idle := fun (g : Flit) (nak : Bool) (ack : BitVec 12) =>
        flitGood g = true ∧ g.kind = 2 ∧ g.seq = p.nextSeq ∧ g.nak = nak ∧ g.ackseq = ack
      let stay := ∀ w ∈ p.window, w.seq ≠ f.ackseq
      (f.kind = 1 → exec (.flitReceive n f) s = .next s) ∧ (f.kind ≠ 1 → exec (.tombstoneReceive n f) s = .next s) ∧
      ((18 ≤ n ∨ p.up = false) → exec i s = .next s) ∧
      (n < 18 → p.up = true →
        (flitGood f = false → ∃ t g, exec i s = .next t ∧ idle g true (p.expSeq - 1) ∧
          PortOnly s t n { p with crcerr := Nat.min 65535 (p.crcerr + 1), wire := p.wire ++ [g] }) ∧
        (flitGood f = true → f.nak = false → stay →
          (f.kind.toNat < 2 → s.sec.devLock = false → ∃ t, exec i s = .next t ∧ PortOnly s t n p) ∧
          (f.kind = 0 → s.sec.devLock = true → f.seq = p.expSeq → p.buffer = [] → f.vc.toNat ∉ p.skip → ∃ t g, exec i s = .next t ∧
            idle g false f.seq ∧ PortOnly s t n { p with
              expSeq := p.expSeq + 1
              wire := p.wire ++ [g]
              asm := if f.last then p.asm.erase f.vc.toNat
                else p.asm.set f.vc.toNat (p.asm.getD f.vc.toNat [] ++ [f.payload])
              packets := if f.last then p.packets ++ [p.asm.getD f.vc.toNat [] ++ [f.payload]] else p.packets }) ∧
          (f.kind.toNat < 2 → s.sec.devLock = true → 0 < (f.seq - p.expSeq).toNat → (f.seq - p.expSeq).toNat ≤ 255 →
            (∀ g ∈ p.buffer, g.seq ≠ f.seq) → ∃ t g, exec i s = .next t ∧ idle g true (p.expSeq - 1) ∧
              PortOnly s t n { p with buffer := p.buffer ++ [f], wire := p.wire ++ [g] }) ∧
          (f.kind.toNat < 2 → 255 < (f.seq - p.expSeq).toNat → ∃ t, exec i s = .next t ∧ PortOnly s t n p) ∧
          (f.kind = 1 → s.sec.devLock = true → f.seq = p.expSeq → p.buffer = [] → p.skip = [] → ∃ t : State, exec i s = .next t ∧
            (t.port n).expSeq = p.expSeq + 1 ∧ (t.port n).asm = p.asm.erase f.vc.toNat ∧
            (t.port n).skip = (if f.last then [] else [f.vc.toNat]) ∧ (t.port n).packets = p.packets ∧
            t = { s with io := t.io, freeCtr := t.freeCtr } ∧
            (p.asm.getD f.vc.toNat [] = [] → t.io.out = s.io.out) ∧
            (∀ h more, p.asm.getD f.vc.toNat [] = h :: more → t.io.out = s.io.out ++
              [.retry (Config.headerSource h) (Config.headerDest h) (Config.headerNum h)]))) ∧
        (flitGood f = true → f.nak = false → f.kind = 2 → f.seq = p.expSeq → p.queue = [] →
          ∀ k, p.window.findIdx? (fun w => w.seq == f.ackseq) = some k → ∃ t, exec i s = .next t ∧
            PortOnly s t n { p with window := p.window.drop (k + 1) }) ∧
        (flitGood f = true → f.nak = true → f.kind = 2 → f.seq = p.expSeq → stay →
          ∀ w rest, p.window = w :: rest → w.seq = f.ackseq + 1 → ∃ t : State, exec i s = .next t ∧
            (t.port n).replay = Nat.min 65535 (p.replay + 1) ∧ (t.port n).wire.length = p.wire.length + 1 ∧
            (t.port n).expSeq = p.expSeq ∧ (t.port n).window.map (·.seq) = p.window.map (·.seq)))) ∧
    (∀ (n : Nat) (a : BitVec 12) (u : Bool),
      let p := s.port n
      ((18 ≤ n ∨ p.up = false) → exec (.flitNak n a u) s = .next s) ∧
      (n < 18 → p.up = true → (∀ w ∈ p.window, w.seq ≠ a) → ∀ w rest, p.window = w :: rest → w.seq = a + 1 →
        ∃ t g, exec (.flitNak n a u) s = .next t ∧
          (u = false → g = w.flit) ∧
          (u = true → g.seq = w.flit.seq ∧ g.kind = 1 ∧ g.payload = List.replicate 56 0 ∧ flitGood g = true) ∧
          PortOnly s t n { p with
            window := ⟨w.seq, g⟩ :: rest
            wire := p.wire ++ [g]
            replay := Nat.min 65535 (p.replay + 1)
            tomb := if u = true ∨ w.flit.kind = 1 then Nat.min 65535 (p.tomb + 1) else p.tomb })) ∧
    (∀ n, (18 ≤ n → exec (.linkTraining n) s = .next s) ∧
      (n < 18 → ∃ t : State, exec (.linkTraining n) s = .next t ∧ (t.port n).up = true ∧
        ((s.port n).queue = [] → PortOnly s t n { s.port n with up := true }) ∧
        (∀ f, (s.port n).queue = [f] → (s.port n).window.length < 256 → ∃ (g : Flit) (buried : Bool), flitGood g = true ∧
          g.seq = (s.port n).nextSeq ∧ g.vc = f.vc ∧ g.last = f.last ∧ g.nak = false ∧ g.ackseq = (s.port n).expSeq - 1 ∧
          (buried = false → g.kind = f.kind ∧ g.payload = f.payload) ∧
          (buried = true → g.kind = 1 ∧ g.payload = List.replicate 56 0) ∧
          PortOnly s t n { s.port n with
            up := true
            queue := []
            nextSeq := (s.port n).nextSeq + 1
            window := (s.port n).window ++ [⟨(s.port n).nextSeq, g⟩]
            wire := (s.port n).wire ++ [g]
            tomb := if buried then Nat.min 65535 ((s.port n).tomb + 1) else (s.port n).tomb }) ∧
        (∀ f rest, (s.port n).queue = f :: rest → 256 ≤ (s.port n).window.length →
          PortOnly s t n { s.port n with up := true }))) ∧
    (∀ n q rest id part o, n < 18 → (s.sluice (portLeaf n)).items = q :: rest →
      ((s.canTake (portLeaf n) = false ∨ s.sec.devLock = false) → exec (.fabricPortPop n) s = .next s) ∧
      (s.canTake (portLeaf n) = true → s.sec.devLock = true → s.opOf q.item = some (id, part, o) →
        ∃ m, Popped s m (portLeaf n) q rest ∧
          (s.routePort o.device = none → exec (.fabricPortPop n) s = .next (m.absentPart id part)) ∧
          (∀ f, (s.routePort o.device).isSome = true → m.packetBody o part = .error f →
            exec (.fabricPortPop n) s = .next (m.engineFail o q.item q.rank f)) ∧
          (∀ body, (s.routePort o.device).isSome = true → m.packetBody o part = .ok body →
            ∃ e, e = m.engRequests o.block (o.partReads part) ∧
            let num := e.io.pktNum.getD o.device 0
            let pk : FabPacket := ⟨o.device, s.self, s.tenantOfBlock o.block, num, body⟩
            let held := (e.io.held.filter (fun x => decide (x.packet.dest = o.device))).length
            (held < 4096 →
              ∃ k t, Posted k t [.request pk] ∧ exec (.fabricPortPop n) s = .next t ∧
                k = { e with io := { e.io with pktNum := k.io.pktNum, held := k.io.held } } ∧
                k.io.held = e.io.held ++ [⟨pk, some (q.item, q.rank), 0, .none⟩] ∧
                k.io.pktNum.getD o.device 0 = (num + 1) % 65536 ∧
                ∀ d, d ≠ o.device → k.io.pktNum.getD d 0 = e.io.pktNum.getD d 0) ∧
            (4096 ≤ held → exec (.fabricPortPop n) s = .next { e with io := { e.io with
              waitPkts := e.io.waitPkts ++ [⟨{ pk with num := 0 }, some (q.item, q.rank), 0, .none⟩] } })))) ∧
    (∀ o part n, n = o.partBytes part →
      (parOp o.params = 0 → (∀ d, s.packetBody o part = .ok d → ∃ x, d = .put (par64 o.params 3 + 4096 * part) x ∧
        s.engReads o.block (natRange (par64 o.params 1 + 4096 * part) n) = .ok x)) ∧
      (parOp o.params = 1 → s.packetBody o part = .ok (.get (par64 o.params 1 + 4096 * part) n)) ∧
      (2 ≤ parOp o.params → (∀ d, s.packetBody o part = .ok d → ∃ x, d = .lsend x ∧
        s.engReads o.block (natRange (par64 o.params 1) n) = .ok x))) ∧
    (∀ b va,
      ((∀ pa x y, windowOf (BitVec.ofNat 64 va) = .global →
          s.translate (s.clusterOfBlock b) (s.tenantOfBlock b) va permR s.choice = .ok pa x y → inHostWindow pa = false) →
        ∀ more, s.engRequests b (va :: more) = s.engRequests b more) ∧
      (∀ pa x y, windowOf (BitVec.ofNat 64 va) = .global →
        s.translate (s.clusterOfBlock b) (s.tenantOfBlock b) va permR s.choice = .ok pa x y → inHostWindow pa = true →
        ∃ m, (∀ more, s.engRequests b (va :: more) = m.engRequests b more) ∧
          AskedHost s m (s.tenantOfBlock b) (.read (pa - hostBase) (s.tenant (s.tenantOfBlock b)).hpasid 1)
            (.read (s.tenantOfBlock b) (pa - hostBase) 1))) ∧
    (∀ h : HeldPkt, ∃ k : State, k = { s with io := { s.io with held := s.io.held.filter (fun x => decide (x ≠ h)) } } ∧
      ((∀ x ∈ s.io.waitPkts, k.canIssue x.packet.dest = false) →
        ((∀ src, h.tag ≠ .msg src) → s.releasePacket h = k) ∧
        (∀ src, h.tag = .msg src → (s.io.msgs.find? (fun m => m.1 == src) = none → s.releasePacket h = k) ∧
          ∀ v p, s.io.msgs.find? (fun m => m.1 == src) = some (src, v, p) →
            let z : State := { k with io := { k.io with msgs := s.io.msgs.erase (src, v, p) } }
            (k.tagPending (.msg src) = true →
              s.releasePacket h = { z with io := { z.io with msgs := z.io.msgs ++ [(src, v, p)] } }) ∧
            (k.tagPending (.msg src) = false →
              Told z (s.releasePacket h) s.io.bridgeDev 0 (.bridge (.msix v p)) (.msg src)))) ∧
      (∀ x, s.io.waitPkts = [x] → (∀ src, h.tag ≠ .msg src) → k.canIssue x.packet.dest = true →
        let p : FabPacket := { x.packet with src := s.self, num := s.io.pktNum.getD x.packet.dest 0 }
        ∃ z : State, z = { k with io := { k.io with
            waitPkts := [], held := k.io.held ++ [{ x with packet := p }], pktNum := z.io.pktNum } } ∧
          z.io.pktNum.getD p.dest 0 = (p.num + 1) % 65536 ∧ Posted z (s.releasePacket h) [.request p])) ∧
    (∀ dest dev num st (d : List (BitVec 8)) i m,
      (i, m) ∈ [(Instr.e2eAckReceive ⟨dest, dev⟩ num st, FabMsg.ack dest dev num st),
        (.getResponseReceive ⟨dest, dev⟩ num d, .getData dest dev num d),
        (.e2eRetryRequest ⟨dest, dev⟩ num, .retry dest dev num)] →
      (s.sec.devLock = false → exec i s = .next s) ∧
      (s.sec.devLock = true → dest ≠ s.self → ∃ t, exec i s = .next t ∧ Posted s t [m]) ∧
      (s.sec.devLock = true → dest = s.self → s.heldPacket dev num = none → exec i s = .next s)) ∧
    (∀ dev num, s.heldPacket dev num = none → exec (.e2eTimeout dev num) s = .next s) ∧
    (∀ dest dev num h, s.sec.devLock = true → dest = s.self → s.heldPacket dev num = some h →
      let ended := fun (r t : State) (st : Nat) =>
        (h.work = none → st = 0 → t = r) ∧
        (h.work = none → st ≠ 0 → (∀ x, h.packet.body = .launch x →
            t = r.takeReady h.packet.dest h.packet.tenant (BitVec.ofNat 32 (fieldAt x 4 4)) false) ∧
          ((∀ x, h.packet.body ≠ .launch x) → t = r)) ∧
        (∀ it rank, h.work = some (it, rank) → (r.opOf it = none → t = r) ∧
          (∀ id part o, r.opOf it = some (id, part, o) → t = { r with ops := t.ops } ∧
            ∀ x, r.ops.find id = some x → t.ops.find id = some { x with
              status := if x.status = 0 then st else x.status
              donePts := if x.donePts.contains part then x.donePts else x.donePts ++ [part] }))
      (∀ st : Nat, (∃ va n, h.packet.body = .get va n) → st = 0 → exec (.e2eAckReceive ⟨dest, dev⟩ num st) s = .next s) ∧
      (∀ st : Nat, ((∀ va n, h.packet.body ≠ .get va n) ∨ st ≠ 0) →
        ∃ t, exec (.e2eAckReceive ⟨dest, dev⟩ num st) s = .next t ∧ ended (s.releasePacket h) t st) ∧
      (∀ (d : List (BitVec 8)),
        (((∀ va n, h.packet.body ≠ .get va n) ∨ h.work = none) → exec (.getResponseReceive ⟨dest, dev⟩ num d) s = .next s) ∧
        (∀ va n it rank, h.packet.body = .get va n → h.work = some (it, rank) →
          (d.length ≠ n → exec (.getResponseReceive ⟨dest, dev⟩ num d) s = .next s) ∧
          (d.length = n → s.opOf it = none → exec (.getResponseReceive ⟨dest, dev⟩ num d) s = .next (s.releasePacket h)) ∧
          (d.length = n → ∀ id part o, s.opOf it = some (id, part, o) →
            (∀ m, s.engWrites o.block ((natRange (par64 o.params 3 + 4096 * part) n).zip d) = (m, none) →
              ∃ t, exec (.getResponseReceive ⟨dest, dev⟩ num d) s = .next t ∧ ended (m.releasePacket h) t 0) ∧
            (∀ m f, s.engWrites o.block ((natRange (par64 o.params 3 + 4096 * part) n).zip d) = (m, some f) →
              exec (.getResponseReceive ⟨dest, dev⟩ num d) s = .next ((m.releasePacket h).engineFail o it rank f))))) ∧
      (∀ i : Instr, i = .e2eRetryRequest ⟨dest, dev⟩ num ∨ i = .e2eTimeout dev num →
        ((s.io.retry ≤ h.resends ∨ s.routePort dev = none) → ∃ t, exec i s = .next t ∧ ended (s.releasePacket h) t 2) ∧
        (h.resends < s.io.retry → (s.routePort dev).isSome = true → ∃ k t, exec i s = .next t ∧
          Posted k t [.request h.packet] ∧ k = { s with io := { s.io with held := k.io.held } } ∧
          { h with resends := h.resends + 1 } ∈ k.io.held ∧ k.io.held.length = s.io.held.length))) ∧
    (∀ p : FabPacket,
      let i : Instr := .fabricPacketReceive p
      let ack := fun (m : State) (st : Nat) => ∃ t, exec i s = .next t ∧ Posted m t [.ack p.src p.dest p.num st]
      let old := p.num ∈ s.io.performed.getD p.src []
      let allowed := fun (bit : Nat) => s.peerTenant p.tenant p.src bit
      let kept := fun (m k : State) => k = { m with io := { m.io with performed := k.io.performed } } ∧
        p.num ∈ k.io.performed.getD p.src []
      (s.sec.devLock = false → exec i s = .next s) ∧
      (s.sec.devLock = true → p.dest ≠ s.self → (s.routePort p.dest = none → ack s 2) ∧
        ((s.routePort p.dest).isSome = true → ∃ t, exec i s = .next t ∧ Posted s t [.request p])) ∧
      (s.sec.devLock = true → p.dest = s.self →
        (∀ d, p.body = .launch d → exec i s = exec (.replicatedLaunchReceive ⟨p.src, p.num⟩ p.tenant d) s) ∧
        (∀ g ok, p.body = .ready g ok → exec i s = exec (.readyReceive ⟨p.src, p.num⟩ p.tenant g ok) s) ∧
        (∀ g, p.body = .go g → exec i s = exec (.goReceive ⟨p.src, p.num⟩ p.tenant g) s) ∧
        (∀ g, p.body = .drop g → exec i s = exec (.dropReceive ⟨p.src, p.num⟩ p.tenant g) s) ∧
        (∀ r, p.body = .bridge r → exec i s = exec (.bridgeRequestReceive ⟨⟨p.src, p.num⟩, r⟩) s) ∧
        (∀ va d, p.body = .put va d → (old → ack s 0) ∧ (¬old → (allowed 28 = none → ack s 1) ∧
          ∀ l, allowed 28 = some l → ∀ m ok, s.writeVa l va d 2 = (m, ok) → (ok = false → ack m 3) ∧
            (ok = true → ∃ k, ack k 0 ∧ kept m k))) ∧
        (∀ va n, p.body = .get va n → (allowed 29 = none → ack s (if old then 0 else 1)) ∧
          ∀ l, allowed 29 = some l → (s.readVa l va n 2 = none → ack s 3) ∧
            (∀ d, s.readVa l va n 2 = some d → ∃ m t : State, exec i s = .next t ∧
              Posted (s.readRequests l va n 2) m [.getData p.src p.dest p.num d] ∧
              (old → t = m) ∧ (¬old → kept m t))) ∧
        (∀ d, p.body = .lsend d → (old → ack s 0) ∧
          (¬old → ((s.launcherUp = false ∨ s.rootRoom = false) → exec i s = .next s) ∧
            (s.launcherUp = true → s.rootRoom = true → (allowed 30 = none → ack s 1) ∧
              ∀ l, allowed 30 = some l → (∀ st, checkPacket d = .error st → ack s 4) ∧
                (∀ pk, checkPacket d = .ok pk → (s.cancelledAbove 4 pk.parent = true ∨ (s.tenant l).trBusy = true) →
                  ack s 4) ∧
                (∀ pk, checkPacket d = .ok pk → s.cancelledAbove 4 pk.parent = false → (s.tenant l).trBusy = false →
                  ∃ k e, ack k 0 ∧ k.tree.entries.find s.tree.nextEntry = some e ∧ e.packet = some pk ∧
                    e.tenant = l ∧ e.live = true ∧ k.tree.nextEntry = s.tree.nextEntry + 1 ∧
                    p.num ∈ k.io.performed.getD p.src [] ∧
                    ∃ q ∈ (k.sluice 0).items, q.item.owner = .launch s.tree.nextEntry))))))
end

