-- ==== Sys2Proof/Laws/Encoding.lean ====
section
/-! SUPPORT. The fields that the decoder reads from a word that the encoder wrote, format by format (R83, R87,
R94). -/

namespace Sys2Proof

/-- A field of a concatenation that lies in its low part. -/
theorem extract_low {m n : Nat} (a : BitVec m) (b : BitVec n) (i w : Nat) (h : i + w ≤ n) :
    (a ++ b).extractLsb' i w = b.extractLsb' i w := by
  apply BitVec.eq_of_getLsbD_eq
  intro j hj
  simp only [BitVec.getLsbD_extractLsb', BitVec.getLsbD_append, hj, decide_true, Bool.true_and]
  rw [if_pos (by omega)]

/-- A field of a concatenation that lies in its high part. -/
theorem extract_high {m n : Nat} (a : BitVec m) (b : BitVec n) (i w : Nat) (h : n ≤ i) :
    (a ++ b).extractLsb' i w = a.extractLsb' (i - n) w := by
  apply BitVec.eq_of_getLsbD_eq
  intro j hj
  simp only [BitVec.getLsbD_extractLsb', BitVec.getLsbD_append, hj, decide_true, Bool.true_and]
  rw [if_neg (by omega)]
  congr 1
  omega

/-- The field that is a whole vector. -/
theorem extract_all {n : Nat} (a : BitVec n) : a.extractLsb' 0 n = a := by
  apply BitVec.eq_of_getLsbD_eq
  intro j hj
  simp [hj]

theorem decodeFields_laneWord (tc : BitVec 2) (maj : BitVec 6) (b : BitVec 23) :
    decodeFields (laneWord tc maj b) = decodeLane tc maj.toNat b := by
  have h31 : (laneWord tc maj b).getLsbD 31 = false := by
    unfold laneWord
    rw [BitVec.getLsbD_append, if_neg (by decide), BitVec.getLsbD_append, if_neg (by decide),
      BitVec.getLsbD_append, if_neg (by decide)]
    rfl
  have htc : (laneWord tc maj b).extractLsb' 29 2 = tc := by
    rw [laneWord, extract_high _ _ _ _ (by decide), extract_high _ _ _ _ (by decide),
      extract_low _ _ _ _ (by decide), extract_all]
  have hmaj : (laneWord tc maj b).extractLsb' 23 6 = maj := by
    rw [laneWord, extract_high _ _ _ _ (by decide), extract_low _ _ _ _ (by decide), extract_all]
  have hb : (laneWord tc maj b).extractLsb' 0 23 = b := by
    rw [laneWord, extract_low _ _ _ _ (by decide), extract_all]
  unfold decodeFields
  rw [h31, htc, hmaj, hb]
  rfl

theorem decodeFields_uniformWord (tc : BitVec 2) (maj : BitVec 5) (b : BitVec 24) :
    decodeFields (uniformWord tc maj b) = decodeUniform tc maj.toNat b := by
  have h31 : (uniformWord tc maj b).getLsbD 31 = true := by
    unfold uniformWord
    rw [BitVec.getLsbD_append, if_neg (by decide), BitVec.getLsbD_append, if_neg (by decide),
      BitVec.getLsbD_append, if_neg (by decide)]
    rfl
  have htc : (uniformWord tc maj b).extractLsb' 29 2 = tc := by
    rw [uniformWord, extract_high _ _ _ _ (by decide), extract_high _ _ _ _ (by decide),
      extract_low _ _ _ _ (by decide), extract_all]
  have hmaj : (uniformWord tc maj b).extractLsb' 24 5 = maj := by
    rw [uniformWord, extract_high _ _ _ _ (by decide), extract_low _ _ _ _ (by decide), extract_all]
  have hb : (uniformWord tc maj b).extractLsb' 0 24 = b := by
    rw [uniformWord, extract_low _ _ _ _ (by decide), extract_all]
  unfold decodeFields
  rw [h31, htc, hmaj, hb]
  rfl

/-- Two adjacent fields of a concatenation, one lying across its seam, are read part by part; here a field that
covers its high part exactly. -/
theorem extract_top {m n : Nat} (a : BitVec m) (b : BitVec n) : (a ++ b).extractLsb' n m = a := by
  rw [extract_high _ _ _ _ (Nat.le_refl n), Nat.sub_self, extract_all]

/-- The field that is the low part exactly. -/
theorem extract_bottom {m n : Nat} (a : BitVec m) (b : BitVec n) : (a ++ b).extractLsb' 0 n = b := by
  rw [extract_low _ _ _ _ (by omega), extract_all]

/-- Format LR (R87). -/
theorem decode_lrWord (tc : BitVec 2) (maj : BitVec 6) (vd va vb : BitVec 7) (fn : BitVec 2) :
    decodeFields (lrWord tc maj vd va vb fn) = decodeLane tc maj.toNat (vd ++ va ++ vb ++ fn) :=
  decodeFields_laneWord _ _ _

end Sys2Proof
end

