-- ==== Sys2Proof/Laws/Fields.lean ====
section
/-! SUPPORT. Each field of each format, read back from the concatenation that the encoder writes (R87, R94). -/

namespace Sys2Proof

@[simp] theorem lr_field_16 (vd : BitVec 7) (va : BitVec 7) (vb : BitVec 7) (fn : BitVec 2) :
    (vd ++ va ++ vb ++ fn : BitVec 23).extractLsb' 16 7 = vd := by
  repeat rw [extract_high _ _ _ _ (by decide)]
  rw [extract_all]

@[simp] theorem lr_field_9 (vd : BitVec 7) (va : BitVec 7) (vb : BitVec 7) (fn : BitVec 2) :
    (vd ++ va ++ vb ++ fn : BitVec 23).extractLsb' 9 7 = va := by
  repeat rw [extract_high _ _ _ _ (by decide)]
  rw [extract_bottom]

@[simp] theorem lr_field_2 (vd : BitVec 7) (va : BitVec 7) (vb : BitVec 7) (fn : BitVec 2) :
    (vd ++ va ++ vb ++ fn : BitVec 23).extractLsb' 2 7 = vb := by
  rw [extract_high _ _ _ _ (by decide), extract_bottom]

@[simp] theorem lr_field_0 (vd : BitVec 7) (va : BitVec 7) (vb : BitVec 7) (fn : BitVec 2) :
    (vd ++ va ++ vb ++ fn : BitVec 23).extractLsb' 0 2 = fn := by
  rw [extract_bottom]

@[simp] theorem mod_field_16 (vc : BitVec 7) (tea : BitVec 1) (teb : BitVec 1) (tec : BitVec 1) (us : BitVec 1) (sidx : BitVec 8) (xmod : BitVec 4) :
    (vc ++ tea ++ teb ++ tec ++ us ++ sidx ++ xmod : BitVec 23).extractLsb' 16 7 = vc := by
  repeat rw [extract_high _ _ _ _ (by decide)]
  rw [extract_all]

@[simp] theorem mod_field_15 (vc : BitVec 7) (tea : BitVec 1) (teb : BitVec 1) (tec : BitVec 1) (us : BitVec 1) (sidx : BitVec 8) (xmod : BitVec 4) :
    (vc ++ tea ++ teb ++ tec ++ us ++ sidx ++ xmod : BitVec 23).extractLsb' 15 1 = tea := by
  repeat rw [extract_high _ _ _ _ (by decide)]
  rw [extract_bottom]

@[simp] theorem mod_field_14 (vc : BitVec 7) (tea : BitVec 1) (teb : BitVec 1) (tec : BitVec 1) (us : BitVec 1) (sidx : BitVec 8) (xmod : BitVec 4) :
    (vc ++ tea ++ teb ++ tec ++ us ++ sidx ++ xmod : BitVec 23).extractLsb' 14 1 = teb := by
  repeat rw [extract_high _ _ _ _ (by decide)]
  rw [extract_bottom]

@[simp] theorem mod_field_13 (vc : BitVec 7) (tea : BitVec 1) (teb : BitVec 1) (tec : BitVec 1) (us : BitVec 1) (sidx : BitVec 8) (xmod : BitVec 4) :
    (vc ++ tea ++ teb ++ tec ++ us ++ sidx ++ xmod : BitVec 23).extractLsb' 13 1 = tec := by
  repeat rw [extract_high _ _ _ _ (by decide)]
  rw [extract_bottom]

@[simp] theorem mod_field_12 (vc : BitVec 7) (tea : BitVec 1) (teb : BitVec 1) (tec : BitVec 1) (us : BitVec 1) (sidx : BitVec 8) (xmod : BitVec 4) :
    (vc ++ tea ++ teb ++ tec ++ us ++ sidx ++ xmod : BitVec 23).extractLsb' 12 1 = us := by
  repeat rw [extract_high _ _ _ _ (by decide)]
  rw [extract_bottom]

@[simp] theorem mod_field_4 (vc : BitVec 7) (tea : BitVec 1) (teb : BitVec 1) (tec : BitVec 1) (us : BitVec 1) (sidx : BitVec 8) (xmod : BitVec 4) :
    (vc ++ tea ++ teb ++ tec ++ us ++ sidx ++ xmod : BitVec 23).extractLsb' 4 8 = sidx := by
  rw [extract_high _ _ _ _ (by decide), extract_bottom]

@[simp] theorem mod_field_0 (vc : BitVec 7) (tea : BitVec 1) (teb : BitVec 1) (tec : BitVec 1) (us : BitVec 1) (sidx : BitVec 8) (xmod : BitVec 4) :
    (vc ++ tea ++ teb ++ tec ++ us ++ sidx ++ xmod : BitVec 23).extractLsb' 0 4 = xmod := by
  rw [extract_bottom]

@[simp] theorem imm_field_16 (vd : BitVec 7) (va : BitVec 7) (imm : BitVec 9) :
    (vd ++ va ++ imm : BitVec 23).extractLsb' 16 7 = vd := by
  repeat rw [extract_high _ _ _ _ (by decide)]
  rw [extract_all]

@[simp] theorem imm_field_9 (vd : BitVec 7) (va : BitVec 7) (imm : BitVec 9) :
    (vd ++ va ++ imm : BitVec 23).extractLsb' 9 7 = va := by
  rw [extract_high _ _ _ _ (by decide), extract_bottom]

@[simp] theorem imm_field_0 (vd : BitVec 7) (va : BitVec 7) (imm : BitVec 9) :
    (vd ++ va ++ imm : BitVec 23).extractLsb' 0 9 = imm := by
  rw [extract_bottom]

@[simp] theorem shift_field_16 (vd : BitVec 7) (va : BitVec 7) (kind : BitVec 2) (n : BitVec 5) :
    (vd ++ va ++ 0#2 ++ kind ++ n : BitVec 23).extractLsb' 16 7 = vd := by
  repeat rw [extract_high _ _ _ _ (by decide)]
  rw [extract_all]

@[simp] theorem shift_field_9 (vd : BitVec 7) (va : BitVec 7) (kind : BitVec 2) (n : BitVec 5) :
    (vd ++ va ++ 0#2 ++ kind ++ n : BitVec 23).extractLsb' 9 7 = va := by
  repeat rw [extract_high _ _ _ _ (by decide)]
  rw [extract_bottom]

@[simp] theorem shift_field_7 (vd : BitVec 7) (va : BitVec 7) (kind : BitVec 2) (n : BitVec 5) :
    (vd ++ va ++ 0#2 ++ kind ++ n : BitVec 23).extractLsb' 7 2 = 0#2 := by
  repeat rw [extract_high _ _ _ _ (by decide)]
  rw [extract_bottom]

@[simp] theorem shift_field_5 (vd : BitVec 7) (va : BitVec 7) (kind : BitVec 2) (n : BitVec 5) :
    (vd ++ va ++ 0#2 ++ kind ++ n : BitVec 23).extractLsb' 5 2 = kind := by
  rw [extract_high _ _ _ _ (by decide), extract_bottom]

@[simp] theorem shift_field_0 (vd : BitVec 7) (va : BitVec 7) (kind : BitVec 2) (n : BitVec 5) :
    (vd ++ va ++ 0#2 ++ kind ++ n : BitVec 23).extractLsb' 0 5 = n := by
  rw [extract_bottom]

@[simp] theorem long_field_16 (vd : BitVec 7) (imm : BitVec 16) :
    (vd ++ imm : BitVec 23).extractLsb' 16 7 = vd := by
  rw [extract_high _ _ _ _ (by decide), extract_all]

@[simp] theorem long_field_0 (vd : BitVec 7) (imm : BitVec 16) :
    (vd ++ imm : BitVec 23).extractLsb' 0 16 = imm := by
  rw [extract_bottom]

@[simp] theorem movs_field_16 (vd : BitVec 7) (sb : BitVec 8) :
    (vd ++ 0#7 ++ sb ++ 0#1 : BitVec 23).extractLsb' 16 7 = vd := by
  repeat rw [extract_high _ _ _ _ (by decide)]
  rw [extract_all]

@[simp] theorem movs_field_9 (vd : BitVec 7) (sb : BitVec 8) :
    (vd ++ 0#7 ++ sb ++ 0#1 : BitVec 23).extractLsb' 9 7 = 0#7 := by
  repeat rw [extract_high _ _ _ _ (by decide)]
  rw [extract_bottom]

@[simp] theorem movs_field_1 (vd : BitVec 7) (sb : BitVec 8) :
    (vd ++ 0#7 ++ sb ++ 0#1 : BitVec 23).extractLsb' 1 8 = sb := by
  rw [extract_high _ _ _ _ (by decide), extract_bottom]

@[simp] theorem movs_field_0 (vd : BitVec 7) (sb : BitVec 8) :
    (vd ++ 0#7 ++ sb ++ 0#1 : BitVec 23).extractLsb' 0 1 = 0#1 := by
  rw [extract_bottom]

@[simp] theorem hatch_field_16 (v : BitVec 7) (sel : BitVec 2) (h : BitVec 8) :
    (v ++ sel ++ 0#6 ++ h : BitVec 23).extractLsb' 16 7 = v := by
  repeat rw [extract_high _ _ _ _ (by decide)]
  rw [extract_all]

@[simp] theorem hatch_field_14 (v : BitVec 7) (sel : BitVec 2) (h : BitVec 8) :
    (v ++ sel ++ 0#6 ++ h : BitVec 23).extractLsb' 14 2 = sel := by
  repeat rw [extract_high _ _ _ _ (by decide)]
  rw [extract_bottom]

@[simp] theorem hatch_field_8 (v : BitVec 7) (sel : BitVec 2) (h : BitVec 8) :
    (v ++ sel ++ 0#6 ++ h : BitVec 23).extractLsb' 8 6 = 0#6 := by
  rw [extract_high _ _ _ _ (by decide), extract_bottom]

@[simp] theorem hatch_field_0 (v : BitVec 7) (sel : BitVec 2) (h : BitVec 8) :
    (v ++ sel ++ 0#6 ++ h : BitVec 23).extractLsb' 0 8 = h := by
  rw [extract_bottom]

@[simp] theorem lm_field_16 (vt : BitVec 7) (va : BitVec 7) (ord : BitVec 2) (scope : BitVec 3) (off : BitVec 4) :
    (vt ++ va ++ ord ++ scope ++ off : BitVec 23).extractLsb' 16 7 = vt := by
  repeat rw [extract_high _ _ _ _ (by decide)]
  rw [extract_all]

@[simp] theorem lm_field_9 (vt : BitVec 7) (va : BitVec 7) (ord : BitVec 2) (scope : BitVec 3) (off : BitVec 4) :
    (vt ++ va ++ ord ++ scope ++ off : BitVec 23).extractLsb' 9 7 = va := by
  repeat rw [extract_high _ _ _ _ (by decide)]
  rw [extract_bottom]

@[simp] theorem lm_field_7 (vt : BitVec 7) (va : BitVec 7) (ord : BitVec 2) (scope : BitVec 3) (off : BitVec 4) :
    (vt ++ va ++ ord ++ scope ++ off : BitVec 23).extractLsb' 7 2 = ord := by
  repeat rw [extract_high _ _ _ _ (by decide)]
  rw [extract_bottom]

@[simp] theorem lm_field_4 (vt : BitVec 7) (va : BitVec 7) (ord : BitVec 2) (scope : BitVec 3) (off : BitVec 4) :
    (vt ++ va ++ ord ++ scope ++ off : BitVec 23).extractLsb' 4 3 = scope := by
  rw [extract_high _ _ _ _ (by decide), extract_bottom]

@[simp] theorem lm_field_0 (vt : BitVec 7) (va : BitVec 7) (ord : BitVec 2) (scope : BitVec 3) (off : BitVec 4) :
    (vt ++ va ++ ord ++ scope ++ off : BitVec 23).extractLsb' 0 4 = off := by
  rw [extract_bottom]

@[simp] theorem la_field_16 (vd : BitVec 7) (va : BitVec 7) (op : BitVec 4) (scope : BitVec 3) (ord : BitVec 2) :
    (vd ++ va ++ op ++ scope ++ ord : BitVec 23).extractLsb' 16 7 = vd := by
  repeat rw [extract_high _ _ _ _ (by decide)]
  rw [extract_all]

@[simp] theorem la_field_9 (vd : BitVec 7) (va : BitVec 7) (op : BitVec 4) (scope : BitVec 3) (ord : BitVec 2) :
    (vd ++ va ++ op ++ scope ++ ord : BitVec 23).extractLsb' 9 7 = va := by
  repeat rw [extract_high _ _ _ _ (by decide)]
  rw [extract_bottom]

@[simp] theorem la_field_5 (vd : BitVec 7) (va : BitVec 7) (op : BitVec 4) (scope : BitVec 3) (ord : BitVec 2) :
    (vd ++ va ++ op ++ scope ++ ord : BitVec 23).extractLsb' 5 4 = op := by
  repeat rw [extract_high _ _ _ _ (by decide)]
  rw [extract_bottom]

@[simp] theorem la_field_2 (vd : BitVec 7) (va : BitVec 7) (op : BitVec 4) (scope : BitVec 3) (ord : BitVec 2) :
    (vd ++ va ++ op ++ scope ++ ord : BitVec 23).extractLsb' 2 3 = scope := by
  rw [extract_high _ _ _ _ (by decide), extract_bottom]

@[simp] theorem la_field_0 (vd : BitVec 7) (va : BitVec 7) (op : BitVec 4) (scope : BitVec 3) (ord : BitVec 2) :
    (vd ++ va ++ op ++ scope ++ ord : BitVec 23).extractLsb' 0 2 = ord := by
  rw [extract_bottom]

@[simp] theorem fence_field_19 (kind : BitVec 2) (scope : BitVec 3) :
    (0#4 ++ kind ++ scope ++ 0#14 : BitVec 23).extractLsb' 19 4 = 0#4 := by
  repeat rw [extract_high _ _ _ _ (by decide)]
  rw [extract_all]

@[simp] theorem fence_field_17 (kind : BitVec 2) (scope : BitVec 3) :
    (0#4 ++ kind ++ scope ++ 0#14 : BitVec 23).extractLsb' 17 2 = kind := by
  repeat rw [extract_high _ _ _ _ (by decide)]
  rw [extract_bottom]

@[simp] theorem fence_field_14 (kind : BitVec 2) (scope : BitVec 3) :
    (0#4 ++ kind ++ scope ++ 0#14 : BitVec 23).extractLsb' 14 3 = scope := by
  rw [extract_high _ _ _ _ (by decide), extract_bottom]

@[simp] theorem fence_field_0 (kind : BitVec 2) (scope : BitVec 3) :
    (0#4 ++ kind ++ scope ++ 0#14 : BitVec 23).extractLsb' 0 14 = 0#14 := by
  rw [extract_bottom]

@[simp] theorem memx_field_19 (sub : BitVec 4) (va : BitVec 7) (vb : BitVec 7) :
    (sub ++ va ++ vb ++ 0#5 : BitVec 23).extractLsb' 19 4 = sub := by
  repeat rw [extract_high _ _ _ _ (by decide)]
  rw [extract_all]

@[simp] theorem memx_field_12 (sub : BitVec 4) (va : BitVec 7) (vb : BitVec 7) :
    (sub ++ va ++ vb ++ 0#5 : BitVec 23).extractLsb' 12 7 = va := by
  repeat rw [extract_high _ _ _ _ (by decide)]
  rw [extract_bottom]

@[simp] theorem memx_field_5 (sub : BitVec 4) (va : BitVec 7) (vb : BitVec 7) :
    (sub ++ va ++ vb ++ 0#5 : BitVec 23).extractLsb' 5 7 = vb := by
  rw [extract_high _ _ _ _ (by decide), extract_bottom]

@[simp] theorem memx_field_0 (sub : BitVec 4) (va : BitVec 7) (vb : BitVec 7) :
    (sub ++ va ++ vb ++ 0#5 : BitVec 23).extractLsb' 0 5 = 0#5 := by
  rw [extract_bottom]

@[simp] theorem line_field_19 (sub : BitVec 4) (va : BitVec 7) :
    (sub ++ va ++ 0#7 ++ 0#5 : BitVec 23).extractLsb' 19 4 = sub := by
  repeat rw [extract_high _ _ _ _ (by decide)]
  rw [extract_all]

@[simp] theorem line_field_12 (sub : BitVec 4) (va : BitVec 7) :
    (sub ++ va ++ 0#7 ++ 0#5 : BitVec 23).extractLsb' 12 7 = va := by
  repeat rw [extract_high _ _ _ _ (by decide)]
  rw [extract_bottom]

@[simp] theorem line_field_5 (sub : BitVec 4) (va : BitVec 7) :
    (sub ++ va ++ 0#7 ++ 0#5 : BitVec 23).extractLsb' 5 7 = 0#7 := by
  rw [extract_high _ _ _ _ (by decide), extract_bottom]

@[simp] theorem line_field_0 (sub : BitVec 4) (va : BitVec 7) :
    (sub ++ va ++ 0#7 ++ 0#5 : BitVec 23).extractLsb' 0 5 = 0#5 := by
  rw [extract_bottom]

@[simp] theorem line_zero_0 (sub : BitVec 4) (va : BitVec 7) :
    (sub ++ va ++ 0#7 ++ 0#5 : BitVec 23).extractLsb' 0 12 = 0#12 := by
  rw [BitVec.append_assoc]
  exact extract_bottom _ _

@[simp] theorem branch_field_20 (cond : BitVec 3) (va : BitVec 7) (off : BitVec 13) :
    (cond ++ va ++ off : BitVec 23).extractLsb' 20 3 = cond := by
  repeat rw [extract_high _ _ _ _ (by decide)]
  rw [extract_all]

@[simp] theorem branch_field_13 (cond : BitVec 3) (va : BitVec 7) (off : BitVec 13) :
    (cond ++ va ++ off : BitVec 23).extractLsb' 13 7 = va := by
  rw [extract_high _ _ _ _ (by decide), extract_bottom]

@[simp] theorem branch_field_0 (cond : BitVec 3) (va : BitVec 7) (off : BitVec 13) :
    (cond ++ va ++ off : BitVec 23).extractLsb' 0 13 = off := by
  rw [extract_bottom]

@[simp] theorem bar_field_21 (sel : BitVec 2) (va : BitVec 7) (n : BitVec 11) :
    (sel ++ va ++ 0#3 ++ n : BitVec 23).extractLsb' 21 2 = sel := by
  repeat rw [extract_high _ _ _ _ (by decide)]
  rw [extract_all]

@[simp] theorem bar_field_14 (sel : BitVec 2) (va : BitVec 7) (n : BitVec 11) :
    (sel ++ va ++ 0#3 ++ n : BitVec 23).extractLsb' 14 7 = va := by
  repeat rw [extract_high _ _ _ _ (by decide)]
  rw [extract_bottom]

@[simp] theorem bar_field_11 (sel : BitVec 2) (va : BitVec 7) (n : BitVec 11) :
    (sel ++ va ++ 0#3 ++ n : BitVec 23).extractLsb' 11 3 = 0#3 := by
  rw [extract_high _ _ _ _ (by decide), extract_bottom]

@[simp] theorem bar_field_0 (sel : BitVec 2) (va : BitVec 7) (n : BitVec 11) :
    (sel ++ va ++ 0#3 ++ n : BitVec 23).extractLsb' 0 11 = n := by
  rw [extract_bottom]

@[simp] theorem sel_field_21 (sel : BitVec 2) (code : BitVec 16) :
    (sel ++ 0#5 ++ code : BitVec 23).extractLsb' 21 2 = sel := by
  repeat rw [extract_high _ _ _ _ (by decide)]
  rw [extract_all]

@[simp] theorem sel_field_16 (sel : BitVec 2) (code : BitVec 16) :
    (sel ++ 0#5 ++ code : BitVec 23).extractLsb' 16 5 = 0#5 := by
  rw [extract_high _ _ _ _ (by decide), extract_bottom]

@[simp] theorem sel_field_0 (sel : BitVec 2) (code : BitVec 16) :
    (sel ++ 0#5 ++ code : BitVec 23).extractLsb' 0 16 = code := by
  rw [extract_bottom]

@[simp] theorem selz_field_21 (sel : BitVec 2) :
    (sel ++ 0#5 ++ 0#16 : BitVec 23).extractLsb' 21 2 = sel := by
  repeat rw [extract_high _ _ _ _ (by decide)]
  rw [extract_all]

@[simp] theorem selz_field_16 (sel : BitVec 2) :
    (sel ++ 0#5 ++ 0#16 : BitVec 23).extractLsb' 16 5 = 0#5 := by
  rw [extract_high _ _ _ _ (by decide), extract_bottom]

@[simp] theorem selz_field_0 (sel : BitVec 2) :
    (sel ++ 0#5 ++ 0#16 : BitVec 23).extractLsb' 0 16 = 0#16 := by
  rw [extract_bottom]

@[simp] theorem selz_zero_0 (sel : BitVec 2) :
    (sel ++ 0#5 ++ 0#16 : BitVec 23).extractLsb' 0 21 = 0#21 := by
  rw [BitVec.append_assoc]
  exact extract_bottom _ _

@[simp] theorem ts_field_21 (sel : BitVec 2) (r : BitVec 7) (x : BitVec 3) :
    (sel ++ r ++ 0#11 ++ x : BitVec 23).extractLsb' 21 2 = sel := by
  repeat rw [extract_high _ _ _ _ (by decide)]
  rw [extract_all]

@[simp] theorem ts_field_14 (sel : BitVec 2) (r : BitVec 7) (x : BitVec 3) :
    (sel ++ r ++ 0#11 ++ x : BitVec 23).extractLsb' 14 7 = r := by
  repeat rw [extract_high _ _ _ _ (by decide)]
  rw [extract_bottom]

@[simp] theorem ts_field_3 (sel : BitVec 2) (r : BitVec 7) (x : BitVec 3) :
    (sel ++ r ++ 0#11 ++ x : BitVec 23).extractLsb' 3 11 = 0#11 := by
  rw [extract_high _ _ _ _ (by decide), extract_bottom]

@[simp] theorem ts_field_0 (sel : BitVec 2) (r : BitVec 7) (x : BitVec 3) :
    (sel ++ r ++ 0#11 ++ x : BitVec 23).extractLsb' 0 3 = x := by
  rw [extract_bottom]

@[simp] theorem ur_field_16 (d : BitVec 8) (a : BitVec 8) (c : BitVec 8) :
    (d ++ a ++ c : BitVec 24).extractLsb' 16 8 = d := by
  repeat rw [extract_high _ _ _ _ (by decide)]
  rw [extract_all]

@[simp] theorem ur_field_8 (d : BitVec 8) (a : BitVec 8) (c : BitVec 8) :
    (d ++ a ++ c : BitVec 24).extractLsb' 8 8 = a := by
  rw [extract_high _ _ _ _ (by decide), extract_bottom]

@[simp] theorem ur_field_0 (d : BitVec 8) (a : BitVec 8) (c : BitVec 8) :
    (d ++ a ++ c : BitVec 24).extractLsb' 0 8 = c := by
  rw [extract_bottom]

@[simp] theorem ushi_field_16 (d : BitVec 8) (a : BitVec 8) (kind : BitVec 2) (n : BitVec 5) :
    (d ++ a ++ kind ++ 0#1 ++ n : BitVec 24).extractLsb' 16 8 = d := by
  repeat rw [extract_high _ _ _ _ (by decide)]
  rw [extract_all]

@[simp] theorem ushi_field_8 (d : BitVec 8) (a : BitVec 8) (kind : BitVec 2) (n : BitVec 5) :
    (d ++ a ++ kind ++ 0#1 ++ n : BitVec 24).extractLsb' 8 8 = a := by
  repeat rw [extract_high _ _ _ _ (by decide)]
  rw [extract_bottom]

@[simp] theorem ushi_field_6 (d : BitVec 8) (a : BitVec 8) (kind : BitVec 2) (n : BitVec 5) :
    (d ++ a ++ kind ++ 0#1 ++ n : BitVec 24).extractLsb' 6 2 = kind := by
  repeat rw [extract_high _ _ _ _ (by decide)]
  rw [extract_bottom]

@[simp] theorem ushi_field_5 (d : BitVec 8) (a : BitVec 8) (kind : BitVec 2) (n : BitVec 5) :
    (d ++ a ++ kind ++ 0#1 ++ n : BitVec 24).extractLsb' 5 1 = 0#1 := by
  rw [extract_high _ _ _ _ (by decide), extract_bottom]

@[simp] theorem ushi_field_0 (d : BitVec 8) (a : BitVec 8) (kind : BitVec 2) (n : BitVec 5) :
    (d ++ a ++ kind ++ 0#1 ++ n : BitVec 24).extractLsb' 0 5 = n := by
  rw [extract_bottom]

@[simp] theorem ul_field_16 (d : BitVec 8) (i : BitVec 16) :
    (d ++ i : BitVec 24).extractLsb' 16 8 = d := by
  rw [extract_high _ _ _ _ (by decide), extract_all]

@[simp] theorem ul_field_0 (d : BitVec 8) (i : BitVec 16) :
    (d ++ i : BitVec 24).extractLsb' 0 16 = i := by
  rw [extract_bottom]

@[simp] theorem ucmp_field_21 (q : BitVec 3) (cc : BitVec 5) (sa : BitVec 8) (sb : BitVec 8) :
    (q ++ cc ++ sa ++ sb : BitVec 24).extractLsb' 21 3 = q := by
  repeat rw [extract_high _ _ _ _ (by decide)]
  rw [extract_all]

@[simp] theorem ucmp_field_16 (q : BitVec 3) (cc : BitVec 5) (sa : BitVec 8) (sb : BitVec 8) :
    (q ++ cc ++ sa ++ sb : BitVec 24).extractLsb' 16 5 = cc := by
  repeat rw [extract_high _ _ _ _ (by decide)]
  rw [extract_bottom]

@[simp] theorem ucmp_field_8 (q : BitVec 3) (cc : BitVec 5) (sa : BitVec 8) (sb : BitVec 8) :
    (q ++ cc ++ sa ++ sb : BitVec 24).extractLsb' 8 8 = sa := by
  rw [extract_high _ _ _ _ (by decide), extract_bottom]

@[simp] theorem ucmp_field_0 (q : BitVec 3) (cc : BitVec 5) (sa : BitVec 8) (sb : BitVec 8) :
    (q ++ cc ++ sa ++ sb : BitVec 24).extractLsb' 0 8 = sb := by
  rw [extract_bottom]

@[simp] theorem ubr_field_21 (cond : BitVec 3) (q : BitVec 3) (off : BitVec 18) :
    (cond ++ q ++ off : BitVec 24).extractLsb' 21 3 = cond := by
  repeat rw [extract_high _ _ _ _ (by decide)]
  rw [extract_all]

@[simp] theorem ubr_field_18 (cond : BitVec 3) (q : BitVec 3) (off : BitVec 18) :
    (cond ++ q ++ off : BitVec 24).extractLsb' 18 3 = q := by
  rw [extract_high _ _ _ _ (by decide), extract_bottom]

@[simp] theorem ubr_field_0 (cond : BitVec 3) (q : BitVec 3) (off : BitVec 18) :
    (cond ++ q ++ off : BitVec 24).extractLsb' 0 18 = off := by
  rw [extract_bottom]

@[simp] theorem ux_field_20 (sub : BitVec 4) (r : BitVec 8) (n : BitVec 12) :
    (sub ++ r ++ n : BitVec 24).extractLsb' 20 4 = sub := by
  repeat rw [extract_high _ _ _ _ (by decide)]
  rw [extract_all]

@[simp] theorem ux_field_12 (sub : BitVec 4) (r : BitVec 8) (n : BitVec 12) :
    (sub ++ r ++ n : BitVec 24).extractLsb' 12 8 = r := by
  rw [extract_high _ _ _ _ (by decide), extract_bottom]

@[simp] theorem ux_field_0 (sub : BitVec 4) (r : BitVec 8) (n : BitVec 12) :
    (sub ++ r ++ n : BitVec 24).extractLsb' 0 12 = n := by
  rw [extract_bottom]

@[simp] theorem uxz_field_20 (sub : BitVec 4) :
    (sub ++ 0#8 ++ 0#12 : BitVec 24).extractLsb' 20 4 = sub := by
  repeat rw [extract_high _ _ _ _ (by decide)]
  rw [extract_all]

@[simp] theorem uxz_field_12 (sub : BitVec 4) :
    (sub ++ 0#8 ++ 0#12 : BitVec 24).extractLsb' 12 8 = 0#8 := by
  rw [extract_high _ _ _ _ (by decide), extract_bottom]

@[simp] theorem uxz_field_0 (sub : BitVec 4) :
    (sub ++ 0#8 ++ 0#12 : BitVec 24).extractLsb' 0 12 = 0#12 := by
  rw [extract_bottom]

@[simp] theorem uxz_zero_0 (sub : BitVec 4) :
    (sub ++ 0#8 ++ 0#12 : BitVec 24).extractLsb' 0 20 = 0#20 := by
  rw [BitVec.append_assoc]
  exact extract_bottom _ _

@[simp] theorem waitc_field_20 (cls : BitVec 3) (k : BitVec 16) :
    (0#4 ++ cls ++ 0#1 ++ k : BitVec 24).extractLsb' 20 4 = 0#4 := by
  repeat rw [extract_high _ _ _ _ (by decide)]
  rw [extract_all]

@[simp] theorem waitc_field_17 (cls : BitVec 3) (k : BitVec 16) :
    (0#4 ++ cls ++ 0#1 ++ k : BitVec 24).extractLsb' 17 3 = cls := by
  repeat rw [extract_high _ _ _ _ (by decide)]
  rw [extract_bottom]

@[simp] theorem waitc_field_16 (cls : BitVec 3) (k : BitVec 16) :
    (0#4 ++ cls ++ 0#1 ++ k : BitVec 24).extractLsb' 16 1 = 0#1 := by
  rw [extract_high _ _ _ _ (by decide), extract_bottom]

@[simp] theorem waitc_field_0 (cls : BitVec 3) (k : BitVec 16) :
    (0#4 ++ cls ++ 0#1 ++ k : BitVec 24).extractLsb' 0 16 = k := by
  rw [extract_bottom]

@[simp] theorem uxh_field_4 (sub : BitVec 4) (r : BitVec 8) (h : BitVec 4) :
    (sub ++ r ++ (0#8 ++ h) : BitVec 24).extractLsb' 4 8 = 0#8 := by
  rw [extract_low _ _ _ _ (by decide), extract_high _ _ _ _ (by decide), extract_all]

@[simp] theorem uxh_field_0 (sub : BitVec 4) (r : BitVec 8) (h : BitVec 4) :
    (sub ++ r ++ (0#8 ++ h) : BitVec 24).extractLsb' 0 4 = h := by
  rw [extract_low _ _ _ _ (by decide), extract_bottom]

@[simp] theorem uxm_field_5 (sub : BitVec 4) (r : BitVec 8) (p : BitVec 7) (ord : BitVec 2) (scope : BitVec 3) :
    (sub ++ r ++ (p ++ ord ++ scope) : BitVec 24).extractLsb' 5 7 = p := by
  rw [extract_low _ _ _ _ (by decide), extract_high _ _ _ _ (by decide), extract_high _ _ _ _ (by decide), extract_all]

@[simp] theorem uxm_field_3 (sub : BitVec 4) (r : BitVec 8) (p : BitVec 7) (ord : BitVec 2) (scope : BitVec 3) :
    (sub ++ r ++ (p ++ ord ++ scope) : BitVec 24).extractLsb' 3 2 = ord := by
  rw [extract_low _ _ _ _ (by decide), extract_high _ _ _ _ (by decide), extract_bottom]

@[simp] theorem uxm_field_0 (sub : BitVec 4) (r : BitVec 8) (p : BitVec 7) (ord : BitVec 2) (scope : BitVec 3) :
    (sub ++ r ++ (p ++ ord ++ scope) : BitVec 24).extractLsb' 0 3 = scope := by
  rw [extract_low _ _ _ _ (by decide), extract_bottom]

@[simp] theorem uxs_field_3 (sub : BitVec 4) (r : BitVec 8) (slot : BitVec 3) :
    (sub ++ r ++ (0#9 ++ slot) : BitVec 24).extractLsb' 3 9 = 0#9 := by
  rw [extract_low _ _ _ _ (by decide), extract_high _ _ _ _ (by decide), extract_all]

@[simp] theorem uxs_field_0 (sub : BitVec 4) (r : BitVec 8) (slot : BitVec 3) :
    (sub ++ r ++ (0#9 ++ slot) : BitVec 24).extractLsb' 0 3 = slot := by
  rw [extract_low _ _ _ _ (by decide), extract_bottom]

@[simp] theorem uxl_field_2 (sub : BitVec 4) (r : BitVec 8) (mode : BitVec 2) :
    (sub ++ r ++ (0#10 ++ mode) : BitVec 24).extractLsb' 2 10 = 0#10 := by
  rw [extract_low _ _ _ _ (by decide), extract_high _ _ _ _ (by decide), extract_all]

@[simp] theorem uxl_field_0 (sub : BitVec 4) (r : BitVec 8) (mode : BitVec 2) :
    (sub ++ r ++ (0#10 ++ mode) : BitVec 24).extractLsb' 0 2 = mode := by
  rw [extract_low _ _ _ _ (by decide), extract_bottom]

@[simp] theorem uxb_field_11 (sub : BitVec 4) (r : BitVec 8) (n : BitVec 11) :
    (sub ++ r ++ (0#1 ++ n) : BitVec 24).extractLsb' 11 1 = 0#1 := by
  rw [extract_low _ _ _ _ (by decide), extract_high _ _ _ _ (by decide), extract_all]

@[simp] theorem uxb_field_0 (sub : BitVec 4) (r : BitVec 8) (n : BitVec 11) :
    (sub ++ r ++ (0#1 ++ n) : BitVec 24).extractLsb' 0 11 = n := by
  rw [extract_low _ _ _ _ (by decide), extract_bottom]

@[simp] theorem uxc_field_11 (sub : BitVec 4) (r : BitVec 8) (n : BitVec 11) :
    (sub ++ r ++ (1#1 ++ n) : BitVec 24).extractLsb' 11 1 = 1#1 := by
  rw [extract_low _ _ _ _ (by decide), extract_high _ _ _ _ (by decide), extract_all]

@[simp] theorem uxc_field_0 (sub : BitVec 4) (r : BitVec 8) (n : BitVec 11) :
    (sub ++ r ++ (1#1 ++ n) : BitVec 24).extractLsb' 0 11 = n := by
  rw [extract_low _ _ _ _ (by decide), extract_bottom]

end Sys2Proof
end

