-- ==== Sys2Proof/Laws/Maps.lean ====
section
/-! SUPPORT. What reading a sparse map or a byte memory gives after each of its updates, and that every update
keeps the canonical form. -/

namespace Sys2Proof.Machine

/-! ### Sparse maps -/

@[simp] theorem NMap.find_nil {α : Type} (k : Nat) : NMap.find ([] : NMap α) k = none := rfl

theorem NMap.find_cons {α : Type} (j : Nat) (x : α) (m : NMap α) (k : Nat) :
    NMap.find ((j, x) :: m) k = if k = j then some x else NMap.find m k := rfl

@[simp] theorem NMap.find_set_self {α : Type} (m : NMap α) (k : Nat) (x : α) : (m.set k x).find k = some x := by
  induction m with
  | nil => simp [NMap.set, NMap.find]
  | cons p m ih =>
    obtain ⟨j, y⟩ := p
    simp only [NMap.set]
    split
    · simp [NMap.find]
    · split
      · simp [NMap.find]
      · rename_i h
        simp [NMap.find, h, ih]

theorem NMap.find_set_other {α : Type} (m : NMap α) {k j : Nat} (x : α) (h : j ≠ k) :
    (m.set k x).find j = m.find j := by
  induction m with
  | nil => simp [NMap.set, NMap.find, h]
  | cons p m ih =>
    obtain ⟨i, y⟩ := p
    simp only [NMap.set]
    split
    · simp [NMap.find, h]
    · split
      · rename_i hk
        subst hk
        simp [NMap.find, h]
      · simp [NMap.find, ih]

theorem NMap.find_set {α : Type} (m : NMap α) (k : Nat) (x : α) (j : Nat) :
    (m.set k x).find j = if j = k then some x else m.find j := by
  split
  · rename_i h
    subst h
    simp
  · rename_i h
    exact find_set_other m x h

@[simp] theorem NMap.find_erase_self {α : Type} (m : NMap α) (k : Nat) : (m.erase k).find k = none := by
  induction m with
  | nil => rfl
  | cons p m ih =>
    obtain ⟨j, y⟩ := p
    simp only [NMap.erase]
    split
    · exact ih
    · rename_i h
      simp [NMap.find, h, ih]

theorem NMap.find_erase_other {α : Type} (m : NMap α) {k j : Nat} (h : j ≠ k) : (m.erase k).find j = m.find j := by
  induction m with
  | nil => rfl
  | cons p m ih =>
    obtain ⟨i, y⟩ := p
    simp only [NMap.erase]
    split
    · rename_i hk
      subst hk
      simp [NMap.find, h, ih]
    · simp [NMap.find, ih]

@[simp] theorem NMap.getD_set_self {α : Type} (m : NMap α) (k : Nat) (x d : α) : (m.set k x).getD k d = x := by
  simp [NMap.getD]

theorem NMap.getD_set_other {α : Type} (m : NMap α) {k j : Nat} (x d : α) (h : j ≠ k) :
    (m.set k x).getD j d = m.getD j d := by
  simp [NMap.getD, find_set_other m x h]

@[simp] theorem NMap.getD_put_self {α : Type} [BEq α] [LawfulBEq α] (m : NMap α) (d : α) (k : Nat) (x : α) :
    (m.put d k x).getD k d = x := by
  unfold NMap.put
  split
  · rename_i h
    simp [NMap.getD, eq_of_beq h]
  · simp

theorem NMap.getD_put_other {α : Type} [BEq α] [LawfulBEq α] (m : NMap α) {k j : Nat} (d x e : α) (h : j ≠ k) :
    (m.put d k x).getD j e = m.getD j e := by
  unfold NMap.put NMap.getD
  split
  · rw [find_erase_other m h]
  · rw [find_set_other m x h]

/-! ### Strictly rising keys -/

/-- A list with strictly rising keys, given by its head and what all later keys exceed. -/
theorem NMap.sorted_cons {α : Type} (j : Nat) (y : α) (m : NMap α) :
    NMap.sorted ((j, y) :: m) = true ↔ (∀ p ∈ m, j < p.1) ∧ NMap.sorted m = true := by
  induction m generalizing j y with
  | nil => simp [NMap.sorted]
  | cons p m ih =>
    obtain ⟨k, z⟩ := p
    simp only [NMap.sorted, Bool.and_eq_true, decide_eq_true_eq, List.mem_cons, forall_eq_or_imp]
    constructor
    · rintro ⟨hjk, hs⟩
      exact ⟨⟨hjk, fun q hq => Nat.lt_trans hjk (((ih k z).mp hs).1 q hq)⟩, hs⟩
    · rintro ⟨⟨hjk, -⟩, hs⟩
      exact ⟨hjk, hs⟩

theorem NMap.mem_set {α : Type} (m : NMap α) (k : Nat) (x : α) (p : Nat × α) (hp : p ∈ m.set k x) :
    p = (k, x) ∨ p ∈ m := by
  induction m with
  | nil => simpa [NMap.set] using hp
  | cons q m ih =>
    obtain ⟨j, y⟩ := q
    simp only [NMap.set] at hp
    split at hp
    · simpa using hp
    · split at hp
      · rcases List.mem_cons.mp hp with h | h
        · exact Or.inl h
        · exact Or.inr (List.mem_cons_of_mem _ h)
      · rcases List.mem_cons.mp hp with h | h
        · exact Or.inr (h ▸ List.mem_cons_self)
        · exact (ih h).imp id (List.mem_cons_of_mem _)

theorem NMap.mem_erase {α : Type} (m : NMap α) (k : Nat) (p : Nat × α) (hp : p ∈ m.erase k) : p ∈ m := by
  induction m with
  | nil => exact hp
  | cons q m ih =>
    obtain ⟨j, y⟩ := q
    simp only [NMap.erase] at hp
    split at hp
    · exact List.mem_cons_of_mem _ (ih hp)
    · rcases List.mem_cons.mp hp with h | h
      · exact h ▸ List.mem_cons_self
      · exact List.mem_cons_of_mem _ (ih h)

theorem NMap.sorted_set {α : Type} (m : NMap α) (k : Nat) (x : α) (h : m.sorted = true) :
    (m.set k x).sorted = true := by
  induction m with
  | nil => rfl
  | cons p m ih =>
    obtain ⟨j, y⟩ := p
    have hs := (sorted_cons j y m).mp h
    simp only [NMap.set]
    split
    · rename_i hk
      refine (sorted_cons _ _ _).mpr ⟨fun q hq => ?_, h⟩
      rcases List.mem_cons.mp hq with e | e
      · exact e ▸ hk
      · exact Nat.lt_trans hk (hs.1 q e)
    · split
      · rename_i hk
        exact (sorted_cons _ _ _).mpr ⟨hk ▸ hs.1, hs.2⟩
      · rename_i hlt hne
        refine (sorted_cons _ _ _).mpr ⟨fun q hq => ?_, ih hs.2⟩
        rcases mem_set m k x q hq with e | e
        · exact e ▸ (by omega : j < k)
        · exact hs.1 q e

theorem NMap.sorted_erase {α : Type} (m : NMap α) (k : Nat) (h : m.sorted = true) : (m.erase k).sorted = true := by
  induction m with
  | nil => rfl
  | cons p m ih =>
    obtain ⟨j, y⟩ := p
    have hs := (sorted_cons j y m).mp h
    simp only [NMap.erase]
    split
    · exact ih hs.2
    · exact (sorted_cons _ _ _).mpr ⟨fun q hq => hs.1 q (mem_erase m k q hq), ih hs.2⟩

/-! ### Byte memories -/

@[simp] theorem Memory.read_write_self (m : Memory) (a : Nat) (b : Byte) : (m.write a b).read a = b := by
  unfold Memory.write Memory.read
  split
  · rename_i h
    simp [NMap.getD, h]
  · simp

theorem Memory.read_write_other (m : Memory) {a c : Nat} (b : Byte) (h : c ≠ a) : (m.write a b).read c = m.read c := by
  unfold Memory.write Memory.read NMap.getD
  split
  · rw [NMap.find_erase_other m h]
  · rw [NMap.find_set_other m b h]

/-- A byte outside those written reads as before. -/
theorem Memory.read_writeBytes_outside (m : Memory) (a c : Nat) (bs : List Byte) (h : c < a ∨ a + bs.length ≤ c) :
    (m.writeBytes a bs).read c = m.read c := by
  induction bs generalizing m a with
  | nil => rfl
  | cons b bs ih =>
    simp only [List.length_cons] at h
    rw [Memory.writeBytes, ih _ _ (by omega), read_write_other m b (by omega)]

/-- A byte among those written reads as the byte written there. -/
theorem Memory.read_writeBytes_inside (m : Memory) (a i : Nat) (bs : List Byte) (h : i < bs.length) :
    (m.writeBytes a bs).read (a + i) = bs[i] := by
  induction bs generalizing m a i with
  | nil => simp at h
  | cons b bs ih =>
    cases i with
    | zero =>
      rw [Memory.writeBytes, Nat.add_zero, read_writeBytes_outside _ _ _ _ (by omega)]
      simp
    | succ i =>
      have := ih (m.write a b) (a + 1) i (by simpa using h)
      rw [Memory.writeBytes, ← Nat.add_assoc, Nat.add_right_comm]
      simpa using this

theorem Memory.wf_write (m : Memory) (a : Nat) (b : Byte) (h : m.wf = true) : (m.write a b).wf = true := by
  unfold Memory.wf at h ⊢
  rw [Bool.and_eq_true, List.all_eq_true] at h ⊢
  unfold Memory.write
  split
  · exact ⟨NMap.sorted_erase m a h.1, fun p hp => h.2 p (NMap.mem_erase m a p hp)⟩
  · rename_i hb
    refine ⟨NMap.sorted_set m a b h.1, fun p hp => ?_⟩
    rcases NMap.mem_set m a b p hp with e | e
    · subst e
      simpa using hb
    · exact h.2 p e

theorem Memory.wf_writeBytes (m : Memory) (a : Nat) (bs : List Byte) (h : m.wf = true) :
    (m.writeBytes a bs).wf = true := by
  induction bs generalizing m a with
  | nil => exact h
  | cons b bs ih => exact ih _ _ (wf_write m a b h)

theorem Memory.wf_nil : Memory.wf [] = true := rfl

theorem Memory.readBytes_length (m : Memory) (a n : Nat) : (m.readBytes a n).length = n := by
  induction n generalizing a with
  | zero => rfl
  | succ n ih => simp [Memory.readBytes, ih]

/-- Bytes just written read back. -/
theorem Memory.readBytes_writeBytes (m : Memory) (a : Nat) (bs : List Byte) :
    (m.writeBytes a bs).readBytes a bs.length = bs := by
  induction bs generalizing m a with
  | nil => rfl
  | cons b bs ih =>
    simp only [List.length_cons, Memory.readBytes, Memory.writeBytes]
    rw [ih, read_writeBytes_outside _ _ _ _ (by omega), read_write_self]

end Sys2Proof.Machine
end

