-- ==== Sys2Proof/Laws/State.lean ====
section
/-! SUPPORT. What each update of the state leaves in each field: one lemma for each field that an update does not
touch, and what reading a part gives after it is replaced. -/

namespace Sys2Proof.Machine.State

/-! ### setCore -/

@[simp] theorem setCore_threads (s : State) (c : Nat) (x : Core) : (s.setCore c x).threads = s.threads := rfl
@[simp] theorem setCore_groups (s : State) (c : Nat) (x : Core) : (s.setCore c x).groups = s.groups := rfl
@[simp] theorem setCore_blocks (s : State) (c : Nat) (x : Core) : (s.setCore c x).blocks = s.blocks := rfl
@[simp] theorem setCore_clusters (s : State) (c : Nat) (x : Core) : (s.setCore c x).clusters = s.clusters := rfl
@[simp] theorem setCore_tenants (s : State) (c : Nat) (x : Core) : (s.setCore c x).tenants = s.tenants := rfl
@[simp] theorem setCore_tree (s : State) (c : Nat) (x : Core) : (s.setCore c x).tree = s.tree := rfl
@[simp] theorem setCore_ops (s : State) (c : Nat) (x : Core) : (s.setCore c x).ops = s.ops := rfl
@[simp] theorem setCore_io (s : State) (c : Nat) (x : Core) : (s.setCore c x).io = s.io := rfl
@[simp] theorem setCore_desk (s : State) (c : Nat) (x : Core) : (s.setCore c x).desk = s.desk := rfl
@[simp] theorem setCore_sec (s : State) (c : Nat) (x : Core) : (s.setCore c x).sec = s.sec := rfl
@[simp] theorem setCore_mem (s : State) (c : Nat) (x : Core) : (s.setCore c x).mem = s.mem := rfl
@[simp] theorem setCore_poison (s : State) (c : Nat) (x : Core) : (s.setCore c x).poison = s.poison := rfl
@[simp] theorem setCore_eccCount (s : State) (c : Nat) (x : Core) : (s.setCore c x).eccCount = s.eccCount := rfl
@[simp] theorem setCore_tlb (s : State) (c : Nat) (x : Core) : (s.setCore c x).tlb = s.tlb := rfl
@[simp] theorem setCore_inflight (s : State) (c : Nat) (x : Core) : (s.setCore c x).inflight = s.inflight := rfl
@[simp] theorem setCore_rowSeq (s : State) (c : Nat) (x : Core) : (s.setCore c x).rowSeq = s.rowSeq := rfl
@[simp] theorem setCore_nextId (s : State) (c : Nat) (x : Core) : (s.setCore c x).nextId = s.nextId := rfl
@[simp] theorem setCore_freeCtr (s : State) (c : Nat) (x : Core) : (s.setCore c x).freeCtr = s.freeCtr := rfl
@[simp] theorem setCore_nextAge (s : State) (c : Nat) (x : Core) : (s.setCore c x).nextAge = s.nextAge := rfl
@[simp] theorem setCore_turns (s : State) (c : Nat) (x : Core) : (s.setCore c x).turns = s.turns := rfl
@[simp] theorem setCore_cyc (s : State) (c : Nat) (x : Core) : (s.setCore c x).cyc = s.cyc := rfl

/-! ### setCluster -/

@[simp] theorem setCluster_threads (s : State) (c : Nat) (x : Cluster) : (s.setCluster c x).threads = s.threads := rfl
@[simp] theorem setCluster_groups (s : State) (c : Nat) (x : Cluster) : (s.setCluster c x).groups = s.groups := rfl
@[simp] theorem setCluster_blocks (s : State) (c : Nat) (x : Cluster) : (s.setCluster c x).blocks = s.blocks := rfl
@[simp] theorem setCluster_cores (s : State) (c : Nat) (x : Cluster) : (s.setCluster c x).cores = s.cores := rfl
@[simp] theorem setCluster_tenants (s : State) (c : Nat) (x : Cluster) : (s.setCluster c x).tenants = s.tenants := rfl
@[simp] theorem setCluster_tree (s : State) (c : Nat) (x : Cluster) : (s.setCluster c x).tree = s.tree := rfl
@[simp] theorem setCluster_ops (s : State) (c : Nat) (x : Cluster) : (s.setCluster c x).ops = s.ops := rfl
@[simp] theorem setCluster_io (s : State) (c : Nat) (x : Cluster) : (s.setCluster c x).io = s.io := rfl
@[simp] theorem setCluster_desk (s : State) (c : Nat) (x : Cluster) : (s.setCluster c x).desk = s.desk := rfl
@[simp] theorem setCluster_sec (s : State) (c : Nat) (x : Cluster) : (s.setCluster c x).sec = s.sec := rfl
@[simp] theorem setCluster_mem (s : State) (c : Nat) (x : Cluster) : (s.setCluster c x).mem = s.mem := rfl
@[simp] theorem setCluster_poison (s : State) (c : Nat) (x : Cluster) : (s.setCluster c x).poison = s.poison := rfl
@[simp] theorem setCluster_eccCount (s : State) (c : Nat) (x : Cluster) : (s.setCluster c x).eccCount = s.eccCount := rfl
@[simp] theorem setCluster_tlb (s : State) (c : Nat) (x : Cluster) : (s.setCluster c x).tlb = s.tlb := rfl
@[simp] theorem setCluster_inflight (s : State) (c : Nat) (x : Cluster) : (s.setCluster c x).inflight = s.inflight := rfl
@[simp] theorem setCluster_rowSeq (s : State) (c : Nat) (x : Cluster) : (s.setCluster c x).rowSeq = s.rowSeq := rfl
@[simp] theorem setCluster_nextId (s : State) (c : Nat) (x : Cluster) : (s.setCluster c x).nextId = s.nextId := rfl
@[simp] theorem setCluster_freeCtr (s : State) (c : Nat) (x : Cluster) : (s.setCluster c x).freeCtr = s.freeCtr := rfl
@[simp] theorem setCluster_nextAge (s : State) (c : Nat) (x : Cluster) : (s.setCluster c x).nextAge = s.nextAge := rfl
@[simp] theorem setCluster_turns (s : State) (c : Nat) (x : Cluster) : (s.setCluster c x).turns = s.turns := rfl
@[simp] theorem setCluster_cyc (s : State) (c : Nat) (x : Cluster) : (s.setCluster c x).cyc = s.cyc := rfl

/-! ### setTenant -/

@[simp] theorem setTenant_threads (s : State) (t : Nat) (x : Tenant) : (s.setTenant t x).threads = s.threads := rfl
@[simp] theorem setTenant_groups (s : State) (t : Nat) (x : Tenant) : (s.setTenant t x).groups = s.groups := rfl
@[simp] theorem setTenant_blocks (s : State) (t : Nat) (x : Tenant) : (s.setTenant t x).blocks = s.blocks := rfl
@[simp] theorem setTenant_cores (s : State) (t : Nat) (x : Tenant) : (s.setTenant t x).cores = s.cores := rfl
@[simp] theorem setTenant_clusters (s : State) (t : Nat) (x : Tenant) : (s.setTenant t x).clusters = s.clusters := rfl
@[simp] theorem setTenant_tree (s : State) (t : Nat) (x : Tenant) : (s.setTenant t x).tree = s.tree := rfl
@[simp] theorem setTenant_ops (s : State) (t : Nat) (x : Tenant) : (s.setTenant t x).ops = s.ops := rfl
@[simp] theorem setTenant_io (s : State) (t : Nat) (x : Tenant) : (s.setTenant t x).io = s.io := rfl
@[simp] theorem setTenant_desk (s : State) (t : Nat) (x : Tenant) : (s.setTenant t x).desk = s.desk := rfl
@[simp] theorem setTenant_sec (s : State) (t : Nat) (x : Tenant) : (s.setTenant t x).sec = s.sec := rfl
@[simp] theorem setTenant_mem (s : State) (t : Nat) (x : Tenant) : (s.setTenant t x).mem = s.mem := rfl
@[simp] theorem setTenant_poison (s : State) (t : Nat) (x : Tenant) : (s.setTenant t x).poison = s.poison := rfl
@[simp] theorem setTenant_eccCount (s : State) (t : Nat) (x : Tenant) : (s.setTenant t x).eccCount = s.eccCount := rfl
@[simp] theorem setTenant_tlb (s : State) (t : Nat) (x : Tenant) : (s.setTenant t x).tlb = s.tlb := rfl
@[simp] theorem setTenant_inflight (s : State) (t : Nat) (x : Tenant) : (s.setTenant t x).inflight = s.inflight := rfl
@[simp] theorem setTenant_rowSeq (s : State) (t : Nat) (x : Tenant) : (s.setTenant t x).rowSeq = s.rowSeq := rfl
@[simp] theorem setTenant_nextId (s : State) (t : Nat) (x : Tenant) : (s.setTenant t x).nextId = s.nextId := rfl
@[simp] theorem setTenant_freeCtr (s : State) (t : Nat) (x : Tenant) : (s.setTenant t x).freeCtr = s.freeCtr := rfl
@[simp] theorem setTenant_nextAge (s : State) (t : Nat) (x : Tenant) : (s.setTenant t x).nextAge = s.nextAge := rfl
@[simp] theorem setTenant_turns (s : State) (t : Nat) (x : Tenant) : (s.setTenant t x).turns = s.turns := rfl
@[simp] theorem setTenant_cyc (s : State) (t : Nat) (x : Tenant) : (s.setTenant t x).cyc = s.cyc := rfl

/-! ### setSluice -/

@[simp] theorem setSluice_threads (s : State) (n : Nat) (x : Sluice) : (s.setSluice n x).threads = s.threads := rfl
@[simp] theorem setSluice_groups (s : State) (n : Nat) (x : Sluice) : (s.setSluice n x).groups = s.groups := rfl
@[simp] theorem setSluice_blocks (s : State) (n : Nat) (x : Sluice) : (s.setSluice n x).blocks = s.blocks := rfl
@[simp] theorem setSluice_cores (s : State) (n : Nat) (x : Sluice) : (s.setSluice n x).cores = s.cores := rfl
@[simp] theorem setSluice_clusters (s : State) (n : Nat) (x : Sluice) : (s.setSluice n x).clusters = s.clusters := rfl
@[simp] theorem setSluice_tenants (s : State) (n : Nat) (x : Sluice) : (s.setSluice n x).tenants = s.tenants := rfl
@[simp] theorem setSluice_ops (s : State) (n : Nat) (x : Sluice) : (s.setSluice n x).ops = s.ops := rfl
@[simp] theorem setSluice_io (s : State) (n : Nat) (x : Sluice) : (s.setSluice n x).io = s.io := rfl
@[simp] theorem setSluice_desk (s : State) (n : Nat) (x : Sluice) : (s.setSluice n x).desk = s.desk := rfl
@[simp] theorem setSluice_sec (s : State) (n : Nat) (x : Sluice) : (s.setSluice n x).sec = s.sec := rfl
@[simp] theorem setSluice_mem (s : State) (n : Nat) (x : Sluice) : (s.setSluice n x).mem = s.mem := rfl
@[simp] theorem setSluice_poison (s : State) (n : Nat) (x : Sluice) : (s.setSluice n x).poison = s.poison := rfl
@[simp] theorem setSluice_eccCount (s : State) (n : Nat) (x : Sluice) : (s.setSluice n x).eccCount = s.eccCount := rfl
@[simp] theorem setSluice_tlb (s : State) (n : Nat) (x : Sluice) : (s.setSluice n x).tlb = s.tlb := rfl
@[simp] theorem setSluice_inflight (s : State) (n : Nat) (x : Sluice) : (s.setSluice n x).inflight = s.inflight := rfl
@[simp] theorem setSluice_rowSeq (s : State) (n : Nat) (x : Sluice) : (s.setSluice n x).rowSeq = s.rowSeq := rfl
@[simp] theorem setSluice_nextId (s : State) (n : Nat) (x : Sluice) : (s.setSluice n x).nextId = s.nextId := rfl
@[simp] theorem setSluice_freeCtr (s : State) (n : Nat) (x : Sluice) : (s.setSluice n x).freeCtr = s.freeCtr := rfl
@[simp] theorem setSluice_nextAge (s : State) (n : Nat) (x : Sluice) : (s.setSluice n x).nextAge = s.nextAge := rfl
@[simp] theorem setSluice_turns (s : State) (n : Nat) (x : Sluice) : (s.setSluice n x).turns = s.turns := rfl
@[simp] theorem setSluice_cyc (s : State) (n : Nat) (x : Sluice) : (s.setSluice n x).cyc = s.cyc := rfl

/-! ### setThread -/

@[simp] theorem setThread_groups (s : State) (k : Nat) (x : Thread) : (s.setThread k x).groups = s.groups := rfl
@[simp] theorem setThread_blocks (s : State) (k : Nat) (x : Thread) : (s.setThread k x).blocks = s.blocks := rfl
@[simp] theorem setThread_cores (s : State) (k : Nat) (x : Thread) : (s.setThread k x).cores = s.cores := rfl
@[simp] theorem setThread_clusters (s : State) (k : Nat) (x : Thread) : (s.setThread k x).clusters = s.clusters := rfl
@[simp] theorem setThread_tenants (s : State) (k : Nat) (x : Thread) : (s.setThread k x).tenants = s.tenants := rfl
@[simp] theorem setThread_tree (s : State) (k : Nat) (x : Thread) : (s.setThread k x).tree = s.tree := rfl
@[simp] theorem setThread_ops (s : State) (k : Nat) (x : Thread) : (s.setThread k x).ops = s.ops := rfl
@[simp] theorem setThread_io (s : State) (k : Nat) (x : Thread) : (s.setThread k x).io = s.io := rfl
@[simp] theorem setThread_desk (s : State) (k : Nat) (x : Thread) : (s.setThread k x).desk = s.desk := rfl
@[simp] theorem setThread_sec (s : State) (k : Nat) (x : Thread) : (s.setThread k x).sec = s.sec := rfl
@[simp] theorem setThread_mem (s : State) (k : Nat) (x : Thread) : (s.setThread k x).mem = s.mem := rfl
@[simp] theorem setThread_poison (s : State) (k : Nat) (x : Thread) : (s.setThread k x).poison = s.poison := rfl
@[simp] theorem setThread_eccCount (s : State) (k : Nat) (x : Thread) : (s.setThread k x).eccCount = s.eccCount := rfl
@[simp] theorem setThread_tlb (s : State) (k : Nat) (x : Thread) : (s.setThread k x).tlb = s.tlb := rfl
@[simp] theorem setThread_inflight (s : State) (k : Nat) (x : Thread) : (s.setThread k x).inflight = s.inflight := rfl
@[simp] theorem setThread_rowSeq (s : State) (k : Nat) (x : Thread) : (s.setThread k x).rowSeq = s.rowSeq := rfl
@[simp] theorem setThread_nextId (s : State) (k : Nat) (x : Thread) : (s.setThread k x).nextId = s.nextId := rfl
@[simp] theorem setThread_freeCtr (s : State) (k : Nat) (x : Thread) : (s.setThread k x).freeCtr = s.freeCtr := rfl
@[simp] theorem setThread_nextAge (s : State) (k : Nat) (x : Thread) : (s.setThread k x).nextAge = s.nextAge := rfl
@[simp] theorem setThread_turns (s : State) (k : Nat) (x : Thread) : (s.setThread k x).turns = s.turns := rfl
@[simp] theorem setThread_cyc (s : State) (k : Nat) (x : Thread) : (s.setThread k x).cyc = s.cyc := rfl

/-! ### setGroup -/

@[simp] theorem setGroup_threads (s : State) (k : Nat) (x : Group) : (s.setGroup k x).threads = s.threads := rfl
@[simp] theorem setGroup_blocks (s : State) (k : Nat) (x : Group) : (s.setGroup k x).blocks = s.blocks := rfl
@[simp] theorem setGroup_cores (s : State) (k : Nat) (x : Group) : (s.setGroup k x).cores = s.cores := rfl
@[simp] theorem setGroup_clusters (s : State) (k : Nat) (x : Group) : (s.setGroup k x).clusters = s.clusters := rfl
@[simp] theorem setGroup_tenants (s : State) (k : Nat) (x : Group) : (s.setGroup k x).tenants = s.tenants := rfl
@[simp] theorem setGroup_tree (s : State) (k : Nat) (x : Group) : (s.setGroup k x).tree = s.tree := rfl
@[simp] theorem setGroup_ops (s : State) (k : Nat) (x : Group) : (s.setGroup k x).ops = s.ops := rfl
@[simp] theorem setGroup_io (s : State) (k : Nat) (x : Group) : (s.setGroup k x).io = s.io := rfl
@[simp] theorem setGroup_desk (s : State) (k : Nat) (x : Group) : (s.setGroup k x).desk = s.desk := rfl
@[simp] theorem setGroup_sec (s : State) (k : Nat) (x : Group) : (s.setGroup k x).sec = s.sec := rfl
@[simp] theorem setGroup_mem (s : State) (k : Nat) (x : Group) : (s.setGroup k x).mem = s.mem := rfl
@[simp] theorem setGroup_poison (s : State) (k : Nat) (x : Group) : (s.setGroup k x).poison = s.poison := rfl
@[simp] theorem setGroup_eccCount (s : State) (k : Nat) (x : Group) : (s.setGroup k x).eccCount = s.eccCount := rfl
@[simp] theorem setGroup_tlb (s : State) (k : Nat) (x : Group) : (s.setGroup k x).tlb = s.tlb := rfl
@[simp] theorem setGroup_inflight (s : State) (k : Nat) (x : Group) : (s.setGroup k x).inflight = s.inflight := rfl
@[simp] theorem setGroup_rowSeq (s : State) (k : Nat) (x : Group) : (s.setGroup k x).rowSeq = s.rowSeq := rfl
@[simp] theorem setGroup_nextId (s : State) (k : Nat) (x : Group) : (s.setGroup k x).nextId = s.nextId := rfl
@[simp] theorem setGroup_freeCtr (s : State) (k : Nat) (x : Group) : (s.setGroup k x).freeCtr = s.freeCtr := rfl
@[simp] theorem setGroup_nextAge (s : State) (k : Nat) (x : Group) : (s.setGroup k x).nextAge = s.nextAge := rfl
@[simp] theorem setGroup_turns (s : State) (k : Nat) (x : Group) : (s.setGroup k x).turns = s.turns := rfl
@[simp] theorem setGroup_cyc (s : State) (k : Nat) (x : Group) : (s.setGroup k x).cyc = s.cyc := rfl

/-! ### setBlock -/

@[simp] theorem setBlock_threads (s : State) (k : Nat) (x : Block) : (s.setBlock k x).threads = s.threads := rfl
@[simp] theorem setBlock_groups (s : State) (k : Nat) (x : Block) : (s.setBlock k x).groups = s.groups := rfl
@[simp] theorem setBlock_cores (s : State) (k : Nat) (x : Block) : (s.setBlock k x).cores = s.cores := rfl
@[simp] theorem setBlock_clusters (s : State) (k : Nat) (x : Block) : (s.setBlock k x).clusters = s.clusters := rfl
@[simp] theorem setBlock_tenants (s : State) (k : Nat) (x : Block) : (s.setBlock k x).tenants = s.tenants := rfl
@[simp] theorem setBlock_tree (s : State) (k : Nat) (x : Block) : (s.setBlock k x).tree = s.tree := rfl
@[simp] theorem setBlock_ops (s : State) (k : Nat) (x : Block) : (s.setBlock k x).ops = s.ops := rfl
@[simp] theorem setBlock_io (s : State) (k : Nat) (x : Block) : (s.setBlock k x).io = s.io := rfl
@[simp] theorem setBlock_desk (s : State) (k : Nat) (x : Block) : (s.setBlock k x).desk = s.desk := rfl
@[simp] theorem setBlock_sec (s : State) (k : Nat) (x : Block) : (s.setBlock k x).sec = s.sec := rfl
@[simp] theorem setBlock_mem (s : State) (k : Nat) (x : Block) : (s.setBlock k x).mem = s.mem := rfl
@[simp] theorem setBlock_poison (s : State) (k : Nat) (x : Block) : (s.setBlock k x).poison = s.poison := rfl
@[simp] theorem setBlock_eccCount (s : State) (k : Nat) (x : Block) : (s.setBlock k x).eccCount = s.eccCount := rfl
@[simp] theorem setBlock_tlb (s : State) (k : Nat) (x : Block) : (s.setBlock k x).tlb = s.tlb := rfl
@[simp] theorem setBlock_inflight (s : State) (k : Nat) (x : Block) : (s.setBlock k x).inflight = s.inflight := rfl
@[simp] theorem setBlock_rowSeq (s : State) (k : Nat) (x : Block) : (s.setBlock k x).rowSeq = s.rowSeq := rfl
@[simp] theorem setBlock_nextId (s : State) (k : Nat) (x : Block) : (s.setBlock k x).nextId = s.nextId := rfl
@[simp] theorem setBlock_freeCtr (s : State) (k : Nat) (x : Block) : (s.setBlock k x).freeCtr = s.freeCtr := rfl
@[simp] theorem setBlock_nextAge (s : State) (k : Nat) (x : Block) : (s.setBlock k x).nextAge = s.nextAge := rfl
@[simp] theorem setBlock_turns (s : State) (k : Nat) (x : Block) : (s.setBlock k x).turns = s.turns := rfl
@[simp] theorem setBlock_cyc (s : State) (k : Nat) (x : Block) : (s.setBlock k x).cyc = s.cyc := rfl

/-! ### modThread -/

@[simp] theorem modThread_groups (s : State) (k : Nat) (f : Thread → Thread) : (s.modThread k f).groups = s.groups := by
  unfold modThread; split <;> rfl
@[simp] theorem modThread_blocks (s : State) (k : Nat) (f : Thread → Thread) : (s.modThread k f).blocks = s.blocks := by
  unfold modThread; split <;> rfl
@[simp] theorem modThread_cores (s : State) (k : Nat) (f : Thread → Thread) : (s.modThread k f).cores = s.cores := by
  unfold modThread; split <;> rfl
@[simp] theorem modThread_clusters (s : State) (k : Nat) (f : Thread → Thread) : (s.modThread k f).clusters = s.clusters := by
  unfold modThread; split <;> rfl
@[simp] theorem modThread_tenants (s : State) (k : Nat) (f : Thread → Thread) : (s.modThread k f).tenants = s.tenants := by
  unfold modThread; split <;> rfl
@[simp] theorem modThread_tree (s : State) (k : Nat) (f : Thread → Thread) : (s.modThread k f).tree = s.tree := by
  unfold modThread; split <;> rfl
@[simp] theorem modThread_ops (s : State) (k : Nat) (f : Thread → Thread) : (s.modThread k f).ops = s.ops := by
  unfold modThread; split <;> rfl
@[simp] theorem modThread_io (s : State) (k : Nat) (f : Thread → Thread) : (s.modThread k f).io = s.io := by
  unfold modThread; split <;> rfl
@[simp] theorem modThread_desk (s : State) (k : Nat) (f : Thread → Thread) : (s.modThread k f).desk = s.desk := by
  unfold modThread; split <;> rfl
@[simp] theorem modThread_sec (s : State) (k : Nat) (f : Thread → Thread) : (s.modThread k f).sec = s.sec := by
  unfold modThread; split <;> rfl
@[simp] theorem modThread_mem (s : State) (k : Nat) (f : Thread → Thread) : (s.modThread k f).mem = s.mem := by
  unfold modThread; split <;> rfl
@[simp] theorem modThread_poison (s : State) (k : Nat) (f : Thread → Thread) : (s.modThread k f).poison = s.poison := by
  unfold modThread; split <;> rfl
@[simp] theorem modThread_eccCount (s : State) (k : Nat) (f : Thread → Thread) : (s.modThread k f).eccCount = s.eccCount := by
  unfold modThread; split <;> rfl
@[simp] theorem modThread_tlb (s : State) (k : Nat) (f : Thread → Thread) : (s.modThread k f).tlb = s.tlb := by
  unfold modThread; split <;> rfl
@[simp] theorem modThread_inflight (s : State) (k : Nat) (f : Thread → Thread) : (s.modThread k f).inflight = s.inflight := by
  unfold modThread; split <;> rfl
@[simp] theorem modThread_rowSeq (s : State) (k : Nat) (f : Thread → Thread) : (s.modThread k f).rowSeq = s.rowSeq := by
  unfold modThread; split <;> rfl
@[simp] theorem modThread_nextId (s : State) (k : Nat) (f : Thread → Thread) : (s.modThread k f).nextId = s.nextId := by
  unfold modThread; split <;> rfl
@[simp] theorem modThread_freeCtr (s : State) (k : Nat) (f : Thread → Thread) : (s.modThread k f).freeCtr = s.freeCtr := by
  unfold modThread; split <;> rfl
@[simp] theorem modThread_nextAge (s : State) (k : Nat) (f : Thread → Thread) : (s.modThread k f).nextAge = s.nextAge := by
  unfold modThread; split <;> rfl
@[simp] theorem modThread_turns (s : State) (k : Nat) (f : Thread → Thread) : (s.modThread k f).turns = s.turns := by
  unfold modThread; split <;> rfl
@[simp] theorem modThread_cyc (s : State) (k : Nat) (f : Thread → Thread) : (s.modThread k f).cyc = s.cyc := by
  unfold modThread; split <;> rfl

/-! ### modGroup -/

@[simp] theorem modGroup_threads (s : State) (k : Nat) (f : Group → Group) : (s.modGroup k f).threads = s.threads := by
  unfold modGroup; split <;> rfl
@[simp] theorem modGroup_blocks (s : State) (k : Nat) (f : Group → Group) : (s.modGroup k f).blocks = s.blocks := by
  unfold modGroup; split <;> rfl
@[simp] theorem modGroup_cores (s : State) (k : Nat) (f : Group → Group) : (s.modGroup k f).cores = s.cores := by
  unfold modGroup; split <;> rfl
@[simp] theorem modGroup_clusters (s : State) (k : Nat) (f : Group → Group) : (s.modGroup k f).clusters = s.clusters := by
  unfold modGroup; split <;> rfl
@[simp] theorem modGroup_tenants (s : State) (k : Nat) (f : Group → Group) : (s.modGroup k f).tenants = s.tenants := by
  unfold modGroup; split <;> rfl
@[simp] theorem modGroup_tree (s : State) (k : Nat) (f : Group → Group) : (s.modGroup k f).tree = s.tree := by
  unfold modGroup; split <;> rfl
@[simp] theorem modGroup_ops (s : State) (k : Nat) (f : Group → Group) : (s.modGroup k f).ops = s.ops := by
  unfold modGroup; split <;> rfl
@[simp] theorem modGroup_io (s : State) (k : Nat) (f : Group → Group) : (s.modGroup k f).io = s.io := by
  unfold modGroup; split <;> rfl
@[simp] theorem modGroup_desk (s : State) (k : Nat) (f : Group → Group) : (s.modGroup k f).desk = s.desk := by
  unfold modGroup; split <;> rfl
@[simp] theorem modGroup_sec (s : State) (k : Nat) (f : Group → Group) : (s.modGroup k f).sec = s.sec := by
  unfold modGroup; split <;> rfl
@[simp] theorem modGroup_mem (s : State) (k : Nat) (f : Group → Group) : (s.modGroup k f).mem = s.mem := by
  unfold modGroup; split <;> rfl
@[simp] theorem modGroup_poison (s : State) (k : Nat) (f : Group → Group) : (s.modGroup k f).poison = s.poison := by
  unfold modGroup; split <;> rfl
@[simp] theorem modGroup_eccCount (s : State) (k : Nat) (f : Group → Group) : (s.modGroup k f).eccCount = s.eccCount := by
  unfold modGroup; split <;> rfl
@[simp] theorem modGroup_tlb (s : State) (k : Nat) (f : Group → Group) : (s.modGroup k f).tlb = s.tlb := by
  unfold modGroup; split <;> rfl
@[simp] theorem modGroup_inflight (s : State) (k : Nat) (f : Group → Group) : (s.modGroup k f).inflight = s.inflight := by
  unfold modGroup; split <;> rfl
@[simp] theorem modGroup_rowSeq (s : State) (k : Nat) (f : Group → Group) : (s.modGroup k f).rowSeq = s.rowSeq := by
  unfold modGroup; split <;> rfl
@[simp] theorem modGroup_nextId (s : State) (k : Nat) (f : Group → Group) : (s.modGroup k f).nextId = s.nextId := by
  unfold modGroup; split <;> rfl
@[simp] theorem modGroup_freeCtr (s : State) (k : Nat) (f : Group → Group) : (s.modGroup k f).freeCtr = s.freeCtr := by
  unfold modGroup; split <;> rfl
@[simp] theorem modGroup_nextAge (s : State) (k : Nat) (f : Group → Group) : (s.modGroup k f).nextAge = s.nextAge := by
  unfold modGroup; split <;> rfl
@[simp] theorem modGroup_turns (s : State) (k : Nat) (f : Group → Group) : (s.modGroup k f).turns = s.turns := by
  unfold modGroup; split <;> rfl
@[simp] theorem modGroup_cyc (s : State) (k : Nat) (f : Group → Group) : (s.modGroup k f).cyc = s.cyc := by
  unfold modGroup; split <;> rfl

/-! ### modBlock -/

@[simp] theorem modBlock_threads (s : State) (k : Nat) (f : Block → Block) : (s.modBlock k f).threads = s.threads := by
  unfold modBlock; split <;> rfl
@[simp] theorem modBlock_groups (s : State) (k : Nat) (f : Block → Block) : (s.modBlock k f).groups = s.groups := by
  unfold modBlock; split <;> rfl
@[simp] theorem modBlock_cores (s : State) (k : Nat) (f : Block → Block) : (s.modBlock k f).cores = s.cores := by
  unfold modBlock; split <;> rfl
@[simp] theorem modBlock_clusters (s : State) (k : Nat) (f : Block → Block) : (s.modBlock k f).clusters = s.clusters := by
  unfold modBlock; split <;> rfl
@[simp] theorem modBlock_tenants (s : State) (k : Nat) (f : Block → Block) : (s.modBlock k f).tenants = s.tenants := by
  unfold modBlock; split <;> rfl
@[simp] theorem modBlock_tree (s : State) (k : Nat) (f : Block → Block) : (s.modBlock k f).tree = s.tree := by
  unfold modBlock; split <;> rfl
@[simp] theorem modBlock_ops (s : State) (k : Nat) (f : Block → Block) : (s.modBlock k f).ops = s.ops := by
  unfold modBlock; split <;> rfl
@[simp] theorem modBlock_io (s : State) (k : Nat) (f : Block → Block) : (s.modBlock k f).io = s.io := by
  unfold modBlock; split <;> rfl
@[simp] theorem modBlock_desk (s : State) (k : Nat) (f : Block → Block) : (s.modBlock k f).desk = s.desk := by
  unfold modBlock; split <;> rfl
@[simp] theorem modBlock_sec (s : State) (k : Nat) (f : Block → Block) : (s.modBlock k f).sec = s.sec := by
  unfold modBlock; split <;> rfl
@[simp] theorem modBlock_mem (s : State) (k : Nat) (f : Block → Block) : (s.modBlock k f).mem = s.mem := by
  unfold modBlock; split <;> rfl
@[simp] theorem modBlock_poison (s : State) (k : Nat) (f : Block → Block) : (s.modBlock k f).poison = s.poison := by
  unfold modBlock; split <;> rfl
@[simp] theorem modBlock_eccCount (s : State) (k : Nat) (f : Block → Block) : (s.modBlock k f).eccCount = s.eccCount := by
  unfold modBlock; split <;> rfl
@[simp] theorem modBlock_tlb (s : State) (k : Nat) (f : Block → Block) : (s.modBlock k f).tlb = s.tlb := by
  unfold modBlock; split <;> rfl
@[simp] theorem modBlock_inflight (s : State) (k : Nat) (f : Block → Block) : (s.modBlock k f).inflight = s.inflight := by
  unfold modBlock; split <;> rfl
@[simp] theorem modBlock_rowSeq (s : State) (k : Nat) (f : Block → Block) : (s.modBlock k f).rowSeq = s.rowSeq := by
  unfold modBlock; split <;> rfl
@[simp] theorem modBlock_nextId (s : State) (k : Nat) (f : Block → Block) : (s.modBlock k f).nextId = s.nextId := by
  unfold modBlock; split <;> rfl
@[simp] theorem modBlock_freeCtr (s : State) (k : Nat) (f : Block → Block) : (s.modBlock k f).freeCtr = s.freeCtr := by
  unfold modBlock; split <;> rfl
@[simp] theorem modBlock_nextAge (s : State) (k : Nat) (f : Block → Block) : (s.modBlock k f).nextAge = s.nextAge := by
  unfold modBlock; split <;> rfl
@[simp] theorem modBlock_turns (s : State) (k : Nat) (f : Block → Block) : (s.modBlock k f).turns = s.turns := by
  unfold modBlock; split <;> rfl
@[simp] theorem modBlock_cyc (s : State) (k : Nat) (f : Block → Block) : (s.modBlock k f).cyc = s.cyc := by
  unfold modBlock; split <;> rfl

/-! ### modCore -/

@[simp] theorem modCore_threads (s : State) (c : Nat) (f : Core → Core) : (s.modCore c f).threads = s.threads := rfl
@[simp] theorem modCore_groups (s : State) (c : Nat) (f : Core → Core) : (s.modCore c f).groups = s.groups := rfl
@[simp] theorem modCore_blocks (s : State) (c : Nat) (f : Core → Core) : (s.modCore c f).blocks = s.blocks := rfl
@[simp] theorem modCore_clusters (s : State) (c : Nat) (f : Core → Core) : (s.modCore c f).clusters = s.clusters := rfl
@[simp] theorem modCore_tenants (s : State) (c : Nat) (f : Core → Core) : (s.modCore c f).tenants = s.tenants := rfl
@[simp] theorem modCore_tree (s : State) (c : Nat) (f : Core → Core) : (s.modCore c f).tree = s.tree := rfl
@[simp] theorem modCore_ops (s : State) (c : Nat) (f : Core → Core) : (s.modCore c f).ops = s.ops := rfl
@[simp] theorem modCore_io (s : State) (c : Nat) (f : Core → Core) : (s.modCore c f).io = s.io := rfl
@[simp] theorem modCore_desk (s : State) (c : Nat) (f : Core → Core) : (s.modCore c f).desk = s.desk := rfl
@[simp] theorem modCore_sec (s : State) (c : Nat) (f : Core → Core) : (s.modCore c f).sec = s.sec := rfl
@[simp] theorem modCore_mem (s : State) (c : Nat) (f : Core → Core) : (s.modCore c f).mem = s.mem := rfl
@[simp] theorem modCore_poison (s : State) (c : Nat) (f : Core → Core) : (s.modCore c f).poison = s.poison := rfl
@[simp] theorem modCore_eccCount (s : State) (c : Nat) (f : Core → Core) : (s.modCore c f).eccCount = s.eccCount := rfl
@[simp] theorem modCore_tlb (s : State) (c : Nat) (f : Core → Core) : (s.modCore c f).tlb = s.tlb := rfl
@[simp] theorem modCore_inflight (s : State) (c : Nat) (f : Core → Core) : (s.modCore c f).inflight = s.inflight := rfl
@[simp] theorem modCore_rowSeq (s : State) (c : Nat) (f : Core → Core) : (s.modCore c f).rowSeq = s.rowSeq := rfl
@[simp] theorem modCore_nextId (s : State) (c : Nat) (f : Core → Core) : (s.modCore c f).nextId = s.nextId := rfl
@[simp] theorem modCore_freeCtr (s : State) (c : Nat) (f : Core → Core) : (s.modCore c f).freeCtr = s.freeCtr := rfl
@[simp] theorem modCore_nextAge (s : State) (c : Nat) (f : Core → Core) : (s.modCore c f).nextAge = s.nextAge := rfl
@[simp] theorem modCore_turns (s : State) (c : Nat) (f : Core → Core) : (s.modCore c f).turns = s.turns := rfl
@[simp] theorem modCore_cyc (s : State) (c : Nat) (f : Core → Core) : (s.modCore c f).cyc = s.cyc := rfl

/-! ### modCluster -/

@[simp] theorem modCluster_threads (s : State) (c : Nat) (f : Cluster → Cluster) : (s.modCluster c f).threads = s.threads := rfl
@[simp] theorem modCluster_groups (s : State) (c : Nat) (f : Cluster → Cluster) : (s.modCluster c f).groups = s.groups := rfl
@[simp] theorem modCluster_blocks (s : State) (c : Nat) (f : Cluster → Cluster) : (s.modCluster c f).blocks = s.blocks := rfl
@[simp] theorem modCluster_cores (s : State) (c : Nat) (f : Cluster → Cluster) : (s.modCluster c f).cores = s.cores := rfl
@[simp] theorem modCluster_tenants (s : State) (c : Nat) (f : Cluster → Cluster) : (s.modCluster c f).tenants = s.tenants := rfl
@[simp] theorem modCluster_tree (s : State) (c : Nat) (f : Cluster → Cluster) : (s.modCluster c f).tree = s.tree := rfl
@[simp] theorem modCluster_ops (s : State) (c : Nat) (f : Cluster → Cluster) : (s.modCluster c f).ops = s.ops := rfl
@[simp] theorem modCluster_io (s : State) (c : Nat) (f : Cluster → Cluster) : (s.modCluster c f).io = s.io := rfl
@[simp] theorem modCluster_desk (s : State) (c : Nat) (f : Cluster → Cluster) : (s.modCluster c f).desk = s.desk := rfl
@[simp] theorem modCluster_sec (s : State) (c : Nat) (f : Cluster → Cluster) : (s.modCluster c f).sec = s.sec := rfl
@[simp] theorem modCluster_mem (s : State) (c : Nat) (f : Cluster → Cluster) : (s.modCluster c f).mem = s.mem := rfl
@[simp] theorem modCluster_poison (s : State) (c : Nat) (f : Cluster → Cluster) : (s.modCluster c f).poison = s.poison := rfl
@[simp] theorem modCluster_eccCount (s : State) (c : Nat) (f : Cluster → Cluster) : (s.modCluster c f).eccCount = s.eccCount := rfl
@[simp] theorem modCluster_tlb (s : State) (c : Nat) (f : Cluster → Cluster) : (s.modCluster c f).tlb = s.tlb := rfl
@[simp] theorem modCluster_inflight (s : State) (c : Nat) (f : Cluster → Cluster) : (s.modCluster c f).inflight = s.inflight := rfl
@[simp] theorem modCluster_rowSeq (s : State) (c : Nat) (f : Cluster → Cluster) : (s.modCluster c f).rowSeq = s.rowSeq := rfl
@[simp] theorem modCluster_nextId (s : State) (c : Nat) (f : Cluster → Cluster) : (s.modCluster c f).nextId = s.nextId := rfl
@[simp] theorem modCluster_freeCtr (s : State) (c : Nat) (f : Cluster → Cluster) : (s.modCluster c f).freeCtr = s.freeCtr := rfl
@[simp] theorem modCluster_nextAge (s : State) (c : Nat) (f : Cluster → Cluster) : (s.modCluster c f).nextAge = s.nextAge := rfl
@[simp] theorem modCluster_turns (s : State) (c : Nat) (f : Cluster → Cluster) : (s.modCluster c f).turns = s.turns := rfl
@[simp] theorem modCluster_cyc (s : State) (c : Nat) (f : Cluster → Cluster) : (s.modCluster c f).cyc = s.cyc := rfl

/-! ### modTenant -/

@[simp] theorem modTenant_threads (s : State) (t : Nat) (f : Tenant → Tenant) : (s.modTenant t f).threads = s.threads := rfl
@[simp] theorem modTenant_groups (s : State) (t : Nat) (f : Tenant → Tenant) : (s.modTenant t f).groups = s.groups := rfl
@[simp] theorem modTenant_blocks (s : State) (t : Nat) (f : Tenant → Tenant) : (s.modTenant t f).blocks = s.blocks := rfl
@[simp] theorem modTenant_cores (s : State) (t : Nat) (f : Tenant → Tenant) : (s.modTenant t f).cores = s.cores := rfl
@[simp] theorem modTenant_clusters (s : State) (t : Nat) (f : Tenant → Tenant) : (s.modTenant t f).clusters = s.clusters := rfl
@[simp] theorem modTenant_tree (s : State) (t : Nat) (f : Tenant → Tenant) : (s.modTenant t f).tree = s.tree := rfl
@[simp] theorem modTenant_ops (s : State) (t : Nat) (f : Tenant → Tenant) : (s.modTenant t f).ops = s.ops := rfl
@[simp] theorem modTenant_io (s : State) (t : Nat) (f : Tenant → Tenant) : (s.modTenant t f).io = s.io := rfl
@[simp] theorem modTenant_desk (s : State) (t : Nat) (f : Tenant → Tenant) : (s.modTenant t f).desk = s.desk := rfl
@[simp] theorem modTenant_sec (s : State) (t : Nat) (f : Tenant → Tenant) : (s.modTenant t f).sec = s.sec := rfl
@[simp] theorem modTenant_mem (s : State) (t : Nat) (f : Tenant → Tenant) : (s.modTenant t f).mem = s.mem := rfl
@[simp] theorem modTenant_poison (s : State) (t : Nat) (f : Tenant → Tenant) : (s.modTenant t f).poison = s.poison := rfl
@[simp] theorem modTenant_eccCount (s : State) (t : Nat) (f : Tenant → Tenant) : (s.modTenant t f).eccCount = s.eccCount := rfl
@[simp] theorem modTenant_tlb (s : State) (t : Nat) (f : Tenant → Tenant) : (s.modTenant t f).tlb = s.tlb := rfl
@[simp] theorem modTenant_inflight (s : State) (t : Nat) (f : Tenant → Tenant) : (s.modTenant t f).inflight = s.inflight := rfl
@[simp] theorem modTenant_rowSeq (s : State) (t : Nat) (f : Tenant → Tenant) : (s.modTenant t f).rowSeq = s.rowSeq := rfl
@[simp] theorem modTenant_nextId (s : State) (t : Nat) (f : Tenant → Tenant) : (s.modTenant t f).nextId = s.nextId := rfl
@[simp] theorem modTenant_freeCtr (s : State) (t : Nat) (f : Tenant → Tenant) : (s.modTenant t f).freeCtr = s.freeCtr := rfl
@[simp] theorem modTenant_nextAge (s : State) (t : Nat) (f : Tenant → Tenant) : (s.modTenant t f).nextAge = s.nextAge := rfl
@[simp] theorem modTenant_turns (s : State) (t : Nat) (f : Tenant → Tenant) : (s.modTenant t f).turns = s.turns := rfl
@[simp] theorem modTenant_cyc (s : State) (t : Nat) (f : Tenant → Tenant) : (s.modTenant t f).cyc = s.cyc := rfl

/-! ### modSluice -/

@[simp] theorem modSluice_threads (s : State) (n : Nat) (f : Sluice → Sluice) : (s.modSluice n f).threads = s.threads := rfl
@[simp] theorem modSluice_groups (s : State) (n : Nat) (f : Sluice → Sluice) : (s.modSluice n f).groups = s.groups := rfl
@[simp] theorem modSluice_blocks (s : State) (n : Nat) (f : Sluice → Sluice) : (s.modSluice n f).blocks = s.blocks := rfl
@[simp] theorem modSluice_cores (s : State) (n : Nat) (f : Sluice → Sluice) : (s.modSluice n f).cores = s.cores := rfl
@[simp] theorem modSluice_clusters (s : State) (n : Nat) (f : Sluice → Sluice) : (s.modSluice n f).clusters = s.clusters := rfl
@[simp] theorem modSluice_tenants (s : State) (n : Nat) (f : Sluice → Sluice) : (s.modSluice n f).tenants = s.tenants := rfl
@[simp] theorem modSluice_ops (s : State) (n : Nat) (f : Sluice → Sluice) : (s.modSluice n f).ops = s.ops := rfl
@[simp] theorem modSluice_io (s : State) (n : Nat) (f : Sluice → Sluice) : (s.modSluice n f).io = s.io := rfl
@[simp] theorem modSluice_desk (s : State) (n : Nat) (f : Sluice → Sluice) : (s.modSluice n f).desk = s.desk := rfl
@[simp] theorem modSluice_sec (s : State) (n : Nat) (f : Sluice → Sluice) : (s.modSluice n f).sec = s.sec := rfl
@[simp] theorem modSluice_mem (s : State) (n : Nat) (f : Sluice → Sluice) : (s.modSluice n f).mem = s.mem := rfl
@[simp] theorem modSluice_poison (s : State) (n : Nat) (f : Sluice → Sluice) : (s.modSluice n f).poison = s.poison := rfl
@[simp] theorem modSluice_eccCount (s : State) (n : Nat) (f : Sluice → Sluice) : (s.modSluice n f).eccCount = s.eccCount := rfl
@[simp] theorem modSluice_tlb (s : State) (n : Nat) (f : Sluice → Sluice) : (s.modSluice n f).tlb = s.tlb := rfl
@[simp] theorem modSluice_inflight (s : State) (n : Nat) (f : Sluice → Sluice) : (s.modSluice n f).inflight = s.inflight := rfl
@[simp] theorem modSluice_rowSeq (s : State) (n : Nat) (f : Sluice → Sluice) : (s.modSluice n f).rowSeq = s.rowSeq := rfl
@[simp] theorem modSluice_nextId (s : State) (n : Nat) (f : Sluice → Sluice) : (s.modSluice n f).nextId = s.nextId := rfl
@[simp] theorem modSluice_freeCtr (s : State) (n : Nat) (f : Sluice → Sluice) : (s.modSluice n f).freeCtr = s.freeCtr := rfl
@[simp] theorem modSluice_nextAge (s : State) (n : Nat) (f : Sluice → Sluice) : (s.modSluice n f).nextAge = s.nextAge := rfl
@[simp] theorem modSluice_turns (s : State) (n : Nat) (f : Sluice → Sluice) : (s.modSluice n f).turns = s.turns := rfl
@[simp] theorem modSluice_cyc (s : State) (n : Nat) (f : Sluice → Sluice) : (s.modSluice n f).cyc = s.cyc := rfl

/-! ### modOp -/

@[simp] theorem modOp_threads (s : State) (k : Nat) (f : EngOp → EngOp) : (s.modOp k f).threads = s.threads := by
  unfold modOp; split <;> rfl
@[simp] theorem modOp_groups (s : State) (k : Nat) (f : EngOp → EngOp) : (s.modOp k f).groups = s.groups := by
  unfold modOp; split <;> rfl
@[simp] theorem modOp_blocks (s : State) (k : Nat) (f : EngOp → EngOp) : (s.modOp k f).blocks = s.blocks := by
  unfold modOp; split <;> rfl
@[simp] theorem modOp_cores (s : State) (k : Nat) (f : EngOp → EngOp) : (s.modOp k f).cores = s.cores := by
  unfold modOp; split <;> rfl
@[simp] theorem modOp_clusters (s : State) (k : Nat) (f : EngOp → EngOp) : (s.modOp k f).clusters = s.clusters := by
  unfold modOp; split <;> rfl
@[simp] theorem modOp_tenants (s : State) (k : Nat) (f : EngOp → EngOp) : (s.modOp k f).tenants = s.tenants := by
  unfold modOp; split <;> rfl
@[simp] theorem modOp_tree (s : State) (k : Nat) (f : EngOp → EngOp) : (s.modOp k f).tree = s.tree := by
  unfold modOp; split <;> rfl
@[simp] theorem modOp_io (s : State) (k : Nat) (f : EngOp → EngOp) : (s.modOp k f).io = s.io := by
  unfold modOp; split <;> rfl
@[simp] theorem modOp_desk (s : State) (k : Nat) (f : EngOp → EngOp) : (s.modOp k f).desk = s.desk := by
  unfold modOp; split <;> rfl
@[simp] theorem modOp_sec (s : State) (k : Nat) (f : EngOp → EngOp) : (s.modOp k f).sec = s.sec := by
  unfold modOp; split <;> rfl
@[simp] theorem modOp_mem (s : State) (k : Nat) (f : EngOp → EngOp) : (s.modOp k f).mem = s.mem := by
  unfold modOp; split <;> rfl
@[simp] theorem modOp_poison (s : State) (k : Nat) (f : EngOp → EngOp) : (s.modOp k f).poison = s.poison := by
  unfold modOp; split <;> rfl
@[simp] theorem modOp_eccCount (s : State) (k : Nat) (f : EngOp → EngOp) : (s.modOp k f).eccCount = s.eccCount := by
  unfold modOp; split <;> rfl
@[simp] theorem modOp_tlb (s : State) (k : Nat) (f : EngOp → EngOp) : (s.modOp k f).tlb = s.tlb := by
  unfold modOp; split <;> rfl
@[simp] theorem modOp_inflight (s : State) (k : Nat) (f : EngOp → EngOp) : (s.modOp k f).inflight = s.inflight := by
  unfold modOp; split <;> rfl
@[simp] theorem modOp_rowSeq (s : State) (k : Nat) (f : EngOp → EngOp) : (s.modOp k f).rowSeq = s.rowSeq := by
  unfold modOp; split <;> rfl
@[simp] theorem modOp_nextId (s : State) (k : Nat) (f : EngOp → EngOp) : (s.modOp k f).nextId = s.nextId := by
  unfold modOp; split <;> rfl
@[simp] theorem modOp_freeCtr (s : State) (k : Nat) (f : EngOp → EngOp) : (s.modOp k f).freeCtr = s.freeCtr := by
  unfold modOp; split <;> rfl
@[simp] theorem modOp_nextAge (s : State) (k : Nat) (f : EngOp → EngOp) : (s.modOp k f).nextAge = s.nextAge := by
  unfold modOp; split <;> rfl
@[simp] theorem modOp_turns (s : State) (k : Nat) (f : EngOp → EngOp) : (s.modOp k f).turns = s.turns := by
  unfold modOp; split <;> rfl
@[simp] theorem modOp_cyc (s : State) (k : Nat) (f : EngOp → EngOp) : (s.modOp k f).cyc = s.cyc := by
  unfold modOp; split <;> rfl

/-! ### modTree -/

@[simp] theorem modTree_threads (s : State) (f : Tree → Tree) : (s.modTree f).threads = s.threads := rfl
@[simp] theorem modTree_groups (s : State) (f : Tree → Tree) : (s.modTree f).groups = s.groups := rfl
@[simp] theorem modTree_blocks (s : State) (f : Tree → Tree) : (s.modTree f).blocks = s.blocks := rfl
@[simp] theorem modTree_cores (s : State) (f : Tree → Tree) : (s.modTree f).cores = s.cores := rfl
@[simp] theorem modTree_clusters (s : State) (f : Tree → Tree) : (s.modTree f).clusters = s.clusters := rfl
@[simp] theorem modTree_tenants (s : State) (f : Tree → Tree) : (s.modTree f).tenants = s.tenants := rfl
@[simp] theorem modTree_ops (s : State) (f : Tree → Tree) : (s.modTree f).ops = s.ops := rfl
@[simp] theorem modTree_io (s : State) (f : Tree → Tree) : (s.modTree f).io = s.io := rfl
@[simp] theorem modTree_desk (s : State) (f : Tree → Tree) : (s.modTree f).desk = s.desk := rfl
@[simp] theorem modTree_sec (s : State) (f : Tree → Tree) : (s.modTree f).sec = s.sec := rfl
@[simp] theorem modTree_mem (s : State) (f : Tree → Tree) : (s.modTree f).mem = s.mem := rfl
@[simp] theorem modTree_poison (s : State) (f : Tree → Tree) : (s.modTree f).poison = s.poison := rfl
@[simp] theorem modTree_eccCount (s : State) (f : Tree → Tree) : (s.modTree f).eccCount = s.eccCount := rfl
@[simp] theorem modTree_tlb (s : State) (f : Tree → Tree) : (s.modTree f).tlb = s.tlb := rfl
@[simp] theorem modTree_inflight (s : State) (f : Tree → Tree) : (s.modTree f).inflight = s.inflight := rfl
@[simp] theorem modTree_rowSeq (s : State) (f : Tree → Tree) : (s.modTree f).rowSeq = s.rowSeq := rfl
@[simp] theorem modTree_nextId (s : State) (f : Tree → Tree) : (s.modTree f).nextId = s.nextId := rfl
@[simp] theorem modTree_freeCtr (s : State) (f : Tree → Tree) : (s.modTree f).freeCtr = s.freeCtr := rfl
@[simp] theorem modTree_nextAge (s : State) (f : Tree → Tree) : (s.modTree f).nextAge = s.nextAge := rfl
@[simp] theorem modTree_turns (s : State) (f : Tree → Tree) : (s.modTree f).turns = s.turns := rfl
@[simp] theorem modTree_cyc (s : State) (f : Tree → Tree) : (s.modTree f).cyc = s.cyc := rfl
@[simp] theorem modTree_tree (s : State) (f : Tree → Tree) : (s.modTree f).tree = f s.tree := rfl

/-! ### modIo -/

@[simp] theorem modIo_threads (s : State) (f : Io → Io) : (s.modIo f).threads = s.threads := rfl
@[simp] theorem modIo_groups (s : State) (f : Io → Io) : (s.modIo f).groups = s.groups := rfl
@[simp] theorem modIo_blocks (s : State) (f : Io → Io) : (s.modIo f).blocks = s.blocks := rfl
@[simp] theorem modIo_cores (s : State) (f : Io → Io) : (s.modIo f).cores = s.cores := rfl
@[simp] theorem modIo_clusters (s : State) (f : Io → Io) : (s.modIo f).clusters = s.clusters := rfl
@[simp] theorem modIo_tenants (s : State) (f : Io → Io) : (s.modIo f).tenants = s.tenants := rfl
@[simp] theorem modIo_tree (s : State) (f : Io → Io) : (s.modIo f).tree = s.tree := rfl
@[simp] theorem modIo_ops (s : State) (f : Io → Io) : (s.modIo f).ops = s.ops := rfl
@[simp] theorem modIo_desk (s : State) (f : Io → Io) : (s.modIo f).desk = s.desk := rfl
@[simp] theorem modIo_sec (s : State) (f : Io → Io) : (s.modIo f).sec = s.sec := rfl
@[simp] theorem modIo_mem (s : State) (f : Io → Io) : (s.modIo f).mem = s.mem := rfl
@[simp] theorem modIo_poison (s : State) (f : Io → Io) : (s.modIo f).poison = s.poison := rfl
@[simp] theorem modIo_eccCount (s : State) (f : Io → Io) : (s.modIo f).eccCount = s.eccCount := rfl
@[simp] theorem modIo_tlb (s : State) (f : Io → Io) : (s.modIo f).tlb = s.tlb := rfl
@[simp] theorem modIo_inflight (s : State) (f : Io → Io) : (s.modIo f).inflight = s.inflight := rfl
@[simp] theorem modIo_rowSeq (s : State) (f : Io → Io) : (s.modIo f).rowSeq = s.rowSeq := rfl
@[simp] theorem modIo_nextId (s : State) (f : Io → Io) : (s.modIo f).nextId = s.nextId := rfl
@[simp] theorem modIo_freeCtr (s : State) (f : Io → Io) : (s.modIo f).freeCtr = s.freeCtr := rfl
@[simp] theorem modIo_nextAge (s : State) (f : Io → Io) : (s.modIo f).nextAge = s.nextAge := rfl
@[simp] theorem modIo_turns (s : State) (f : Io → Io) : (s.modIo f).turns = s.turns := rfl
@[simp] theorem modIo_cyc (s : State) (f : Io → Io) : (s.modIo f).cyc = s.cyc := rfl
@[simp] theorem modIo_io (s : State) (f : Io → Io) : (s.modIo f).io = f s.io := rfl

/-! ### modDesk -/

@[simp] theorem modDesk_threads (s : State) (f : Desk → Desk) : (s.modDesk f).threads = s.threads := rfl
@[simp] theorem modDesk_groups (s : State) (f : Desk → Desk) : (s.modDesk f).groups = s.groups := rfl
@[simp] theorem modDesk_blocks (s : State) (f : Desk → Desk) : (s.modDesk f).blocks = s.blocks := rfl
@[simp] theorem modDesk_cores (s : State) (f : Desk → Desk) : (s.modDesk f).cores = s.cores := rfl
@[simp] theorem modDesk_clusters (s : State) (f : Desk → Desk) : (s.modDesk f).clusters = s.clusters := rfl
@[simp] theorem modDesk_tenants (s : State) (f : Desk → Desk) : (s.modDesk f).tenants = s.tenants := rfl
@[simp] theorem modDesk_tree (s : State) (f : Desk → Desk) : (s.modDesk f).tree = s.tree := rfl
@[simp] theorem modDesk_ops (s : State) (f : Desk → Desk) : (s.modDesk f).ops = s.ops := rfl
@[simp] theorem modDesk_io (s : State) (f : Desk → Desk) : (s.modDesk f).io = s.io := rfl
@[simp] theorem modDesk_sec (s : State) (f : Desk → Desk) : (s.modDesk f).sec = s.sec := rfl
@[simp] theorem modDesk_mem (s : State) (f : Desk → Desk) : (s.modDesk f).mem = s.mem := rfl
@[simp] theorem modDesk_poison (s : State) (f : Desk → Desk) : (s.modDesk f).poison = s.poison := rfl
@[simp] theorem modDesk_eccCount (s : State) (f : Desk → Desk) : (s.modDesk f).eccCount = s.eccCount := rfl
@[simp] theorem modDesk_tlb (s : State) (f : Desk → Desk) : (s.modDesk f).tlb = s.tlb := rfl
@[simp] theorem modDesk_inflight (s : State) (f : Desk → Desk) : (s.modDesk f).inflight = s.inflight := rfl
@[simp] theorem modDesk_rowSeq (s : State) (f : Desk → Desk) : (s.modDesk f).rowSeq = s.rowSeq := rfl
@[simp] theorem modDesk_nextId (s : State) (f : Desk → Desk) : (s.modDesk f).nextId = s.nextId := rfl
@[simp] theorem modDesk_freeCtr (s : State) (f : Desk → Desk) : (s.modDesk f).freeCtr = s.freeCtr := rfl
@[simp] theorem modDesk_nextAge (s : State) (f : Desk → Desk) : (s.modDesk f).nextAge = s.nextAge := rfl
@[simp] theorem modDesk_turns (s : State) (f : Desk → Desk) : (s.modDesk f).turns = s.turns := rfl
@[simp] theorem modDesk_cyc (s : State) (f : Desk → Desk) : (s.modDesk f).cyc = s.cyc := rfl
@[simp] theorem modDesk_desk (s : State) (f : Desk → Desk) : (s.modDesk f).desk = f s.desk := rfl

/-! ### modSec -/

@[simp] theorem modSec_threads (s : State) (f : Sec → Sec) : (s.modSec f).threads = s.threads := rfl
@[simp] theorem modSec_groups (s : State) (f : Sec → Sec) : (s.modSec f).groups = s.groups := rfl
@[simp] theorem modSec_blocks (s : State) (f : Sec → Sec) : (s.modSec f).blocks = s.blocks := rfl
@[simp] theorem modSec_cores (s : State) (f : Sec → Sec) : (s.modSec f).cores = s.cores := rfl
@[simp] theorem modSec_clusters (s : State) (f : Sec → Sec) : (s.modSec f).clusters = s.clusters := rfl
@[simp] theorem modSec_tenants (s : State) (f : Sec → Sec) : (s.modSec f).tenants = s.tenants := rfl
@[simp] theorem modSec_tree (s : State) (f : Sec → Sec) : (s.modSec f).tree = s.tree := rfl
@[simp] theorem modSec_ops (s : State) (f : Sec → Sec) : (s.modSec f).ops = s.ops := rfl
@[simp] theorem modSec_io (s : State) (f : Sec → Sec) : (s.modSec f).io = s.io := rfl
@[simp] theorem modSec_desk (s : State) (f : Sec → Sec) : (s.modSec f).desk = s.desk := rfl
@[simp] theorem modSec_mem (s : State) (f : Sec → Sec) : (s.modSec f).mem = s.mem := rfl
@[simp] theorem modSec_poison (s : State) (f : Sec → Sec) : (s.modSec f).poison = s.poison := rfl
@[simp] theorem modSec_eccCount (s : State) (f : Sec → Sec) : (s.modSec f).eccCount = s.eccCount := rfl
@[simp] theorem modSec_tlb (s : State) (f : Sec → Sec) : (s.modSec f).tlb = s.tlb := rfl
@[simp] theorem modSec_inflight (s : State) (f : Sec → Sec) : (s.modSec f).inflight = s.inflight := rfl
@[simp] theorem modSec_rowSeq (s : State) (f : Sec → Sec) : (s.modSec f).rowSeq = s.rowSeq := rfl
@[simp] theorem modSec_nextId (s : State) (f : Sec → Sec) : (s.modSec f).nextId = s.nextId := rfl
@[simp] theorem modSec_freeCtr (s : State) (f : Sec → Sec) : (s.modSec f).freeCtr = s.freeCtr := rfl
@[simp] theorem modSec_nextAge (s : State) (f : Sec → Sec) : (s.modSec f).nextAge = s.nextAge := rfl
@[simp] theorem modSec_turns (s : State) (f : Sec → Sec) : (s.modSec f).turns = s.turns := rfl
@[simp] theorem modSec_cyc (s : State) (f : Sec → Sec) : (s.modSec f).cyc = s.cyc := rfl
@[simp] theorem modSec_sec (s : State) (f : Sec → Sec) : (s.modSec f).sec = f s.sec := rfl

/-! ### modCyc -/

@[simp] theorem modCyc_threads (s : State) (f : Cyc → Cyc) : (s.modCyc f).threads = s.threads := by
  unfold modCyc; split <;> rfl
@[simp] theorem modCyc_groups (s : State) (f : Cyc → Cyc) : (s.modCyc f).groups = s.groups := by
  unfold modCyc; split <;> rfl
@[simp] theorem modCyc_blocks (s : State) (f : Cyc → Cyc) : (s.modCyc f).blocks = s.blocks := by
  unfold modCyc; split <;> rfl
@[simp] theorem modCyc_cores (s : State) (f : Cyc → Cyc) : (s.modCyc f).cores = s.cores := by
  unfold modCyc; split <;> rfl
@[simp] theorem modCyc_clusters (s : State) (f : Cyc → Cyc) : (s.modCyc f).clusters = s.clusters := by
  unfold modCyc; split <;> rfl
@[simp] theorem modCyc_tenants (s : State) (f : Cyc → Cyc) : (s.modCyc f).tenants = s.tenants := by
  unfold modCyc; split <;> rfl
@[simp] theorem modCyc_tree (s : State) (f : Cyc → Cyc) : (s.modCyc f).tree = s.tree := by
  unfold modCyc; split <;> rfl
@[simp] theorem modCyc_ops (s : State) (f : Cyc → Cyc) : (s.modCyc f).ops = s.ops := by
  unfold modCyc; split <;> rfl
@[simp] theorem modCyc_io (s : State) (f : Cyc → Cyc) : (s.modCyc f).io = s.io := by
  unfold modCyc; split <;> rfl
@[simp] theorem modCyc_desk (s : State) (f : Cyc → Cyc) : (s.modCyc f).desk = s.desk := by
  unfold modCyc; split <;> rfl
@[simp] theorem modCyc_sec (s : State) (f : Cyc → Cyc) : (s.modCyc f).sec = s.sec := by
  unfold modCyc; split <;> rfl
@[simp] theorem modCyc_mem (s : State) (f : Cyc → Cyc) : (s.modCyc f).mem = s.mem := by
  unfold modCyc; split <;> rfl
@[simp] theorem modCyc_poison (s : State) (f : Cyc → Cyc) : (s.modCyc f).poison = s.poison := by
  unfold modCyc; split <;> rfl
@[simp] theorem modCyc_eccCount (s : State) (f : Cyc → Cyc) : (s.modCyc f).eccCount = s.eccCount := by
  unfold modCyc; split <;> rfl
@[simp] theorem modCyc_tlb (s : State) (f : Cyc → Cyc) : (s.modCyc f).tlb = s.tlb := by
  unfold modCyc; split <;> rfl
@[simp] theorem modCyc_inflight (s : State) (f : Cyc → Cyc) : (s.modCyc f).inflight = s.inflight := by
  unfold modCyc; split <;> rfl
@[simp] theorem modCyc_rowSeq (s : State) (f : Cyc → Cyc) : (s.modCyc f).rowSeq = s.rowSeq := by
  unfold modCyc; split <;> rfl
@[simp] theorem modCyc_nextId (s : State) (f : Cyc → Cyc) : (s.modCyc f).nextId = s.nextId := by
  unfold modCyc; split <;> rfl
@[simp] theorem modCyc_freeCtr (s : State) (f : Cyc → Cyc) : (s.modCyc f).freeCtr = s.freeCtr := by
  unfold modCyc; split <;> rfl
@[simp] theorem modCyc_nextAge (s : State) (f : Cyc → Cyc) : (s.modCyc f).nextAge = s.nextAge := by
  unfold modCyc; split <;> rfl
@[simp] theorem modCyc_turns (s : State) (f : Cyc → Cyc) : (s.modCyc f).turns = s.turns := by
  unfold modCyc; split <;> rfl

/-! ### modEntry -/

@[simp] theorem modEntry_threads (s : State) (i : Nat) (f : Entry → Entry) : (s.modEntry i f).threads = s.threads := by
  unfold modEntry; split <;> rfl
@[simp] theorem modEntry_groups (s : State) (i : Nat) (f : Entry → Entry) : (s.modEntry i f).groups = s.groups := by
  unfold modEntry; split <;> rfl
@[simp] theorem modEntry_blocks (s : State) (i : Nat) (f : Entry → Entry) : (s.modEntry i f).blocks = s.blocks := by
  unfold modEntry; split <;> rfl
@[simp] theorem modEntry_cores (s : State) (i : Nat) (f : Entry → Entry) : (s.modEntry i f).cores = s.cores := by
  unfold modEntry; split <;> rfl
@[simp] theorem modEntry_clusters (s : State) (i : Nat) (f : Entry → Entry) : (s.modEntry i f).clusters = s.clusters := by
  unfold modEntry; split <;> rfl
@[simp] theorem modEntry_tenants (s : State) (i : Nat) (f : Entry → Entry) : (s.modEntry i f).tenants = s.tenants := by
  unfold modEntry; split <;> rfl
@[simp] theorem modEntry_ops (s : State) (i : Nat) (f : Entry → Entry) : (s.modEntry i f).ops = s.ops := by
  unfold modEntry; split <;> rfl
@[simp] theorem modEntry_io (s : State) (i : Nat) (f : Entry → Entry) : (s.modEntry i f).io = s.io := by
  unfold modEntry; split <;> rfl
@[simp] theorem modEntry_desk (s : State) (i : Nat) (f : Entry → Entry) : (s.modEntry i f).desk = s.desk := by
  unfold modEntry; split <;> rfl
@[simp] theorem modEntry_sec (s : State) (i : Nat) (f : Entry → Entry) : (s.modEntry i f).sec = s.sec := by
  unfold modEntry; split <;> rfl
@[simp] theorem modEntry_mem (s : State) (i : Nat) (f : Entry → Entry) : (s.modEntry i f).mem = s.mem := by
  unfold modEntry; split <;> rfl
@[simp] theorem modEntry_poison (s : State) (i : Nat) (f : Entry → Entry) : (s.modEntry i f).poison = s.poison := by
  unfold modEntry; split <;> rfl
@[simp] theorem modEntry_eccCount (s : State) (i : Nat) (f : Entry → Entry) : (s.modEntry i f).eccCount = s.eccCount := by
  unfold modEntry; split <;> rfl
@[simp] theorem modEntry_tlb (s : State) (i : Nat) (f : Entry → Entry) : (s.modEntry i f).tlb = s.tlb := by
  unfold modEntry; split <;> rfl
@[simp] theorem modEntry_inflight (s : State) (i : Nat) (f : Entry → Entry) : (s.modEntry i f).inflight = s.inflight := by
  unfold modEntry; split <;> rfl
@[simp] theorem modEntry_rowSeq (s : State) (i : Nat) (f : Entry → Entry) : (s.modEntry i f).rowSeq = s.rowSeq := by
  unfold modEntry; split <;> rfl
@[simp] theorem modEntry_nextId (s : State) (i : Nat) (f : Entry → Entry) : (s.modEntry i f).nextId = s.nextId := by
  unfold modEntry; split <;> rfl
@[simp] theorem modEntry_freeCtr (s : State) (i : Nat) (f : Entry → Entry) : (s.modEntry i f).freeCtr = s.freeCtr := by
  unfold modEntry; split <;> rfl
@[simp] theorem modEntry_nextAge (s : State) (i : Nat) (f : Entry → Entry) : (s.modEntry i f).nextAge = s.nextAge := by
  unfold modEntry; split <;> rfl
@[simp] theorem modEntry_turns (s : State) (i : Nat) (f : Entry → Entry) : (s.modEntry i f).turns = s.turns := by
  unfold modEntry; split <;> rfl
@[simp] theorem modEntry_cyc (s : State) (i : Nat) (f : Entry → Entry) : (s.modEntry i f).cyc = s.cyc := by
  unfold modEntry; split <;> rfl

/-! ### drawn -/

@[simp] theorem drawn_threads (s : State) : (s.drawn).threads = s.threads := rfl
@[simp] theorem drawn_groups (s : State) : (s.drawn).groups = s.groups := rfl
@[simp] theorem drawn_blocks (s : State) : (s.drawn).blocks = s.blocks := rfl
@[simp] theorem drawn_cores (s : State) : (s.drawn).cores = s.cores := rfl
@[simp] theorem drawn_clusters (s : State) : (s.drawn).clusters = s.clusters := rfl
@[simp] theorem drawn_tenants (s : State) : (s.drawn).tenants = s.tenants := rfl
@[simp] theorem drawn_tree (s : State) : (s.drawn).tree = s.tree := rfl
@[simp] theorem drawn_ops (s : State) : (s.drawn).ops = s.ops := rfl
@[simp] theorem drawn_io (s : State) : (s.drawn).io = s.io := rfl
@[simp] theorem drawn_desk (s : State) : (s.drawn).desk = s.desk := rfl
@[simp] theorem drawn_sec (s : State) : (s.drawn).sec = s.sec := rfl
@[simp] theorem drawn_mem (s : State) : (s.drawn).mem = s.mem := rfl
@[simp] theorem drawn_poison (s : State) : (s.drawn).poison = s.poison := rfl
@[simp] theorem drawn_eccCount (s : State) : (s.drawn).eccCount = s.eccCount := rfl
@[simp] theorem drawn_tlb (s : State) : (s.drawn).tlb = s.tlb := rfl
@[simp] theorem drawn_inflight (s : State) : (s.drawn).inflight = s.inflight := rfl
@[simp] theorem drawn_rowSeq (s : State) : (s.drawn).rowSeq = s.rowSeq := rfl
@[simp] theorem drawn_nextId (s : State) : (s.drawn).nextId = s.nextId := rfl
@[simp] theorem drawn_nextAge (s : State) : (s.drawn).nextAge = s.nextAge := rfl
@[simp] theorem drawn_turns (s : State) : (s.drawn).turns = s.turns := rfl
@[simp] theorem drawn_cyc (s : State) : (s.drawn).cyc = s.cyc := rfl

/-! ### bumpId -/

@[simp] theorem bumpId_threads (s : State) : (s.bumpId).threads = s.threads := rfl
@[simp] theorem bumpId_groups (s : State) : (s.bumpId).groups = s.groups := rfl
@[simp] theorem bumpId_blocks (s : State) : (s.bumpId).blocks = s.blocks := rfl
@[simp] theorem bumpId_cores (s : State) : (s.bumpId).cores = s.cores := rfl
@[simp] theorem bumpId_clusters (s : State) : (s.bumpId).clusters = s.clusters := rfl
@[simp] theorem bumpId_tenants (s : State) : (s.bumpId).tenants = s.tenants := rfl
@[simp] theorem bumpId_tree (s : State) : (s.bumpId).tree = s.tree := rfl
@[simp] theorem bumpId_ops (s : State) : (s.bumpId).ops = s.ops := rfl
@[simp] theorem bumpId_io (s : State) : (s.bumpId).io = s.io := rfl
@[simp] theorem bumpId_desk (s : State) : (s.bumpId).desk = s.desk := rfl
@[simp] theorem bumpId_sec (s : State) : (s.bumpId).sec = s.sec := rfl
@[simp] theorem bumpId_mem (s : State) : (s.bumpId).mem = s.mem := rfl
@[simp] theorem bumpId_poison (s : State) : (s.bumpId).poison = s.poison := rfl
@[simp] theorem bumpId_eccCount (s : State) : (s.bumpId).eccCount = s.eccCount := rfl
@[simp] theorem bumpId_tlb (s : State) : (s.bumpId).tlb = s.tlb := rfl
@[simp] theorem bumpId_inflight (s : State) : (s.bumpId).inflight = s.inflight := rfl
@[simp] theorem bumpId_rowSeq (s : State) : (s.bumpId).rowSeq = s.rowSeq := rfl
@[simp] theorem bumpId_freeCtr (s : State) : (s.bumpId).freeCtr = s.freeCtr := rfl
@[simp] theorem bumpId_nextAge (s : State) : (s.bumpId).nextAge = s.nextAge := rfl
@[simp] theorem bumpId_turns (s : State) : (s.bumpId).turns = s.turns := rfl
@[simp] theorem bumpId_cyc (s : State) : (s.bumpId).cyc = s.cyc := rfl

/-! ### Reading a part back -/

@[simp] theorem threads_setThread (s : State) (k : Nat) (x : Thread) (j : Nat) :
    (s.setThread k x).threads.find j = if j = k then some x else s.threads.find j := NMap.find_set _ _ _ _

@[simp] theorem groups_setGroup (s : State) (k : Nat) (x : Group) (j : Nat) :
    (s.setGroup k x).groups.find j = if j = k then some x else s.groups.find j := NMap.find_set _ _ _ _

@[simp] theorem blocks_setBlock (s : State) (k : Nat) (x : Block) (j : Nat) :
    (s.setBlock k x).blocks.find j = if j = k then some x else s.blocks.find j := NMap.find_set _ _ _ _

theorem threads_modThread (s : State) (k : Nat) (f : Thread → Thread) (j : Nat) :
    (s.modThread k f).threads.find j = if j = k then (s.threads.find k).map f else s.threads.find j := by
  unfold modThread
  split
  · rename_i th h
    simp [h]
  · rename_i h
    split
    · rename_i e
      simp [e, h]
    · rfl

theorem groups_modGroup (s : State) (k : Nat) (f : Group → Group) (j : Nat) :
    (s.modGroup k f).groups.find j = if j = k then (s.groups.find k).map f else s.groups.find j := by
  unfold modGroup
  split
  · rename_i th h
    simp [h]
  · rename_i h
    split
    · rename_i e
      simp [e, h]
    · rfl

theorem blocks_modBlock (s : State) (k : Nat) (f : Block → Block) (j : Nat) :
    (s.modBlock k f).blocks.find j = if j = k then (s.blocks.find k).map f else s.blocks.find j := by
  unfold modBlock
  split
  · rename_i th h
    simp [h]
  · rename_i h
    split
    · rename_i e
      simp [e, h]
    · rfl

@[simp] theorem core_setCore (s : State) (c : Nat) (x : Core) : (s.setCore c x).core c = x :=
  NMap.getD_put_self _ _ _ _

theorem core_setCore_other (s : State) {c d : Nat} (x : Core) (h : d ≠ c) : (s.setCore c x).core d = s.core d :=
  NMap.getD_put_other _ _ _ _ h

@[simp] theorem core_modCore (s : State) (c : Nat) (f : Core → Core) : (s.modCore c f).core c = f (s.core c) :=
  core_setCore _ _ _

theorem core_modCore_other (s : State) {c d : Nat} (f : Core → Core) (h : d ≠ c) :
    (s.modCore c f).core d = s.core d := core_setCore_other _ _ h

@[simp] theorem cluster_setCluster (s : State) (c : Nat) (x : Cluster) : (s.setCluster c x).cluster c = x :=
  NMap.getD_put_self _ _ _ _

theorem cluster_setCluster_other (s : State) {c d : Nat} (x : Cluster) (h : d ≠ c) :
    (s.setCluster c x).cluster d = s.cluster d := NMap.getD_put_other _ _ _ _ h

@[simp] theorem cluster_modCluster (s : State) (c : Nat) (f : Cluster → Cluster) :
    (s.modCluster c f).cluster c = f (s.cluster c) := cluster_setCluster _ _ _

theorem cluster_modCluster_other (s : State) {c d : Nat} (f : Cluster → Cluster) (h : d ≠ c) :
    (s.modCluster c f).cluster d = s.cluster d := cluster_setCluster_other _ _ h

@[simp] theorem tenant_setTenant (s : State) (t : Nat) (x : Tenant) : (s.setTenant t x).tenant t = x :=
  NMap.getD_put_self _ _ _ _

theorem tenant_setTenant_other (s : State) {t u : Nat} (x : Tenant) (h : u ≠ t) :
    (s.setTenant t x).tenant u = s.tenant u := NMap.getD_put_other _ _ _ _ h

@[simp] theorem tenant_modTenant (s : State) (t : Nat) (f : Tenant → Tenant) :
    (s.modTenant t f).tenant t = f (s.tenant t) := tenant_setTenant _ _ _

theorem tenant_modTenant_other (s : State) {t u : Nat} (f : Tenant → Tenant) (h : u ≠ t) :
    (s.modTenant t f).tenant u = s.tenant u := tenant_setTenant_other _ _ h

@[simp] theorem sluice_setSluice (s : State) (n : Nat) (x : Sluice) : (s.setSluice n x).sluice n = x :=
  NMap.getD_put_self _ _ _ _

theorem sluice_setSluice_other (s : State) {n m : Nat} (x : Sluice) (h : m ≠ n) :
    (s.setSluice n x).sluice m = s.sluice m := NMap.getD_put_other _ _ _ _ h

@[simp] theorem sluice_modSluice (s : State) (n : Nat) (f : Sluice → Sluice) :
    (s.modSluice n f).sluice n = f (s.sluice n) := sluice_setSluice _ _ _

theorem sluice_modSluice_other (s : State) {n m : Nat} (f : Sluice → Sluice) (h : m ≠ n) :
    (s.modSluice n f).sluice m = s.sluice m := sluice_setSluice_other _ _ h

@[simp] theorem cyc_modCyc (s : State) (f : Cyc → Cyc) : (s.modCyc f).cyc = s.cyc.map f := by
  unfold modCyc
  split
  · rename_i c h
    simp [h]
  · rename_i h
    simp [h]

end Sys2Proof.Machine.State
end

