-- ==== Sys2Proof/Laws/Lanes.lean ====
section
/-! SUPPORT. What a lane unit can do (R12, R39, R197): each thread's own part, the unit's end, and nothing else. -/

namespace Sys2Proof.Machine

/-- Where a thread stands after its part of a unit, when its block has a handler and it is not in it. -/
def LaneAct.fate (a : LaneAct) (u : Issue) (handler : Word64) (th : Thread) : Thread :=
  let trapped := fun c v =>
    { th with tepc := u.pc &&& ~~~3, tcause := tcauseOf c, tval := v, pc := handler, st := .ready }
  match a with
  | .run th' => th'
  | .wait w => { th with st := .blocked w }
  | .trap c v => trapped c v
  | .refuse w => trapped 1 (tvalWord w)
  | .park p => { th with st := .parked p }
  | .halt => { th with st := .parked .debug }

/-- The act takes a trap, so that a handler matters. -/
def LaneAct.traps : LaneAct → Bool
  | .trap _ _ => true
  | .refuse _ => true
  | _ => false

theorem takeTrap_handled (s : State) {k : Nat} {th : Thread} (c : Nat) (pc v : Word64)
    (h : s.threads.find k = some th) (hh : th.inHandler = false) (hb : s.handlerOf (blockOf k) ≠ 0) :
    s.takeTrap k c pc v = s.setThread k { th with
      tepc := pc &&& ~~~3, tcause := tcauseOf c, tval := v, pc := s.handlerOf (blockOf k), st := .ready } := by
  simp only [State.takeTrap, h, hh, Bool.false_or, beq_iff_eq, hb, if_false]

/-- One thread's part changes that thread alone. -/
theorem applyAct_eq (u : Issue) (s : State) {k : Nat} {th : Thread} (a : LaneAct)
    (h : s.threads.find k = some th)
    (ht : a.traps = true → th.inHandler = false ∧ s.handlerOf (blockOf k) ≠ 0) :
    applyAct u s (k, a) = s.setThread k (a.fate u (s.handlerOf (blockOf k)) th) := by
  cases a <;> simp only [applyAct, LaneAct.fate, State.modThread, h]
  case trap c v => exact takeTrap_handled s c u.pc v h (ht rfl).1 (ht rfl).2
  case refuse w => exact takeTrap_handled s 1 u.pc _ h (ht rfl).1 (ht rfl).2

/-- The state after the parts of threads, each given its fate: threads changed, nothing else. -/
def State.setThreads (s : State) (l : List (Nat × Thread)) : State :=
  { s with threads := l.foldl (fun m p => m.set p.1 p.2) s.threads }

theorem foldl_applyAct (u : Issue) : ∀ (l : List (Nat × LaneAct)) (s : State) (fate : Nat → Thread),
    (l.map (·.1)).Nodup →
    (∀ p ∈ l, ∃ th, s.threads.find p.1 = some th ∧
      (p.2.traps = true → th.inHandler = false ∧ s.handlerOf (blockOf p.1) ≠ 0) ∧
      fate p.1 = p.2.fate u (s.handlerOf (blockOf p.1)) th) →
    l.foldl (applyAct u) s = s.setThreads (l.map (fun p => (p.1, fate p.1)))
  | [], s, _, _, _ => rfl
  | p :: rest, s, fate, hn, hf => by
    obtain ⟨th, h1, h2, h3⟩ := hf p (List.mem_cons_self ..)
    have hn' := List.nodup_cons.mp hn
    rw [List.foldl_cons, show p = (p.1, p.2) from rfl, applyAct_eq u s p.2 h1 h2, ← h3]
    rw [foldl_applyAct u rest _ fate hn'.2]
    · rfl
    · intro q hq
      obtain ⟨tq, a1, a2, a3⟩ := hf q (List.mem_cons_of_mem _ hq)
      refine ⟨tq, ?_, a2, a3⟩
      have : q.1 ≠ p.1 := fun e => hn'.1 (List.mem_map.mpr ⟨q, hq, e⟩)
      simp [this, a1]

theorem find_setThreads : ∀ (l : List (Nat × Thread)) (s : State) (k : Nat), (l.map (·.1)).Nodup →
    (s.setThreads l).threads.find k =
      match l.find? (fun p => p.1 == k) with
      | some p => some p.2
      | none => s.threads.find k
  | [], _, _, _ => rfl
  | p :: rest, s, k, hn => by
    have hn' := List.nodup_cons.mp hn
    have ih := find_setThreads rest (s.setThread p.1 p.2) k hn'.2
    rw [show s.setThreads (p :: rest) = (s.setThread p.1 p.2).setThreads rest from rfl, ih, List.find?_cons]
    by_cases hk : p.1 = k
    · subst hk
      have : rest.find? (fun q => q.1 == p.1) = none := by
        rw [List.find?_eq_none]
        intro q hq e
        exact hn'.1 (List.mem_map.mpr ⟨q, hq, beq_iff_eq.mp e⟩)
      simp [this]
    · have hk' : (p.1 == k) = false := by simp [hk]
      rw [hk']
      simp [Ne.symm hk]

/-- Two states differ at most in what reports and messages change. -/
def State.notes (s t : State) : State := { s with desk := t.desk, io := t.io, freeCtr := t.freeCtr }

theorem post_rest (s : State) (m : FabMsg) : s.post m = s.notes (s.post m) := by
  unfold State.post
  dsimp only
  split <;> rfl

theorem notes_trans {s t r : State} (h1 : t = s.notes t) (h2 : r = t.notes r) : r = s.notes r := by
  rw [h2, h1]
  rfl

theorem tellTagged_rest (s : State) (d ten : Nat) (b : FabBody) (tag : PktTag) :
    s.tellTagged d ten b tag = s.notes (s.tellTagged d ten b tag) := by
  unfold State.tellTagged State.sendPacket
  split
  · rfl
  · split
    · unfold State.issuePacket
      exact notes_trans rfl (post_rest _ _)
    · rfl

theorem sendMessage_rest (s : State) (src : Nat) (e : IrtEnt) :
    s.sendMessage src e = s.notes (s.sendMessage src e) := by
  unfold State.sendMessage
  split
  · unfold State.sendMsix
    split
    · rfl
    · split <;> rfl
  · unfold State.forwardMessage
    split
    · rfl
    · exact tellTagged_rest _ _ _ _ _

theorem raiseLog_rest (s : State) : s.raiseLog = s.notes s.raiseLog := by
  unfold State.raiseLog State.message
  by_cases h : ((s.irt 24).mask || s.irtRefuses 24) = true
  · rw [if_pos h]
    unfold State.pendIrt
    dsimp only
    split <;> rfl
  · rw [if_neg h]
    exact sendMessage_rest _ _ _

/-- A log entry changes the log and what its interrupt changes. -/
theorem log_rest (s : State) (l : LogEntry) : s.log l = s.notes (s.log l) := by
  unfold State.log
  split
  · exact notes_trans (t := s.logQuiet l) rfl (raiseLog_rest _)
  · rfl

theorem hazard_rest (s : State) (b k : Nat) (pc : Word64) (kind : Nat) (arg : List Nat) :
    s.hazard b k pc kind arg = s.notes (s.hazard b k pc kind arg) := by
  unfold State.hazard
  split
  · exact log_rest _ _
  · rfl

theorem clampReport_rest (s : State) (u : Issue) (ks : List Nat) :
    s.clampReport u ks = s.notes (s.clampReport u ks) := by
  unfold State.clampReport
  split
  · rfl
  · split
    · exact hazard_rest _ _ _ _ _ _
    · rfl

/-- With the debugger off the hazard detector reports nothing (R352). -/
theorem clampReport_off (s : State) (u : Issue) (ks : List Nat) (h : s.dbgOn = false) : s.clampReport u ks = s := by
  unfold State.clampReport
  split
  · rfl
  · split
    · simp [State.hazard, h]
    · rfl

theorem finish_cyc (s : State) (u : Issue) (ks : List Nat) :
    (s.finish u ks).cyc = s.cyc.map (fun c => c.finish u ks u.cls) := by
  unfold State.finish State.finishAs
  rw [State.cyc_modCyc, clampReport_rest]
  rfl

theorem modCyc_rest (s : State) (f : Cyc → Cyc) : s.modCyc f = { s with cyc := (s.modCyc f).cyc } := by
  unfold State.modCyc
  split <;> rfl

/-- The end of a unit changes the cycle under way and what a report changes. -/
theorem finish_rest (s : State) (u : Issue) (ks : List Nat) :
    s.finish u ks = { s.notes (s.finish u ks) with cyc := (s.finish u ks).cyc } := by
  unfold State.finish State.finishAs
  rw [modCyc_rest, clampReport_rest]
  rfl

theorem finish_off (s : State) (u : Issue) (ks : List Nat) (h : s.dbgOn = false) :
    s.finish u ks = s.finishAs u ks u.cls := by
  unfold State.finish
  rw [clampReport_off s u ks h]

theorem keys_laneActs (s : State) (u : Issue) (f : Nat → Thread → LaneAct) : ∀ (ks : List Nat),
    (∀ k ∈ ks, ∃ th, s.threads.find k = some th) →
    (ks.filterMap (fun k => (s.threads.find k).map (fun th => (k, f k th)))).map (·.1) = ks
  | [], _ => rfl
  | k :: rest, h => by
    obtain ⟨th, e⟩ := h k (List.mem_cons_self ..)
    have ih := keys_laneActs s u f rest (fun j hj => h j (List.mem_cons_of_mem _ hj))
    simp [e, ih]

theorem mem_laneActs {s : State} {u : Issue} {f : Nat → Thread → LaneAct} {p : Nat × LaneAct}
    (h : p ∈ laneActs s u f) : p.1 ∈ u.lanes ∧ ∃ th, s.threads.find p.1 = some th ∧ p.2 = f p.1 th := by
  unfold laneActs at h
  obtain ⟨k, hk, e⟩ := List.mem_filterMap.mp h
  obtain ⟨th, e1, e2⟩ := Option.map_eq_some_iff.mp e
  subst e2
  exact ⟨hk, th, e1, rfl⟩

theorem find_fates (ks : List Nat) (g : Nat → Thread) (k : Nat) :
    (ks.map (fun j => (j, g j))).find? (fun p => p.1 == k) = if k ∈ ks then some (k, g k) else none := by
  induction ks with
  | nil => rfl
  | cons j rest ih =>
    rw [List.map_cons, List.find?_cons]
    by_cases hj : j = k
    · subst hj
      simp
    · have hj' : (j == k) = false := by simp [hj]
      simp only [hj']
      rw [ih]
      simp [Ne.symm hj]

/-- What a lane unit can do (R12, R39): each thread meets its fate, no other thread changes, and beyond the threads
only the unit's end shows. -/
theorem laneUnit_eq (s : State) (u : Issue) (f : Issue → Nat → Thread → LaneAct) (hs : Starts s u)
    (ht : ∀ k ∈ u.lanes, ∀ th, s.threads.find k = some th → (f u k th).traps = true → Handled s k th) :
    ∃ m : NMap Thread, laneUnit s f = ({ s with threads := m } : State).finishActs u (laneActs s u (f u)) ∧
      (∀ k ∈ u.lanes, ∀ th, s.threads.find k = some th →
        m.find k = some ((f u k th).fate u (s.handlerOf (blockOf k)) th)) ∧
      (∀ k, k ∉ u.lanes → m.find k = s.threads.find k) := by
  let acts := laneActs s u (f u)
  let fate : Nat → Thread := fun k =>
    match s.threads.find k with
    | some th => (f u k th).fate u (s.handlerOf (blockOf k)) th
    | none => ⟨0, .ready, 0, [], 0, 0, 0, 0, 0, none, 0, []⟩
  have hkeys : acts.map (·.1) = u.lanes := keys_laneActs s u (f u) u.lanes hs.here
  have hfold : acts.foldl (applyAct u) s = s.setThreads (acts.map (fun p => (p.1, fate p.1))) := by
    refine foldl_applyAct u acts s fate (hkeys ▸ hs.once) ?_
    intro p hp
    obtain ⟨hk, th, e1, e2⟩ := mem_laneActs hp
    refine ⟨th, e1, fun h => ?_, by simp [fate, e1, e2]⟩
    have := ht p.1 hk th e1 (e2 ▸ h)
    exact ⟨this.2, this.1⟩
  have hl : acts.map (fun p => (p.1, fate p.1)) = u.lanes.map (fun k => (k, fate k)) := by
    rw [← hkeys, List.map_map]
    rfl
  have hn : ((u.lanes.map (fun k => (k, fate k))).map (·.1)).Nodup := by
    rw [List.map_map]
    simpa [Function.comp_def] using hs.once
  refine ⟨(s.setThreads (u.lanes.map (fun k => (k, fate k)))).threads, ?_, ?_, ?_⟩
  · unfold laneUnit
    rw [hs.head]
    show (acts.foldl (applyAct u) s).finishActs u acts = _
    rw [hfold, hl]
    rfl
  · intro k hk th e
    rw [find_setThreads _ _ _ hn, find_fates]
    simp [hk, fate, e]
  · intro k hk
    rw [find_setThreads _ _ _ hn, find_fates]
    simp [hk]

/-- A unit all of whose threads issue, by running or by a trap that is handled. -/
theorem laneUnit_ran (s : State) (u : Issue) (f : Issue → Nat → Thread → LaneAct)
    (P : Nat → Thread → Thread → Prop) (hs : Starts s u)
    (hf : ∀ k ∈ u.lanes, ∀ th, s.threads.find k = some th →
      (f u k th).issues = true ∧ (f u k th).refused = false ∧ ((f u k th).traps = true → Handled s k th) ∧
        P k th ((f u k th).fate u (s.handlerOf (blockOf k)) th)) :
    Ran s u P (laneUnit s f) := by
  obtain ⟨m, e, h1, h2⟩ := laneUnit_eq s u f hs (fun k hk th hth => (hf k hk th hth).2.2.1)
  have hacts : ∀ p ∈ laneActs s u (f u), p.2.issues = true ∧ p.2.refused = false := fun p hp => by
    obtain ⟨hk, th, e1, e2⟩ := mem_laneActs hp
    rw [e2]
    exact ⟨(hf _ hk th e1).1, (hf _ hk th e1).2.1⟩
  have hfin : laneUnit s f = ({ s with threads := m } : State).finish u u.lanes := by
    rw [e, State.finishActs]
    have h3 : (laneActs s u (f u)).any (fun p => p.2.refused) = false := by
      rw [List.any_eq_false]
      intro p hp
      simp [(hacts p hp).2]
    have h4 : (laneActs s u (f u)).filter (fun p => p.2.issues) = laneActs s u (f u) := by
      rw [List.filter_eq_self]
      exact fun p hp => (hacts p hp).1
    simp only [h3, h4]
    rw [show (laneActs s u (f u)).map (fun x => x.1) = u.lanes from keys_laneActs s u (f u) u.lanes hs.here]
    rfl
  have hth : (laneUnit s f).threads = m := by
    rw [hfin, finish_rest]
    rfl
  refine ⟨?_, ?_, ⟨?_, ?_⟩, ?_⟩
  · intro k hk th hk'
    exact ⟨_, by rw [hth, h1 k hk th hk'], (hf k hk th hk').2.2.2⟩
  · intro k hk
    rw [hth, h2 k hk]
  · rw [hfin, finish_rest]
    rfl
  · intro hd
    rw [hfin, finish_off _ _ _ (by exact hd)]
    unfold State.finishAs
    rw [modCyc_rest]
    exact ⟨rfl, rfl, rfl⟩
  · rw [hfin, finish_cyc]

/-- A thread that passes the checks goes on to the instruction's own part. -/
theorem gate_of_passes {s : State} {use : Use} {u : Issue} {k : Nat} {th : Thread} (h : Passes s use u k th) :
    gate s use u k th = none := by
  have hd : use.dst.any (fun r => !(th.reg r).full) = false := by
    rw [List.any_eq_false]
    intro r hr
    simp [h.dst r hr]
  have hs : ∀ l : List Nat, (∀ r ∈ l, r ∈ use.sources u) → l.any (fun r => !(th.reg r).full) = false := by
    intro l hl
    rw [List.any_eq_false]
    intro r hr
    simp [(h.src r (hl r hr)).1]
  have hp : (use.a ++ use.bRegs u ++ use.cRegs u ++ use.imp).any (fun r => (th.reg r).poison) = false := by
    rw [List.any_eq_false]
    intro r hr
    simp [(h.src r hr).2]
  have hu : ∀ r ∈ (use.uniReg u).toList, (snapSreg s k r).full = true ∧ (snapSreg s k r).poison = false := by
    intro r hr
    exact h.uni r (by simpa using hr)
  have hue : (use.uniReg u).toList.any (fun r => !(snapSreg s k r).full) = false := by
    rw [List.any_eq_false]
    intro r hr
    simp [(hu r hr).1]
  have hup : (use.uniReg u).toList.any (fun r => (snapSreg s k r).poison) = false := by
    rw [List.any_eq_false]
    intro r hr
    simp [(hu r hr).2]
  have ha := hs use.a (fun r hr => by simp [Use.sources, hr])
  have hb := hs (use.bRegs u) (fun r hr => by simp [Use.sources, hr])
  have hc := hs (use.cRegs u) (fun r hr => by simp [Use.sources, hr])
  have hall := hs (use.a ++ use.bRegs u ++ use.cRegs u ++ use.imp) (fun r hr => hr)
  unfold gate
  dsimp only
  rw [h.legal]
  dsimp only
  rw [ha, hb, hc, hall, hd, hue, hp, hup]
  simp

/-- A unit of an instruction with the common checks, all of whose threads pass them, and then run or take a
handled trap. -/
theorem gated_ran (s : State) (use : Use) (u : Issue) (act : Issue → Nat → Thread → LaneAct)
    (P : Nat → Thread → Thread → Prop) (hs : Starts s u) (hp : AllPass s use u)
    (hf : ∀ k ∈ u.lanes, ∀ th, s.threads.find k = some th →
      (act u k th).issues = true ∧ (act u k th).refused = false ∧ ((act u k th).traps = true → Handled s k th) ∧
        P k th ((act u k th).fate u (s.handlerOf (blockOf k)) th)) :
    Ran s u P (gated s use act) := by
  refine laneUnit_ran s u _ P hs fun k hk th e => ?_
  rw [gate_of_passes (hp k hk th e)]
  exact hf k hk th e

/-- The same where every thread runs. -/
theorem gated_run (s : State) (use : Use) (u : Issue) (act : Issue → Nat → Thread → LaneAct)
    (P : Nat → Thread → Thread → Prop) (hs : Starts s u) (hp : AllPass s use u)
    (hf : ∀ k ∈ u.lanes, ∀ th, s.threads.find k = some th → ∃ th', act u k th = .run th' ∧ P k th th') :
    Ran s u P (gated s use act) := by
  refine gated_ran s use u act P hs hp fun k hk th e => ?_
  obtain ⟨th', e1, e2⟩ := hf k hk th e
  rw [e1]
  exact ⟨rfl, rfl, (fun h => nomatch h), e2⟩

/-- Writing a register changes it and no other (R117). -/
theorem reg_setReg (th : Thread) (i : Nat) (r : Reg) (j : Nat) :
    (th.setReg i r).reg j = if j = i then r else th.reg j := by
  unfold Thread.setReg Thread.reg
  by_cases h : j = i
  · subst h
    simp
  · simp [NMap.getD_put_other _ _ _ _ h, h]

theorem wrote_setReg (th : Thread) (i : Nat) (v : Word32) (pc : Word64) :
    Wrote i v pc th ((th.setReg i (Reg.ofVal v)).goto pc) :=
  ⟨fun r => reg_setReg th i _ r, rfl⟩

theorem wrote_setPair (th : Thread) (i : Nat) (v : Word64) (pc : Word64) :
    WrotePair i v pc th ((th.setPair i v).goto pc) := by
  refine ⟨fun r => ?_, rfl⟩
  show ((th.setReg i _).setReg (i + 1) _).reg r = _
  rw [reg_setReg, reg_setReg]
  rfl

/-- A unit of an LR instruction, all of whose threads pass its checks. -/
theorem lrUnit_ran (s : State) (use : Use) (u : Issue) (vd : BitVec 7) (f : LaneVals → Word32) (hs : Starts s u)
    (hp : AllPass s use u) :
    Ran s u (fun k th th' => Wrote vd.toNat (f (laneVals s use u k th)) u.next th th') (lrUnit s use vd f) :=
  gated_run s use u _ _ hs hp fun _ _ th _ => ⟨_, rfl, wrote_setReg th _ _ _⟩

end Sys2Proof.Machine
end

