-- ==== Sys2Proof/Laws/PerInstr.lean ====
section
/-! SUPPORT. For each instruction, that the decoder reads it back from the word that the encoder writes; an event
has no word. -/

namespace Sys2Proof

set_option linter.unusedSimpArgs false

/-- The decoder reads a well-formed instruction back from its word (R83 to R101). -/
def Laws.Encoding.Statement (i : Instr) : Prop :=
  WellFormed i → ∀ w, encode i = some w → decodeWord w = some i

theorem decodeWord_of_fields {w : Word32} {i : Instr} (h : decodeFields w = some i) (hw : WellFormed i) :
    decodeWord w = some i := by
  unfold decodeWord
  rw [h]
  exact if_pos hw

/-- A word is refused or well formed. -/
theorem decodeWord_wf {w : Word32} {i : Instr} (h : decodeWord w = some i) : WellFormed i := by
  unfold decodeWord at h
  split at h
  · split at h
    · rename_i hw
      exact (Option.some.inj h) ▸ hw
    · cases h
  · cases h

theorem ux_low (sub : BitVec 4) (r : BitVec 8) (n : BitVec 12) (i w : Nat) (h : i + w ≤ 12) :
    (sub ++ r ++ n : BitVec 24).extractLsb' i w = n.extractLsb' i w := extract_low _ _ _ _ h

theorem extract_first (p : BitVec 7) (o : BitVec 2) (c : BitVec 3) : (p ++ o ++ c).extractLsb' 5 7 = p := by
  rw [extract_high _ _ _ _ (by decide), extract_top]

theorem extract_mid (p : BitVec 7) (o : BitVec 2) (c : BitVec 3) : (p ++ o ++ c).extractLsb' 3 2 = o := by
  rw [extract_high _ _ _ _ (by decide), extract_bottom]

theorem Laws.Encoding.mod (vc : BitVec 7) (tea : BitVec 1) (teb : BitVec 1) (tec : BitVec 1) (us : BitVec 1) (sidx : BitVec 8) (xmod : BitVec 4) :
    Laws.Encoding.Statement (.mod vc tea teb tec us sidx xmod) := fun h _ hw =>
  Option.some.inj hw ▸ decodeWord_of_fields (by
    simp [decodeFields_laneWord, decodeLane, onlyIf]) h

theorem Laws.Encoding.limm (imm : BitVec 23) :
    Laws.Encoding.Statement (.limm imm) := fun h _ hw =>
  Option.some.inj hw ▸ decodeWord_of_fields (by
    simp [decodeFields_laneWord, decodeLane, onlyIf]) h

theorem Laws.Encoding.add (tc : BitVec 2) (vd : BitVec 7) (va : BitVec 7) (vb : BitVec 7) :
    Laws.Encoding.Statement (.add tc vd va vb) := fun h _ hw =>
  Option.some.inj hw ▸ decodeWord_of_fields (by
    simp [lrWord, decodeFields_laneWord, decodeLane, decodeLR, onlyIf]) h

theorem Laws.Encoding.sub (tc : BitVec 2) (vd : BitVec 7) (va : BitVec 7) (vb : BitVec 7) :
    Laws.Encoding.Statement (.sub tc vd va vb) := fun h _ hw =>
  Option.some.inj hw ▸ decodeWord_of_fields (by
    simp [lrWord, decodeFields_laneWord, decodeLane, decodeLR, onlyIf]) h

theorem Laws.Encoding.min (tc : BitVec 2) (vd : BitVec 7) (va : BitVec 7) (vb : BitVec 7) :
    Laws.Encoding.Statement (.min tc vd va vb) := fun h _ hw =>
  Option.some.inj hw ▸ decodeWord_of_fields (by
    simp [lrWord, decodeFields_laneWord, decodeLane, decodeLR, onlyIf]) h

theorem Laws.Encoding.max (tc : BitVec 2) (vd : BitVec 7) (va : BitVec 7) (vb : BitVec 7) :
    Laws.Encoding.Statement (.max tc vd va vb) := fun h _ hw =>
  Option.some.inj hw ▸ decodeWord_of_fields (by
    simp [lrWord, decodeFields_laneWord, decodeLane, decodeLR, onlyIf]) h

theorem Laws.Encoding.minu (tc : BitVec 2) (vd : BitVec 7) (va : BitVec 7) (vb : BitVec 7) :
    Laws.Encoding.Statement (.minu tc vd va vb) := fun h _ hw =>
  Option.some.inj hw ▸ decodeWord_of_fields (by
    simp [lrWord, decodeFields_laneWord, decodeLane, decodeLR, onlyIf]) h

theorem Laws.Encoding.maxu (tc : BitVec 2) (vd : BitVec 7) (va : BitVec 7) (vb : BitVec 7) :
    Laws.Encoding.Statement (.maxu tc vd va vb) := fun h _ hw =>
  Option.some.inj hw ▸ decodeWord_of_fields (by
    simp [lrWord, decodeFields_laneWord, decodeLane, decodeLR, onlyIf]) h

theorem Laws.Encoding.absd (tc : BitVec 2) (vd : BitVec 7) (va : BitVec 7) (vb : BitVec 7) :
    Laws.Encoding.Statement (.absd tc vd va vb) := fun h _ hw =>
  Option.some.inj hw ▸ decodeWord_of_fields (by
    simp [lrWord, decodeFields_laneWord, decodeLane, decodeLR, onlyIf]) h

theorem Laws.Encoding.addsat (tc : BitVec 2) (vd : BitVec 7) (va : BitVec 7) (vb : BitVec 7) :
    Laws.Encoding.Statement (.addsat tc vd va vb) := fun h _ hw =>
  Option.some.inj hw ▸ decodeWord_of_fields (by
    simp [lrWord, decodeFields_laneWord, decodeLane, decodeLR, onlyIf]) h

theorem Laws.Encoding.and (tc : BitVec 2) (vd : BitVec 7) (va : BitVec 7) (vb : BitVec 7) :
    Laws.Encoding.Statement (.and tc vd va vb) := fun h _ hw =>
  Option.some.inj hw ▸ decodeWord_of_fields (by
    simp [lrWord, decodeFields_laneWord, decodeLane, decodeLR, onlyIf]) h

theorem Laws.Encoding.or (tc : BitVec 2) (vd : BitVec 7) (va : BitVec 7) (vb : BitVec 7) :
    Laws.Encoding.Statement (.or tc vd va vb) := fun h _ hw =>
  Option.some.inj hw ▸ decodeWord_of_fields (by
    simp [lrWord, decodeFields_laneWord, decodeLane, decodeLR, onlyIf]) h

theorem Laws.Encoding.xor (tc : BitVec 2) (vd : BitVec 7) (va : BitVec 7) (vb : BitVec 7) :
    Laws.Encoding.Statement (.xor tc vd va vb) := fun h _ hw =>
  Option.some.inj hw ▸ decodeWord_of_fields (by
    simp [lrWord, decodeFields_laneWord, decodeLane, decodeLR, onlyIf]) h

theorem Laws.Encoding.andn (tc : BitVec 2) (vd : BitVec 7) (va : BitVec 7) (vb : BitVec 7) :
    Laws.Encoding.Statement (.andn tc vd va vb) := fun h _ hw =>
  Option.some.inj hw ▸ decodeWord_of_fields (by
    simp [lrWord, decodeFields_laneWord, decodeLane, decodeLR, onlyIf]) h

theorem Laws.Encoding.shl (tc : BitVec 2) (vd : BitVec 7) (va : BitVec 7) (vb : BitVec 7) :
    Laws.Encoding.Statement (.shl tc vd va vb) := fun h _ hw =>
  Option.some.inj hw ▸ decodeWord_of_fields (by
    simp [lrWord, decodeFields_laneWord, decodeLane, decodeLR, onlyIf]) h

theorem Laws.Encoding.shr (tc : BitVec 2) (vd : BitVec 7) (va : BitVec 7) (vb : BitVec 7) :
    Laws.Encoding.Statement (.shr tc vd va vb) := fun h _ hw =>
  Option.some.inj hw ▸ decodeWord_of_fields (by
    simp [lrWord, decodeFields_laneWord, decodeLane, decodeLR, onlyIf]) h

theorem Laws.Encoding.sar (tc : BitVec 2) (vd : BitVec 7) (va : BitVec 7) (vb : BitVec 7) :
    Laws.Encoding.Statement (.sar tc vd va vb) := fun h _ hw =>
  Option.some.inj hw ▸ decodeWord_of_fields (by
    simp [lrWord, decodeFields_laneWord, decodeLane, decodeLR, onlyIf]) h

theorem Laws.Encoding.ror (tc : BitVec 2) (vd : BitVec 7) (va : BitVec 7) (vb : BitVec 7) :
    Laws.Encoding.Statement (.ror tc vd va vb) := fun h _ hw =>
  Option.some.inj hw ▸ decodeWord_of_fields (by
    simp [lrWord, decodeFields_laneWord, decodeLane, decodeLR, onlyIf]) h

theorem Laws.Encoding.mul (tc : BitVec 2) (vd : BitVec 7) (va : BitVec 7) (vb : BitVec 7) :
    Laws.Encoding.Statement (.mul tc vd va vb) := fun h _ hw =>
  Option.some.inj hw ▸ decodeWord_of_fields (by
    simp [lrWord, decodeFields_laneWord, decodeLane, decodeLR, onlyIf]) h

theorem Laws.Encoding.mulhi (tc : BitVec 2) (vd : BitVec 7) (va : BitVec 7) (vb : BitVec 7) :
    Laws.Encoding.Statement (.mulhi tc vd va vb) := fun h _ hw =>
  Option.some.inj hw ▸ decodeWord_of_fields (by
    simp [lrWord, decodeFields_laneWord, decodeLane, decodeLR, onlyIf]) h

theorem Laws.Encoding.mulhiu (tc : BitVec 2) (vd : BitVec 7) (va : BitVec 7) (vb : BitVec 7) :
    Laws.Encoding.Statement (.mulhiu tc vd va vb) := fun h _ hw =>
  Option.some.inj hw ▸ decodeWord_of_fields (by
    simp [lrWord, decodeFields_laneWord, decodeLane, decodeLR, onlyIf]) h

theorem Laws.Encoding.mad (tc : BitVec 2) (vd : BitVec 7) (va : BitVec 7) (vb : BitVec 7) :
    Laws.Encoding.Statement (.mad tc vd va vb) := fun h _ hw =>
  Option.some.inj hw ▸ decodeWord_of_fields (by
    simp [lrWord, decodeFields_laneWord, decodeLane, decodeLR, onlyIf]) h

theorem Laws.Encoding.div (tc : BitVec 2) (vd : BitVec 7) (va : BitVec 7) (vb : BitVec 7) :
    Laws.Encoding.Statement (.div tc vd va vb) := fun h _ hw =>
  Option.some.inj hw ▸ decodeWord_of_fields (by
    simp [lrWord, decodeFields_laneWord, decodeLane, decodeLR, onlyIf]) h

theorem Laws.Encoding.divu (tc : BitVec 2) (vd : BitVec 7) (va : BitVec 7) (vb : BitVec 7) :
    Laws.Encoding.Statement (.divu tc vd va vb) := fun h _ hw =>
  Option.some.inj hw ▸ decodeWord_of_fields (by
    simp [lrWord, decodeFields_laneWord, decodeLane, decodeLR, onlyIf]) h

theorem Laws.Encoding.rem (tc : BitVec 2) (vd : BitVec 7) (va : BitVec 7) (vb : BitVec 7) :
    Laws.Encoding.Statement (.rem tc vd va vb) := fun h _ hw =>
  Option.some.inj hw ▸ decodeWord_of_fields (by
    simp [lrWord, decodeFields_laneWord, decodeLane, decodeLR, onlyIf]) h

theorem Laws.Encoding.remu (tc : BitVec 2) (vd : BitVec 7) (va : BitVec 7) (vb : BitVec 7) :
    Laws.Encoding.Statement (.remu tc vd va vb) := fun h _ hw =>
  Option.some.inj hw ▸ decodeWord_of_fields (by
    simp [lrWord, decodeFields_laneWord, decodeLane, decodeLR, onlyIf]) h

theorem Laws.Encoding.seq (tc : BitVec 2) (vd : BitVec 7) (va : BitVec 7) (vb : BitVec 7) :
    Laws.Encoding.Statement (.seq tc vd va vb) := fun h _ hw =>
  Option.some.inj hw ▸ decodeWord_of_fields (by
    simp [lrWord, decodeFields_laneWord, decodeLane, decodeLR, onlyIf]) h

theorem Laws.Encoding.sne (tc : BitVec 2) (vd : BitVec 7) (va : BitVec 7) (vb : BitVec 7) :
    Laws.Encoding.Statement (.sne tc vd va vb) := fun h _ hw =>
  Option.some.inj hw ▸ decodeWord_of_fields (by
    simp [lrWord, decodeFields_laneWord, decodeLane, decodeLR, onlyIf]) h

theorem Laws.Encoding.slt (tc : BitVec 2) (vd : BitVec 7) (va : BitVec 7) (vb : BitVec 7) :
    Laws.Encoding.Statement (.slt tc vd va vb) := fun h _ hw =>
  Option.some.inj hw ▸ decodeWord_of_fields (by
    simp [lrWord, decodeFields_laneWord, decodeLane, decodeLR, onlyIf]) h

theorem Laws.Encoding.sltu (tc : BitVec 2) (vd : BitVec 7) (va : BitVec 7) (vb : BitVec 7) :
    Laws.Encoding.Statement (.sltu tc vd va vb) := fun h _ hw =>
  Option.some.inj hw ▸ decodeWord_of_fields (by
    simp [lrWord, decodeFields_laneWord, decodeLane, decodeLR, onlyIf]) h

theorem Laws.Encoding.sel (tc : BitVec 2) (vd : BitVec 7) (va : BitVec 7) (vb : BitVec 7) :
    Laws.Encoding.Statement (.sel tc vd va vb) := fun h _ hw =>
  Option.some.inj hw ▸ decodeWord_of_fields (by
    simp [lrWord, decodeFields_laneWord, decodeLane, decodeLR, onlyIf]) h

theorem Laws.Encoding.clz (tc : BitVec 2) (vd : BitVec 7) (va : BitVec 7) :
    Laws.Encoding.Statement (.clz tc vd va) := fun h _ hw =>
  Option.some.inj hw ▸ decodeWord_of_fields (by
    simp [lrWord, decodeFields_laneWord, decodeLane, decodeLR, onlyIf]) h

theorem Laws.Encoding.popc (tc : BitVec 2) (vd : BitVec 7) (va : BitVec 7) :
    Laws.Encoding.Statement (.popc tc vd va) := fun h _ hw =>
  Option.some.inj hw ▸ decodeWord_of_fields (by
    simp [lrWord, decodeFields_laneWord, decodeLane, decodeLR, onlyIf]) h

theorem Laws.Encoding.brev (tc : BitVec 2) (vd : BitVec 7) (va : BitVec 7) :
    Laws.Encoding.Statement (.brev tc vd va) := fun h _ hw =>
  Option.some.inj hw ▸ decodeWord_of_fields (by
    simp [lrWord, decodeFields_laneWord, decodeLane, decodeLR, onlyIf]) h

theorem Laws.Encoding.addi (tc : BitVec 2) (vd : BitVec 7) (va : BitVec 7) (imm : BitVec 9) :
    Laws.Encoding.Statement (.addi tc vd va imm) := fun h _ hw =>
  Option.some.inj hw ▸ decodeWord_of_fields (by
    simp [decodeFields_laneWord, decodeLane, onlyIf]) h

theorem Laws.Encoding.shli (tc : BitVec 2) (vd : BitVec 7) (va : BitVec 7) (n : BitVec 5) :
    Laws.Encoding.Statement (.shli tc vd va n) := fun h _ hw =>
  Option.some.inj hw ▸ decodeWord_of_fields (by
    simp [shiftWord, decodeFields_laneWord, decodeLane, onlyIf]) h

theorem Laws.Encoding.shri (tc : BitVec 2) (vd : BitVec 7) (va : BitVec 7) (n : BitVec 5) :
    Laws.Encoding.Statement (.shri tc vd va n) := fun h _ hw =>
  Option.some.inj hw ▸ decodeWord_of_fields (by
    simp [shiftWord, decodeFields_laneWord, decodeLane, onlyIf]) h

theorem Laws.Encoding.sari (tc : BitVec 2) (vd : BitVec 7) (va : BitVec 7) (n : BitVec 5) :
    Laws.Encoding.Statement (.sari tc vd va n) := fun h _ hw =>
  Option.some.inj hw ▸ decodeWord_of_fields (by
    simp [shiftWord, decodeFields_laneWord, decodeLane, onlyIf]) h

theorem Laws.Encoding.rori (tc : BitVec 2) (vd : BitVec 7) (va : BitVec 7) (n : BitVec 5) :
    Laws.Encoding.Statement (.rori tc vd va n) := fun h _ hw =>
  Option.some.inj hw ▸ decodeWord_of_fields (by
    simp [shiftWord, decodeFields_laneWord, decodeLane, onlyIf]) h

theorem Laws.Encoding.bfx (tc : BitVec 2) (vd : BitVec 7) (va : BitVec 7) (vb : BitVec 7) :
    Laws.Encoding.Statement (.bfx tc vd va vb) := fun h _ hw =>
  Option.some.inj hw ▸ decodeWord_of_fields (by
    simp [lrWord, decodeFields_laneWord, decodeLane, decodeLR, onlyIf]) h

theorem Laws.Encoding.bfxu (tc : BitVec 2) (vd : BitVec 7) (va : BitVec 7) (vb : BitVec 7) :
    Laws.Encoding.Statement (.bfxu tc vd va vb) := fun h _ hw =>
  Option.some.inj hw ▸ decodeWord_of_fields (by
    simp [lrWord, decodeFields_laneWord, decodeLane, decodeLR, onlyIf]) h

theorem Laws.Encoding.bfi (tc : BitVec 2) (vd : BitVec 7) (va : BitVec 7) (vb : BitVec 7) :
    Laws.Encoding.Statement (.bfi tc vd va vb) := fun h _ hw =>
  Option.some.inj hw ▸ decodeWord_of_fields (by
    simp [lrWord, decodeFields_laneWord, decodeLane, decodeLR, onlyIf]) h

theorem Laws.Encoding.prmb (tc : BitVec 2) (vd : BitVec 7) (va : BitVec 7) (vb : BitVec 7) :
    Laws.Encoding.Statement (.prmb tc vd va vb) := fun h _ hw =>
  Option.some.inj hw ▸ decodeWord_of_fields (by
    simp [lrWord, decodeFields_laneWord, decodeLane, decodeLR, onlyIf]) h

theorem Laws.Encoding.movi (tc : BitVec 2) (vd : BitVec 7) (imm : BitVec 16) :
    Laws.Encoding.Statement (.movi tc vd imm) := fun h _ hw =>
  Option.some.inj hw ▸ decodeWord_of_fields (by
    simp [decodeFields_laneWord, decodeLane, onlyIf]) h

theorem Laws.Encoding.movs (tc : BitVec 2) (vd : BitVec 7) (sb : BitVec 8) :
    Laws.Encoding.Statement (.movs tc vd sb) := fun h _ hw =>
  Option.some.inj hw ▸ decodeWord_of_fields (by
    simp [decodeFields_laneWord, decodeLane, onlyIf]) h

theorem Laws.Encoding.hget (tc : BitVec 2) (vd : BitVec 7) (h : BitVec 8) :
    Laws.Encoding.Statement (.hget tc vd h) := fun h _ hw =>
  Option.some.inj hw ▸ decodeWord_of_fields (by
    simp [hatchWord, decodeFields_laneWord, decodeLane, decodeLX, onlyIf]) h

theorem Laws.Encoding.htake (tc : BitVec 2) (vd : BitVec 7) (h : BitVec 8) :
    Laws.Encoding.Statement (.htake tc vd h) := fun h _ hw =>
  Option.some.inj hw ▸ decodeWord_of_fields (by
    simp [hatchWord, decodeFields_laneWord, decodeLane, decodeLX, onlyIf]) h

theorem Laws.Encoding.hput (tc : BitVec 2) (vs : BitVec 7) (h : BitVec 8) :
    Laws.Encoding.Statement (.hput tc vs h) := fun h _ hw =>
  Option.some.inj hw ▸ decodeWord_of_fields (by
    simp [hatchWord, decodeFields_laneWord, decodeLane, decodeLX, onlyIf]) h

theorem Laws.Encoding.rdls (tc : BitVec 2) (vd : BitVec 7) (n : BitVec 8) :
    Laws.Encoding.Statement (.rdls tc vd n) := fun h _ hw =>
  Option.some.inj hw ▸ decodeWord_of_fields (by
    simp [hatchWord, decodeFields_laneWord, decodeLane, decodeLX, onlyIf]) h

theorem Laws.Encoding.xlnIdx (tc : BitVec 2) (vd : BitVec 7) (va : BitVec 7) (vb : BitVec 7) :
    Laws.Encoding.Statement (.xlnIdx tc vd va vb) := fun h _ hw =>
  Option.some.inj hw ▸ decodeWord_of_fields (by
    simp [lrWord, decodeFields_laneWord, decodeLane, decodeLR, onlyIf]) h

theorem Laws.Encoding.xlnXor (tc : BitVec 2) (vd : BitVec 7) (va : BitVec 7) (vb : BitVec 7) :
    Laws.Encoding.Statement (.xlnXor tc vd va vb) := fun h _ hw =>
  Option.some.inj hw ▸ decodeWord_of_fields (by
    simp [lrWord, decodeFields_laneWord, decodeLane, decodeLR, onlyIf]) h

theorem Laws.Encoding.xlnUp (tc : BitVec 2) (vd : BitVec 7) (va : BitVec 7) (vb : BitVec 7) :
    Laws.Encoding.Statement (.xlnUp tc vd va vb) := fun h _ hw =>
  Option.some.inj hw ▸ decodeWord_of_fields (by
    simp [lrWord, decodeFields_laneWord, decodeLane, decodeLR, onlyIf]) h

theorem Laws.Encoding.xlnDn (tc : BitVec 2) (vd : BitVec 7) (va : BitVec 7) (vb : BitVec 7) :
    Laws.Encoding.Statement (.xlnDn tc vd va vb) := fun h _ hw =>
  Option.some.inj hw ▸ decodeWord_of_fields (by
    simp [lrWord, decodeFields_laneWord, decodeLane, decodeLR, onlyIf]) h

theorem Laws.Encoding.voteAny (tc : BitVec 2) (vd : BitVec 7) (va : BitVec 7) :
    Laws.Encoding.Statement (.voteAny tc vd va) := fun h _ hw =>
  Option.some.inj hw ▸ decodeWord_of_fields (by
    simp [lrWord, decodeFields_laneWord, decodeLane, decodeLR, onlyIf]) h

theorem Laws.Encoding.voteAll (tc : BitVec 2) (vd : BitVec 7) (va : BitVec 7) :
    Laws.Encoding.Statement (.voteAll tc vd va) := fun h _ hw =>
  Option.some.inj hw ▸ decodeWord_of_fields (by
    simp [lrWord, decodeFields_laneWord, decodeLane, decodeLR, onlyIf]) h

theorem Laws.Encoding.voteBal (tc : BitVec 2) (vd : BitVec 7) (va : BitVec 7) :
    Laws.Encoding.Statement (.voteBal tc vd va) := fun h _ hw =>
  Option.some.inj hw ▸ decodeWord_of_fields (by
    simp [lrWord, decodeFields_laneWord, decodeLane, decodeLR, onlyIf]) h

theorem Laws.Encoding.xred (tc : BitVec 2) (vd : BitVec 7) (va : BitVec 7) :
    Laws.Encoding.Statement (.xred tc vd va) := fun h _ hw =>
  Option.some.inj hw ▸ decodeWord_of_fields (by
    simp [lrWord, decodeFields_laneWord, decodeLane, decodeLR, onlyIf]) h

theorem Laws.Encoding.fadd (tc : BitVec 2) (vd : BitVec 7) (va : BitVec 7) (vb : BitVec 7) :
    Laws.Encoding.Statement (.fadd tc vd va vb) := fun h _ hw =>
  Option.some.inj hw ▸ decodeWord_of_fields (by
    simp [lrWord, decodeFields_laneWord, decodeLane, decodeLR, onlyIf]) h

theorem Laws.Encoding.fsub (tc : BitVec 2) (vd : BitVec 7) (va : BitVec 7) (vb : BitVec 7) :
    Laws.Encoding.Statement (.fsub tc vd va vb) := fun h _ hw =>
  Option.some.inj hw ▸ decodeWord_of_fields (by
    simp [lrWord, decodeFields_laneWord, decodeLane, decodeLR, onlyIf]) h

theorem Laws.Encoding.fmul (tc : BitVec 2) (vd : BitVec 7) (va : BitVec 7) (vb : BitVec 7) :
    Laws.Encoding.Statement (.fmul tc vd va vb) := fun h _ hw =>
  Option.some.inj hw ▸ decodeWord_of_fields (by
    simp [lrWord, decodeFields_laneWord, decodeLane, decodeLR, onlyIf]) h

theorem Laws.Encoding.fmin (tc : BitVec 2) (vd : BitVec 7) (va : BitVec 7) (vb : BitVec 7) :
    Laws.Encoding.Statement (.fmin tc vd va vb) := fun h _ hw =>
  Option.some.inj hw ▸ decodeWord_of_fields (by
    simp [lrWord, decodeFields_laneWord, decodeLane, decodeLR, onlyIf]) h

theorem Laws.Encoding.fmax (tc : BitVec 2) (vd : BitVec 7) (va : BitVec 7) (vb : BitVec 7) :
    Laws.Encoding.Statement (.fmax tc vd va vb) := fun h _ hw =>
  Option.some.inj hw ▸ decodeWord_of_fields (by
    simp [lrWord, decodeFields_laneWord, decodeLane, decodeLR, onlyIf]) h

theorem Laws.Encoding.ffma (tc : BitVec 2) (vd : BitVec 7) (va : BitVec 7) (vb : BitVec 7) :
    Laws.Encoding.Statement (.ffma tc vd va vb) := fun h _ hw =>
  Option.some.inj hw ▸ decodeWord_of_fields (by
    simp [lrWord, decodeFields_laneWord, decodeLane, decodeLR, onlyIf]) h

theorem Laws.Encoding.fseq (tc : BitVec 2) (vd : BitVec 7) (va : BitVec 7) (vb : BitVec 7) :
    Laws.Encoding.Statement (.fseq tc vd va vb) := fun h _ hw =>
  Option.some.inj hw ▸ decodeWord_of_fields (by
    simp [lrWord, decodeFields_laneWord, decodeLane, decodeLR, onlyIf]) h

theorem Laws.Encoding.fslt (tc : BitVec 2) (vd : BitVec 7) (va : BitVec 7) (vb : BitVec 7) :
    Laws.Encoding.Statement (.fslt tc vd va vb) := fun h _ hw =>
  Option.some.inj hw ▸ decodeWord_of_fields (by
    simp [lrWord, decodeFields_laneWord, decodeLane, decodeLR, onlyIf]) h

theorem Laws.Encoding.fsle (tc : BitVec 2) (vd : BitVec 7) (va : BitVec 7) (vb : BitVec 7) :
    Laws.Encoding.Statement (.fsle tc vd va vb) := fun h _ hw =>
  Option.some.inj hw ▸ decodeWord_of_fields (by
    simp [lrWord, decodeFields_laneWord, decodeLane, decodeLR, onlyIf]) h

theorem Laws.Encoding.fsun (tc : BitVec 2) (vd : BitVec 7) (va : BitVec 7) (vb : BitVec 7) :
    Laws.Encoding.Statement (.fsun tc vd va vb) := fun h _ hw =>
  Option.some.inj hw ▸ decodeWord_of_fields (by
    simp [lrWord, decodeFields_laneWord, decodeLane, decodeLR, onlyIf]) h

theorem Laws.Encoding.hadd2 (tc : BitVec 2) (vd : BitVec 7) (va : BitVec 7) (vb : BitVec 7) :
    Laws.Encoding.Statement (.hadd2 tc vd va vb) := fun h _ hw =>
  Option.some.inj hw ▸ decodeWord_of_fields (by
    simp [lrWord, decodeFields_laneWord, decodeLane, decodeLR, onlyIf]) h

theorem Laws.Encoding.hmul2 (tc : BitVec 2) (vd : BitVec 7) (va : BitVec 7) (vb : BitVec 7) :
    Laws.Encoding.Statement (.hmul2 tc vd va vb) := fun h _ hw =>
  Option.some.inj hw ▸ decodeWord_of_fields (by
    simp [lrWord, decodeFields_laneWord, decodeLane, decodeLR, onlyIf]) h

theorem Laws.Encoding.hfma2 (tc : BitVec 2) (vd : BitVec 7) (va : BitVec 7) (vb : BitVec 7) :
    Laws.Encoding.Statement (.hfma2 tc vd va vb) := fun h _ hw =>
  Option.some.inj hw ▸ decodeWord_of_fields (by
    simp [lrWord, decodeFields_laneWord, decodeLane, decodeLR, onlyIf]) h

theorem Laws.Encoding.hmax2 (tc : BitVec 2) (vd : BitVec 7) (va : BitVec 7) (vb : BitVec 7) :
    Laws.Encoding.Statement (.hmax2 tc vd va vb) := fun h _ hw =>
  Option.some.inj hw ▸ decodeWord_of_fields (by
    simp [lrWord, decodeFields_laneWord, decodeLane, decodeLR, onlyIf]) h

theorem Laws.Encoding.frcp (tc : BitVec 2) (vd : BitVec 7) (va : BitVec 7) :
    Laws.Encoding.Statement (.frcp tc vd va) := fun h _ hw =>
  Option.some.inj hw ▸ decodeWord_of_fields (by
    simp [lrWord, decodeFields_laneWord, decodeLane, decodeLR, onlyIf]) h

theorem Laws.Encoding.frsq (tc : BitVec 2) (vd : BitVec 7) (va : BitVec 7) :
    Laws.Encoding.Statement (.frsq tc vd va) := fun h _ hw =>
  Option.some.inj hw ▸ decodeWord_of_fields (by
    simp [lrWord, decodeFields_laneWord, decodeLane, decodeLR, onlyIf]) h

theorem Laws.Encoding.fex2 (tc : BitVec 2) (vd : BitVec 7) (va : BitVec 7) :
    Laws.Encoding.Statement (.fex2 tc vd va) := fun h _ hw =>
  Option.some.inj hw ▸ decodeWord_of_fields (by
    simp [lrWord, decodeFields_laneWord, decodeLane, decodeLR, onlyIf]) h

theorem Laws.Encoding.flg2 (tc : BitVec 2) (vd : BitVec 7) (va : BitVec 7) :
    Laws.Encoding.Statement (.flg2 tc vd va) := fun h _ hw =>
  Option.some.inj hw ▸ decodeWord_of_fields (by
    simp [lrWord, decodeFields_laneWord, decodeLane, decodeLR, onlyIf]) h

theorem Laws.Encoding.fdiv (tc : BitVec 2) (vd : BitVec 7) (va : BitVec 7) (vb : BitVec 7) :
    Laws.Encoding.Statement (.fdiv tc vd va vb) := fun h _ hw =>
  Option.some.inj hw ▸ decodeWord_of_fields (by
    simp [lrWord, decodeFields_laneWord, decodeLane, decodeLR, onlyIf]) h

theorem Laws.Encoding.fsqrt (tc : BitVec 2) (vd : BitVec 7) (va : BitVec 7) :
    Laws.Encoding.Statement (.fsqrt tc vd va) := fun h _ hw =>
  Option.some.inj hw ▸ decodeWord_of_fields (by
    simp [lrWord, decodeFields_laneWord, decodeLane, decodeLR, onlyIf]) h

theorem Laws.Encoding.fscl (tc : BitVec 2) (vd : BitVec 7) (va : BitVec 7) (vb : BitVec 7) :
    Laws.Encoding.Statement (.fscl tc vd va vb) := fun h _ hw =>
  Option.some.inj hw ▸ decodeWord_of_fields (by
    simp [lrWord, decodeFields_laneWord, decodeLane, decodeLR, onlyIf]) h

theorem Laws.Encoding.ffrc (tc : BitVec 2) (vd : BitVec 7) (va : BitVec 7) :
    Laws.Encoding.Statement (.ffrc tc vd va) := fun h _ hw =>
  Option.some.inj hw ▸ decodeWord_of_fields (by
    simp [lrWord, decodeFields_laneWord, decodeLane, decodeLR, onlyIf]) h

theorem Laws.Encoding.cvtF32S32 (tc : BitVec 2) (vd : BitVec 7) (va : BitVec 7) :
    Laws.Encoding.Statement (.cvtF32S32 tc vd va) := fun h _ hw =>
  Option.some.inj hw ▸ decodeWord_of_fields (by
    simp [lrWord, decodeFields_laneWord, decodeLane, decodeLR, onlyIf]) h

theorem Laws.Encoding.cvtS32F32 (tc : BitVec 2) (vd : BitVec 7) (va : BitVec 7) :
    Laws.Encoding.Statement (.cvtS32F32 tc vd va) := fun h _ hw =>
  Option.some.inj hw ▸ decodeWord_of_fields (by
    simp [lrWord, decodeFields_laneWord, decodeLane, decodeLR, onlyIf]) h

theorem Laws.Encoding.cvtF32Bf16 (tc : BitVec 2) (vd : BitVec 7) (va : BitVec 7) :
    Laws.Encoding.Statement (.cvtF32Bf16 tc vd va) := fun h _ hw =>
  Option.some.inj hw ▸ decodeWord_of_fields (by
    simp [lrWord, decodeFields_laneWord, decodeLane, decodeLR, onlyIf]) h

theorem Laws.Encoding.cvtBf16F32 (tc : BitVec 2) (vd : BitVec 7) (va : BitVec 7) (vb : BitVec 7) :
    Laws.Encoding.Statement (.cvtBf16F32 tc vd va vb) := fun h _ hw =>
  Option.some.inj hw ▸ decodeWord_of_fields (by
    simp [lrWord, decodeFields_laneWord, decodeLane, decodeLR, onlyIf]) h

theorem Laws.Encoding.cvtE4m3F32 (tc : BitVec 2) (vd : BitVec 7) (va : BitVec 7) :
    Laws.Encoding.Statement (.cvtE4m3F32 tc vd va) := fun h _ hw =>
  Option.some.inj hw ▸ decodeWord_of_fields (by
    simp [lrWord, decodeFields_laneWord, decodeLane, decodeLR, onlyIf]) h

theorem Laws.Encoding.cvtF32E4m3 (tc : BitVec 2) (vd : BitVec 7) (va : BitVec 7) :
    Laws.Encoding.Statement (.cvtF32E4m3 tc vd va) := fun h _ hw =>
  Option.some.inj hw ▸ decodeWord_of_fields (by
    simp [lrWord, decodeFields_laneWord, decodeLane, decodeLR, onlyIf]) h

theorem Laws.Encoding.cvtE5m2F32 (tc : BitVec 2) (vd : BitVec 7) (va : BitVec 7) :
    Laws.Encoding.Statement (.cvtE5m2F32 tc vd va) := fun h _ hw =>
  Option.some.inj hw ▸ decodeWord_of_fields (by
    simp [lrWord, decodeFields_laneWord, decodeLane, decodeLR, onlyIf]) h

theorem Laws.Encoding.cvtF32E5m2 (tc : BitVec 2) (vd : BitVec 7) (va : BitVec 7) :
    Laws.Encoding.Statement (.cvtF32E5m2 tc vd va) := fun h _ hw =>
  Option.some.inj hw ▸ decodeWord_of_fields (by
    simp [lrWord, decodeFields_laneWord, decodeLane, decodeLR, onlyIf]) h

theorem Laws.Encoding.scacc (tc : BitVec 2) (vd : BitVec 7) (va : BitVec 7) (vb : BitVec 7) :
    Laws.Encoding.Statement (.scacc tc vd va vb) := fun h _ hw =>
  Option.some.inj hw ▸ decodeWord_of_fields (by
    simp [lrWord, decodeFields_laneWord, decodeLane, decodeLR, onlyIf]) h

theorem Laws.Encoding.scacc2 (tc : BitVec 2) (vd : BitVec 7) (va : BitVec 7) (vb : BitVec 7) :
    Laws.Encoding.Statement (.scacc2 tc vd va vb) := fun h _ hw =>
  Option.some.inj hw ▸ decodeWord_of_fields (by
    simp [lrWord, decodeFields_laneWord, decodeLane, decodeLR, onlyIf]) h

theorem Laws.Encoding.qnt8 (tc : BitVec 2) (vd : BitVec 7) (va : BitVec 7) (vb : BitVec 7) :
    Laws.Encoding.Statement (.qnt8 tc vd va vb) := fun h _ hw =>
  Option.some.inj hw ▸ decodeWord_of_fields (by
    simp [lrWord, decodeFields_laneWord, decodeLane, decodeLR, onlyIf]) h

theorem Laws.Encoding.qnte4 (tc : BitVec 2) (vd : BitVec 7) (va : BitVec 7) (vb : BitVec 7) :
    Laws.Encoding.Statement (.qnte4 tc vd va vb) := fun h _ hw =>
  Option.some.inj hw ▸ decodeWord_of_fields (by
    simp [lrWord, decodeFields_laneWord, decodeLane, decodeLR, onlyIf]) h

theorem Laws.Encoding.dp4 (tc : BitVec 2) (vd : BitVec 7) (va : BitVec 7) (vb : BitVec 7) :
    Laws.Encoding.Statement (.dp4 tc vd va vb) := fun h _ hw =>
  Option.some.inj hw ▸ decodeWord_of_fields (by
    simp [lrWord, decodeFields_laneWord, decodeLane, decodeLR, onlyIf]) h

theorem Laws.Encoding.dp4u (tc : BitVec 2) (vd : BitVec 7) (va : BitVec 7) (vb : BitVec 7) :
    Laws.Encoding.Statement (.dp4u tc vd va vb) := fun h _ hw =>
  Option.some.inj hw ▸ decodeWord_of_fields (by
    simp [lrWord, decodeFields_laneWord, decodeLane, decodeLR, onlyIf]) h

theorem Laws.Encoding.dp2h (tc : BitVec 2) (vd : BitVec 7) (va : BitVec 7) (vb : BitVec 7) :
    Laws.Encoding.Statement (.dp2h tc vd va vb) := fun h _ hw =>
  Option.some.inj hw ▸ decodeWord_of_fields (by
    simp [lrWord, decodeFields_laneWord, decodeLane, decodeLR, onlyIf]) h

theorem Laws.Encoding.trnQ (tc : BitVec 2) (vd : BitVec 7) (va : BitVec 7) (vb : BitVec 7) :
    Laws.Encoding.Statement (.trnQ tc vd va vb) := fun h _ hw =>
  Option.some.inj hw ▸ decodeWord_of_fields (by
    simp [lrWord, decodeFields_laneWord, decodeLane, decodeLR, onlyIf]) h

theorem Laws.Encoding.trnPk (tc : BitVec 2) (vd : BitVec 7) (va : BitVec 7) :
    Laws.Encoding.Statement (.trnPk tc vd va) := fun h _ hw =>
  Option.some.inj hw ▸ decodeWord_of_fields (by
    simp [lrWord, decodeFields_laneWord, decodeLane, decodeLR, onlyIf]) h

theorem Laws.Encoding.trnUp (tc : BitVec 2) (vd : BitVec 7) (va : BitVec 7) :
    Laws.Encoding.Statement (.trnUp tc vd va) := fun h _ hw =>
  Option.some.inj hw ▸ decodeWord_of_fields (by
    simp [lrWord, decodeFields_laneWord, decodeLane, decodeLR, onlyIf]) h

theorem Laws.Encoding.trnDg (tc : BitVec 2) (vd : BitVec 7) (va : BitVec 7) (vb : BitVec 7) :
    Laws.Encoding.Statement (.trnDg tc vd va vb) := fun h _ hw =>
  Option.some.inj hw ▸ decodeWord_of_fields (by
    simp [lrWord, decodeFields_laneWord, decodeLane, decodeLR, onlyIf]) h

theorem Laws.Encoding.trnChk4 (tc : BitVec 2) (vd : BitVec 7) (va : BitVec 7) :
    Laws.Encoding.Statement (.trnChk4 tc vd va) := fun h _ hw =>
  Option.some.inj hw ▸ decodeWord_of_fields (by
    simp [lrWord, decodeFields_laneWord, decodeLane, decodeLR, onlyIf]) h

theorem Laws.Encoding.trnZ4 (tc : BitVec 2) (vd : BitVec 7) (va : BitVec 7) :
    Laws.Encoding.Statement (.trnZ4 tc vd va) := fun h _ hw =>
  Option.some.inj hw ▸ decodeWord_of_fields (by
    simp [lrWord, decodeFields_laneWord, decodeLane, decodeLR, onlyIf]) h

theorem Laws.Encoding.ldU8 (tc : BitVec 2) (vt : BitVec 7) (va : BitVec 7) (ord : BitVec 2) (scope : BitVec 3) (off4 : BitVec 4) :
    Laws.Encoding.Statement (.ldU8 tc vt va ord scope off4) := fun h _ hw =>
  Option.some.inj hw ▸ decodeWord_of_fields (by
    simp [lmWord, decodeFields_laneWord, decodeLane, decodeLM, onlyIf]) h

theorem Laws.Encoding.ldS8 (tc : BitVec 2) (vt : BitVec 7) (va : BitVec 7) (ord : BitVec 2) (scope : BitVec 3) (off4 : BitVec 4) :
    Laws.Encoding.Statement (.ldS8 tc vt va ord scope off4) := fun h _ hw =>
  Option.some.inj hw ▸ decodeWord_of_fields (by
    simp [lmWord, decodeFields_laneWord, decodeLane, decodeLM, onlyIf]) h

theorem Laws.Encoding.ldU16 (tc : BitVec 2) (vt : BitVec 7) (va : BitVec 7) (ord : BitVec 2) (scope : BitVec 3) (off4 : BitVec 4) :
    Laws.Encoding.Statement (.ldU16 tc vt va ord scope off4) := fun h _ hw =>
  Option.some.inj hw ▸ decodeWord_of_fields (by
    simp [lmWord, decodeFields_laneWord, decodeLane, decodeLM, onlyIf]) h

theorem Laws.Encoding.ldS16 (tc : BitVec 2) (vt : BitVec 7) (va : BitVec 7) (ord : BitVec 2) (scope : BitVec 3) (off4 : BitVec 4) :
    Laws.Encoding.Statement (.ldS16 tc vt va ord scope off4) := fun h _ hw =>
  Option.some.inj hw ▸ decodeWord_of_fields (by
    simp [lmWord, decodeFields_laneWord, decodeLane, decodeLM, onlyIf]) h

theorem Laws.Encoding.ldB32 (tc : BitVec 2) (vt : BitVec 7) (va : BitVec 7) (ord : BitVec 2) (scope : BitVec 3) (off4 : BitVec 4) :
    Laws.Encoding.Statement (.ldB32 tc vt va ord scope off4) := fun h _ hw =>
  Option.some.inj hw ▸ decodeWord_of_fields (by
    simp [lmWord, decodeFields_laneWord, decodeLane, decodeLM, onlyIf]) h

theorem Laws.Encoding.ldB64 (tc : BitVec 2) (vt : BitVec 7) (va : BitVec 7) (ord : BitVec 2) (scope : BitVec 3) (off4 : BitVec 4) :
    Laws.Encoding.Statement (.ldB64 tc vt va ord scope off4) := fun h _ hw =>
  Option.some.inj hw ▸ decodeWord_of_fields (by
    simp [lmWord, decodeFields_laneWord, decodeLane, decodeLM, onlyIf]) h

theorem Laws.Encoding.ldB128 (tc : BitVec 2) (vt : BitVec 7) (va : BitVec 7) (ord : BitVec 2) (scope : BitVec 3) (off4 : BitVec 4) :
    Laws.Encoding.Statement (.ldB128 tc vt va ord scope off4) := fun h _ hw =>
  Option.some.inj hw ▸ decodeWord_of_fields (by
    simp [lmWord, decodeFields_laneWord, decodeLane, decodeLM, onlyIf]) h

theorem Laws.Encoding.stB8 (tc : BitVec 2) (vt : BitVec 7) (va : BitVec 7) (ord : BitVec 2) (scope : BitVec 3) (off4 : BitVec 4) :
    Laws.Encoding.Statement (.stB8 tc vt va ord scope off4) := fun h _ hw =>
  Option.some.inj hw ▸ decodeWord_of_fields (by
    simp [lmWord, decodeFields_laneWord, decodeLane, decodeLM, onlyIf]) h

theorem Laws.Encoding.stB16 (tc : BitVec 2) (vt : BitVec 7) (va : BitVec 7) (ord : BitVec 2) (scope : BitVec 3) (off4 : BitVec 4) :
    Laws.Encoding.Statement (.stB16 tc vt va ord scope off4) := fun h _ hw =>
  Option.some.inj hw ▸ decodeWord_of_fields (by
    simp [lmWord, decodeFields_laneWord, decodeLane, decodeLM, onlyIf]) h

theorem Laws.Encoding.stB32 (tc : BitVec 2) (vt : BitVec 7) (va : BitVec 7) (ord : BitVec 2) (scope : BitVec 3) (off4 : BitVec 4) :
    Laws.Encoding.Statement (.stB32 tc vt va ord scope off4) := fun h _ hw =>
  Option.some.inj hw ▸ decodeWord_of_fields (by
    simp [lmWord, decodeFields_laneWord, decodeLane, decodeLM, onlyIf]) h

theorem Laws.Encoding.stB64 (tc : BitVec 2) (vt : BitVec 7) (va : BitVec 7) (ord : BitVec 2) (scope : BitVec 3) (off4 : BitVec 4) :
    Laws.Encoding.Statement (.stB64 tc vt va ord scope off4) := fun h _ hw =>
  Option.some.inj hw ▸ decodeWord_of_fields (by
    simp [lmWord, decodeFields_laneWord, decodeLane, decodeLM, onlyIf]) h

theorem Laws.Encoding.stB128 (tc : BitVec 2) (vt : BitVec 7) (va : BitVec 7) (ord : BitVec 2) (scope : BitVec 3) (off4 : BitVec 4) :
    Laws.Encoding.Statement (.stB128 tc vt va ord scope off4) := fun h _ hw =>
  Option.some.inj hw ▸ decodeWord_of_fields (by
    simp [lmWord, decodeFields_laneWord, decodeLane, decodeLM, onlyIf]) h

theorem Laws.Encoding.atom32 (tc : BitVec 2) (vd : BitVec 7) (va : BitVec 7) (op : BitVec 4) (scope : BitVec 3) (ord : BitVec 2) :
    Laws.Encoding.Statement (.atom32 tc vd va op scope ord) := fun h _ hw =>
  Option.some.inj hw ▸ decodeWord_of_fields (by
    simp [laWord, decodeFields_laneWord, decodeLane, onlyIf]) h

theorem Laws.Encoding.atom64 (tc : BitVec 2) (vd : BitVec 7) (va : BitVec 7) (op : BitVec 4) (scope : BitVec 3) (ord : BitVec 2) :
    Laws.Encoding.Statement (.atom64 tc vd va op scope ord) := fun h _ hw =>
  Option.some.inj hw ▸ decodeWord_of_fields (by
    simp [laWord, decodeFields_laneWord, decodeLane, onlyIf]) h

theorem Laws.Encoding.red (tc : BitVec 2) (vd : BitVec 7) (va : BitVec 7) (op : BitVec 4) (scope : BitVec 3) (ord : BitVec 2) :
    Laws.Encoding.Statement (.red tc vd va op scope ord) := fun h _ hw =>
  Option.some.inj hw ▸ decodeWord_of_fields (by
    simp [laWord, decodeFields_laneWord, decodeLane, onlyIf]) h

theorem Laws.Encoding.fence (tc : BitVec 2) (kind : BitVec 2) (scope : BitVec 3) :
    Laws.Encoding.Statement (.fence tc kind scope) := fun h _ hw =>
  Option.some.inj hw ▸ decodeWord_of_fields (by
    simp [decodeFields_laneWord, decodeLane, decodeMemX, onlyIf]) h

theorem Laws.Encoding.ldrowNear (tc : BitVec 2) (va : BitVec 7) (vb : BitVec 7) :
    Laws.Encoding.Statement (.ldrowNear tc va vb) := fun h _ hw =>
  Option.some.inj hw ▸ decodeWord_of_fields (by
    simp [memXWord, decodeFields_laneWord, decodeLane, decodeMemX, onlyIf]) h

theorem Laws.Encoding.ldrowHome (tc : BitVec 2) (va : BitVec 7) (vb : BitVec 7) :
    Laws.Encoding.Statement (.ldrowHome tc va vb) := fun h _ hw =>
  Option.some.inj hw ▸ decodeWord_of_fields (by
    simp [memXWord, decodeFields_laneWord, decodeLane, decodeMemX, onlyIf]) h

theorem Laws.Encoding.strow (tc : BitVec 2) (va : BitVec 7) (vb : BitVec 7) :
    Laws.Encoding.Statement (.strow tc va vb) := fun h _ hw =>
  Option.some.inj hw ▸ decodeWord_of_fields (by
    simp [memXWord, decodeFields_laneWord, decodeLane, decodeMemX, onlyIf]) h

theorem Laws.Encoding.raddBf16 (tc : BitVec 2) (va : BitVec 7) (vb : BitVec 7) :
    Laws.Encoding.Statement (.raddBf16 tc va vb) := fun h _ hw =>
  Option.some.inj hw ▸ decodeWord_of_fields (by
    simp [memXWord, decodeFields_laneWord, decodeLane, decodeMemX, onlyIf]) h

theorem Laws.Encoding.raddF32 (tc : BitVec 2) (va : BitVec 7) (vb : BitVec 7) :
    Laws.Encoding.Statement (.raddF32 tc va vb) := fun h _ hw =>
  Option.some.inj hw ▸ decodeWord_of_fields (by
    simp [memXWord, decodeFields_laneWord, decodeLane, decodeMemX, onlyIf]) h

theorem Laws.Encoding.rmaxBf16 (tc : BitVec 2) (va : BitVec 7) (vb : BitVec 7) :
    Laws.Encoding.Statement (.rmaxBf16 tc va vb) := fun h _ hw =>
  Option.some.inj hw ▸ decodeWord_of_fields (by
    simp [memXWord, decodeFields_laneWord, decodeLane, decodeMemX, onlyIf]) h

theorem Laws.Encoding.prf (tc : BitVec 2) (va : BitVec 7) :
    Laws.Encoding.Statement (.prf tc va) := fun h _ hw =>
  Option.some.inj hw ▸ decodeWord_of_fields (by
    simp [memXWord, decodeFields_laneWord, decodeLane, decodeMemX, onlyIf]) h

theorem Laws.Encoding.wbl (tc : BitVec 2) (va : BitVec 7) :
    Laws.Encoding.Statement (.wbl tc va) := fun h _ hw =>
  Option.some.inj hw ▸ decodeWord_of_fields (by
    simp [memXWord, decodeFields_laneWord, decodeLane, decodeMemX, onlyIf]) h

theorem Laws.Encoding.invl (tc : BitVec 2) (va : BitVec 7) :
    Laws.Encoding.Statement (.invl tc va) := fun h _ hw =>
  Option.some.inj hw ▸ decodeWord_of_fields (by
    simp [memXWord, decodeFields_laneWord, decodeLane, decodeMemX, onlyIf]) h

theorem Laws.Encoding.brEqz (tc : BitVec 2) (va : BitVec 7) (off : BitVec 13) :
    Laws.Encoding.Statement (.brEqz tc va off) := fun h _ hw =>
  Option.some.inj hw ▸ decodeWord_of_fields (by
    simp [lbWord, decodeFields_laneWord, decodeLane, decodeBranch, onlyIf]) h

theorem Laws.Encoding.brNez (tc : BitVec 2) (va : BitVec 7) (off : BitVec 13) :
    Laws.Encoding.Statement (.brNez tc va off) := fun h _ hw =>
  Option.some.inj hw ▸ decodeWord_of_fields (by
    simp [lbWord, decodeFields_laneWord, decodeLane, decodeBranch, onlyIf]) h

theorem Laws.Encoding.brLtz (tc : BitVec 2) (va : BitVec 7) (off : BitVec 13) :
    Laws.Encoding.Statement (.brLtz tc va off) := fun h _ hw =>
  Option.some.inj hw ▸ decodeWord_of_fields (by
    simp [lbWord, decodeFields_laneWord, decodeLane, decodeBranch, onlyIf]) h

theorem Laws.Encoding.brGez (tc : BitVec 2) (va : BitVec 7) (off : BitVec 13) :
    Laws.Encoding.Statement (.brGez tc va off) := fun h _ hw =>
  Option.some.inj hw ▸ decodeWord_of_fields (by
    simp [lbWord, decodeFields_laneWord, decodeLane, decodeBranch, onlyIf]) h

theorem Laws.Encoding.brGtz (tc : BitVec 2) (va : BitVec 7) (off : BitVec 13) :
    Laws.Encoding.Statement (.brGtz tc va off) := fun h _ hw =>
  Option.some.inj hw ▸ decodeWord_of_fields (by
    simp [lbWord, decodeFields_laneWord, decodeLane, decodeBranch, onlyIf]) h

theorem Laws.Encoding.brLez (tc : BitVec 2) (va : BitVec 7) (off : BitVec 13) :
    Laws.Encoding.Statement (.brLez tc va off) := fun h _ hw =>
  Option.some.inj hw ▸ decodeWord_of_fields (by
    simp [lbWord, decodeFields_laneWord, decodeLane, decodeBranch, onlyIf]) h

theorem Laws.Encoding.brAlw (tc : BitVec 2) (off : BitVec 13) :
    Laws.Encoding.Statement (.brAlw tc off) := fun hi _ hw =>
  Option.some.inj hw ▸ decodeWord_of_fields (by
    have k : ∀ (c : BitVec 3) (r : BitVec 7), c = 6 → r = 0 → decodeFields (lbWord tc c r off) = some (.brAlw tc off) := by
      intro c r ec er
      simp (disch := decide) [lbWord, decodeFields_laneWord, decodeLane, decodeBranch, onlyIf]
      subst ec er
      rfl
    exact k _ _ rfl rfl) hi

theorem Laws.Encoding.call (tc : BitVec 2) (vd : BitVec 7) (off : BitVec 16) :
    Laws.Encoding.Statement (.call tc vd off) := fun h _ hw =>
  Option.some.inj hw ▸ decodeWord_of_fields (by
    simp [decodeFields_laneWord, decodeLane, onlyIf]) h

theorem Laws.Encoding.jmpr (tc : BitVec 2) (va : BitVec 7) :
    Laws.Encoding.Statement (.jmpr tc va) := fun h _ hw =>
  Option.some.inj hw ▸ decodeWord_of_fields (by
    simp [lrWord, decodeFields_laneWord, decodeLane, decodeLR, onlyIf]) h

theorem Laws.Encoding.callr (tc : BitVec 2) (vd : BitVec 7) (va : BitVec 7) :
    Laws.Encoding.Statement (.callr tc vd va) := fun h _ hw =>
  Option.some.inj hw ▸ decodeWord_of_fields (by
    simp [lrWord, decodeFields_laneWord, decodeLane, decodeLR, onlyIf]) h

theorem Laws.Encoding.ret (tc : BitVec 2) (va : BitVec 7) :
    Laws.Encoding.Statement (.ret tc va) := fun h _ hw =>
  Option.some.inj hw ▸ decodeWord_of_fields (by
    simp [lrWord, decodeFields_laneWord, decodeLane, decodeLR, onlyIf]) h

theorem Laws.Encoding.barArv (tc : BitVec 2) (n : BitVec 11) :
    Laws.Encoding.Statement (.barArv tc n) := fun hi _ hw =>
  Option.some.inj hw ▸ decodeWord_of_fields (by
    have k : ∀ (c : BitVec 2) (r : BitVec 7), c = 0 → r = 0 → decodeFields (barWord tc c r n) = some (.barArv tc n) := by
      intro c r ec er
      simp (disch := decide) [barWord, decodeFields_laneWord, decodeLane, decodeLX, onlyIf]
      subst ec er
      rfl
    exact k _ _ rfl rfl) hi

theorem Laws.Encoding.barWt (tc : BitVec 2) (n : BitVec 11) :
    Laws.Encoding.Statement (.barWt tc n) := fun hi _ hw =>
  Option.some.inj hw ▸ decodeWord_of_fields (by
    have k : ∀ (c : BitVec 2) (r : BitVec 7), c = 1 → r = 0 → decodeFields (barWord tc c r n) = some (.barWt tc n) := by
      intro c r ec er
      simp (disch := decide) [barWord, decodeFields_laneWord, decodeLane, decodeLX, onlyIf]
      subst ec er
      rfl
    exact k _ _ rfl rfl) hi

theorem Laws.Encoding.barSync (tc : BitVec 2) (n : BitVec 11) :
    Laws.Encoding.Statement (.barSync tc n) := fun hi _ hw =>
  Option.some.inj hw ▸ decodeWord_of_fields (by
    have k : ∀ (c : BitVec 2) (r : BitVec 7), c = 2 → r = 0 → decodeFields (barWord tc c r n) = some (.barSync tc n) := by
      intro c r ec er
      simp (disch := decide) [barWord, decodeFields_laneWord, decodeLane, decodeLX, onlyIf]
      subst ec er
      rfl
    exact k _ _ rfl rfl) hi

theorem Laws.Encoding.barArvc (tc : BitVec 2) (va : BitVec 7) (n : BitVec 11) :
    Laws.Encoding.Statement (.barArvc tc va n) := fun h _ hw =>
  Option.some.inj hw ▸ decodeWord_of_fields (by
    simp [barWord, decodeFields_laneWord, decodeLane, decodeLX, onlyIf]) h

theorem Laws.Encoding.nop (tc : BitVec 2) :
    Laws.Encoding.Statement (.nop tc) := fun h _ hw =>
  Option.some.inj hw ▸ decodeWord_of_fields (by
    simp [selWord, decodeFields_laneWord, decodeLane, decodeLX, onlyIf]) h

theorem Laws.Encoding.barg (tc : BitVec 2) :
    Laws.Encoding.Statement (.barg tc) := fun h _ hw =>
  Option.some.inj hw ▸ decodeWord_of_fields (by
    simp [selWord, decodeFields_laneWord, decodeLane, decodeLX, onlyIf]) h

theorem Laws.Encoding.exit (tc : BitVec 2) :
    Laws.Encoding.Statement (.exit tc) := fun h _ hw =>
  Option.some.inj hw ▸ decodeWord_of_fields (by
    simp [selWord, decodeFields_laneWord, decodeLane, decodeLX, onlyIf]) h

theorem Laws.Encoding.yield (tc : BitVec 2) :
    Laws.Encoding.Statement (.yield tc) := fun h _ hw =>
  Option.some.inj hw ▸ decodeWord_of_fields (by
    simp [selWord, decodeFields_laneWord, decodeLane, decodeLX, onlyIf]) h

theorem Laws.Encoding.trap (tc : BitVec 2) (code : BitVec 16) :
    Laws.Encoding.Statement (.trap tc code) := fun hi _ hw =>
  Option.some.inj hw ▸ decodeWord_of_fields (by
    have k : ∀ (c : BitVec 2), c = 0 → decodeFields (selWord tc 0x38 c code) = some (.trap tc code) := by
      intro c ec
      simp (disch := decide) [selWord, decodeFields_laneWord, decodeLane, decodeLX, onlyIf]
      subst ec
      rfl
    exact k _ rfl) hi

theorem Laws.Encoding.rett (tc : BitVec 2) :
    Laws.Encoding.Statement (.rett tc) := fun h _ hw =>
  Option.some.inj hw ▸ decodeWord_of_fields (by
    simp [selWord, decodeFields_laneWord, decodeLane, decodeLX, onlyIf]) h

theorem Laws.Encoding.brk (tc : BitVec 2) (code : BitVec 16) :
    Laws.Encoding.Statement (.brk tc code) := fun hi _ hw =>
  Option.some.inj hw ▸ decodeWord_of_fields (by
    have k : ∀ (c : BitVec 2), c = 2 → decodeFields (selWord tc 0x38 c code) = some (.brk tc code) := by
      intro c ec
      simp (disch := decide) [selWord, decodeFields_laneWord, decodeLane, decodeLX, onlyIf]
      subst ec
      rfl
    exact k _ rfl) hi

theorem Laws.Encoding.ill (tc : BitVec 2) :
    Laws.Encoding.Statement (.ill tc) := fun h _ hw =>
  Option.some.inj hw ▸ decodeWord_of_fields (by
    simp [selWord, decodeFields_laneWord, decodeLane, decodeLX, onlyIf]) h

theorem Laws.Encoding.rdts (tc : BitVec 2) (vd : BitVec 7) (x : BitVec 3) :
    Laws.Encoding.Statement (.rdts tc vd x) := fun h _ hw =>
  Option.some.inj hw ▸ decodeWord_of_fields (by
    simp [tsWord, decodeFields_laneWord, decodeLane, decodeLX, onlyIf]) h

theorem Laws.Encoding.wrts (tc : BitVec 2) (vs : BitVec 7) (x : BitVec 3) :
    Laws.Encoding.Statement (.wrts tc vs x) := fun h _ hw =>
  Option.some.inj hw ▸ decodeWord_of_fields (by
    simp [tsWord, decodeFields_laneWord, decodeLane, decodeLX, onlyIf]) h

theorem Laws.Encoding.uadd (tc : BitVec 2) (sd : BitVec 8) (sa : BitVec 8) (sb : BitVec 8) :
    Laws.Encoding.Statement (.uadd tc sd sa sb) := fun h _ hw =>
  Option.some.inj hw ▸ decodeWord_of_fields (by
    simp [urWord, decodeFields_uniformWord, decodeUniform, onlyIf]) h

theorem Laws.Encoding.usub (tc : BitVec 2) (sd : BitVec 8) (sa : BitVec 8) (sb : BitVec 8) :
    Laws.Encoding.Statement (.usub tc sd sa sb) := fun h _ hw =>
  Option.some.inj hw ▸ decodeWord_of_fields (by
    simp [urWord, decodeFields_uniformWord, decodeUniform, onlyIf]) h

theorem Laws.Encoding.uand (tc : BitVec 2) (sd : BitVec 8) (sa : BitVec 8) (sb : BitVec 8) :
    Laws.Encoding.Statement (.uand tc sd sa sb) := fun h _ hw =>
  Option.some.inj hw ▸ decodeWord_of_fields (by
    simp [urWord, decodeFields_uniformWord, decodeUniform, onlyIf]) h

theorem Laws.Encoding.uor (tc : BitVec 2) (sd : BitVec 8) (sa : BitVec 8) (sb : BitVec 8) :
    Laws.Encoding.Statement (.uor tc sd sa sb) := fun h _ hw =>
  Option.some.inj hw ▸ decodeWord_of_fields (by
    simp [urWord, decodeFields_uniformWord, decodeUniform, onlyIf]) h

theorem Laws.Encoding.uxor (tc : BitVec 2) (sd : BitVec 8) (sa : BitVec 8) (sb : BitVec 8) :
    Laws.Encoding.Statement (.uxor tc sd sa sb) := fun h _ hw =>
  Option.some.inj hw ▸ decodeWord_of_fields (by
    simp [urWord, decodeFields_uniformWord, decodeUniform, onlyIf]) h

theorem Laws.Encoding.umul (tc : BitVec 2) (sd : BitVec 8) (sa : BitVec 8) (sb : BitVec 8) :
    Laws.Encoding.Statement (.umul tc sd sa sb) := fun h _ hw =>
  Option.some.inj hw ▸ decodeWord_of_fields (by
    simp [urWord, decodeFields_uniformWord, decodeUniform, onlyIf]) h

theorem Laws.Encoding.umin (tc : BitVec 2) (sd : BitVec 8) (sa : BitVec 8) (sb : BitVec 8) :
    Laws.Encoding.Statement (.umin tc sd sa sb) := fun h _ hw =>
  Option.some.inj hw ▸ decodeWord_of_fields (by
    simp [urWord, decodeFields_uniformWord, decodeUniform, onlyIf]) h

theorem Laws.Encoding.umax (tc : BitVec 2) (sd : BitVec 8) (sa : BitVec 8) (sb : BitVec 8) :
    Laws.Encoding.Statement (.umax tc sd sa sb) := fun h _ hw =>
  Option.some.inj hw ▸ decodeWord_of_fields (by
    simp [urWord, decodeFields_uniformWord, decodeUniform, onlyIf]) h

theorem Laws.Encoding.uaddi (tc : BitVec 2) (sd : BitVec 8) (sa : BitVec 8) (imm : BitVec 8) :
    Laws.Encoding.Statement (.uaddi tc sd sa imm) := fun h _ hw =>
  Option.some.inj hw ▸ decodeWord_of_fields (by
    simp [urWord, decodeFields_uniformWord, decodeUniform, onlyIf]) h

theorem Laws.Encoding.ushi (tc : BitVec 2) (sd : BitVec 8) (sa : BitVec 8) (kind : BitVec 2) (n : BitVec 5) :
    Laws.Encoding.Statement (.ushi tc sd sa kind n) := fun h _ hw =>
  Option.some.inj hw ▸ decodeWord_of_fields (by
    simp [decodeFields_uniformWord, decodeUniform, onlyIf]) h

theorem Laws.Encoding.umovi (tc : BitVec 2) (sd : BitVec 8) (imm : BitVec 16) :
    Laws.Encoding.Statement (.umovi tc sd imm) := fun h _ hw =>
  Option.some.inj hw ▸ decodeWord_of_fields (by
    simp [ulWord, decodeFields_uniformWord, decodeUniform, onlyIf]) h

theorem Laws.Encoding.umovh (tc : BitVec 2) (sd : BitVec 8) (imm : BitVec 16) :
    Laws.Encoding.Statement (.umovh tc sd imm) := fun h _ hw =>
  Option.some.inj hw ▸ decodeWord_of_fields (by
    simp [ulWord, decodeFields_uniformWord, decodeUniform, onlyIf]) h

theorem Laws.Encoding.ucmp (tc : BitVec 2) (q : BitVec 3) (cc : BitVec 5) (sa : BitVec 8) (sb : BitVec 8) :
    Laws.Encoding.Statement (.ucmp tc q cc sa sb) := fun h _ hw =>
  Option.some.inj hw ▸ decodeWord_of_fields (by
    simp [decodeFields_uniformWord, decodeUniform, onlyIf]) h

theorem Laws.Encoding.ubr (tc : BitVec 2) (cond : BitVec 3) (q : BitVec 3) (off : BitVec 18) :
    Laws.Encoding.Statement (.ubr tc cond q off) := fun h _ hw =>
  Option.some.inj hw ▸ decodeWord_of_fields (by
    simp [decodeFields_uniformWord, decodeUniform, onlyIf]) h

theorem Laws.Encoding.urdsr (tc : BitVec 2) (sd : BitVec 8) (n : BitVec 12) :
    Laws.Encoding.Statement (.urdsr tc sd n) := fun h _ hw =>
  Option.some.inj hw ▸ decodeWord_of_fields (by
    simp [uxWord, decodeFields_uniformWord, decodeUniform, decodeUSys, onlyIf]) h

theorem Laws.Encoding.uwrsr (tc : BitVec 2) (sa : BitVec 8) (n : BitVec 12) :
    Laws.Encoding.Statement (.uwrsr tc sa n) := fun hi _ hw =>
  Option.some.inj hw ▸ decodeWord_of_fields (by
    have hn : n = 0x00A := by simpa [Instr.wf, WellFormed] using hi
    subst n
    simp [uxWord, decodeFields_uniformWord, decodeUniform, decodeUSys]) hi

theorem Laws.Encoding.hpois (tc : BitVec 2) (sa : BitVec 8) :
    Laws.Encoding.Statement (.hpois tc sa) := fun h _ hw =>
  Option.some.inj hw ▸ decodeWord_of_fields (by
    simp [uxWord, decodeFields_uniformWord, decodeUniform, decodeUSys, onlyIf]) h

theorem Laws.Encoding.fattach (tc : BitVec 2) (sa : BitVec 8) :
    Laws.Encoding.Statement (.fattach tc sa) := fun h _ hw =>
  Option.some.inj hw ▸ decodeWord_of_fields (by
    simp [uxWord, decodeFields_uniformWord, decodeUniform, decodeUSys, onlyIf]) h

theorem Laws.Encoding.fdetach (tc : BitVec 2) (sa : BitVec 8) :
    Laws.Encoding.Statement (.fdetach tc sa) := fun h _ hw =>
  Option.some.inj hw ▸ decodeWord_of_fields (by
    simp [uxWord, decodeFields_uniformWord, decodeUniform, decodeUSys, onlyIf]) h

theorem Laws.Encoding.uhput (tc : BitVec 2) (sa : BitVec 8) (h : BitVec 4) :
    Laws.Encoding.Statement (.uhput tc sa h) := fun hi _ hw =>
  Option.some.inj hw ▸ decodeWord_of_fields (by
    have k : ∀ (c : BitVec 4) (m : BitVec 12), c = 2 → m = 0#8 ++ h → decodeFields (uxWord tc 0x0E c sa m) = some (.uhput tc sa h) := by
      intro c m ec em
      simp (disch := decide) [uxWord, decodeFields_uniformWord, decodeUniform, decodeUSys, onlyIf, ux_low]
      subst ec em
      rw [extract_top, extract_bottom]; rfl
    exact k _ _ rfl rfl) hi

theorem Laws.Encoding.uhget (tc : BitVec 2) (sd : BitVec 8) (h : BitVec 4) :
    Laws.Encoding.Statement (.uhget tc sd h) := fun hi _ hw =>
  Option.some.inj hw ▸ decodeWord_of_fields (by
    have k : ∀ (c : BitVec 4) (m : BitVec 12), c = 3 → m = 0#8 ++ h → decodeFields (uxWord tc 0x0E c sd m) = some (.uhget tc sd h) := by
      intro c m ec em
      simp (disch := decide) [uxWord, decodeFields_uniformWord, decodeUniform, decodeUSys, onlyIf, ux_low]
      subst ec em
      rw [extract_top, extract_bottom]; rfl
    exact k _ _ rfl rfl) hi

theorem Laws.Encoding.uhtake (tc : BitVec 2) (sd : BitVec 8) (h : BitVec 4) :
    Laws.Encoding.Statement (.uhtake tc sd h) := fun hi _ hw =>
  Option.some.inj hw ▸ decodeWord_of_fields (by
    have k : ∀ (c : BitVec 4) (m : BitVec 12), c = 4 → m = 0#8 ++ h → decodeFields (uxWord tc 0x0E c sd m) = some (.uhtake tc sd h) := by
      intro c m ec em
      simp (disch := decide) [uxWord, decodeFields_uniformWord, decodeUniform, decodeUSys, onlyIf, ux_low]
      subst ec em
      rw [extract_top, extract_bottom]; rfl
    exact k _ _ rfl rfl) hi

theorem Laws.Encoding.unop (tc : BitVec 2) :
    Laws.Encoding.Statement (.unop tc) := fun h _ hw =>
  Option.some.inj hw ▸ decodeWord_of_fields (by
    simp [uxWord, decodeFields_uniformWord, decodeUniform, decodeUSys, onlyIf]) h

theorem Laws.Encoding.uyield (tc : BitVec 2) :
    Laws.Encoding.Statement (.uyield tc) := fun h _ hw =>
  Option.some.inj hw ▸ decodeWord_of_fields (by
    simp [uxWord, decodeFields_uniformWord, decodeUniform, decodeUSys, onlyIf]) h

theorem Laws.Encoding.uld32 (tc : BitVec 2) (sd : BitVec 8) (p : BitVec 7) (ord : BitVec 2) (scope : BitVec 3) :
    Laws.Encoding.Statement (.uld32 tc sd p ord scope) := fun hi _ hw =>
  Option.some.inj hw ▸ decodeWord_of_fields (by
    have k : ∀ (c : BitVec 4) (m : BitVec 12), c = 0 → m = p ++ ord ++ scope → decodeFields (uxWord tc 0x0F c sd m) = some (.uld32 tc sd p ord scope) := by
      intro c m ec em
      simp (disch := decide) [uxWord, decodeFields_uniformWord, decodeUniform, decodeUX, onlyIf, ux_low]
      subst ec em
      rw [extract_first, extract_mid, extract_bottom]; rfl
    exact k _ _ rfl rfl) hi

theorem Laws.Encoding.uld64 (tc : BitVec 2) (sd : BitVec 8) (p : BitVec 7) (ord : BitVec 2) (scope : BitVec 3) :
    Laws.Encoding.Statement (.uld64 tc sd p ord scope) := fun hi _ hw =>
  Option.some.inj hw ▸ decodeWord_of_fields (by
    have k : ∀ (c : BitVec 4) (m : BitVec 12), c = 1 → m = p ++ ord ++ scope → decodeFields (uxWord tc 0x0F c sd m) = some (.uld64 tc sd p ord scope) := by
      intro c m ec em
      simp (disch := decide) [uxWord, decodeFields_uniformWord, decodeUniform, decodeUX, onlyIf, ux_low]
      subst ec em
      rw [extract_first, extract_mid, extract_bottom]; rfl
    exact k _ _ rfl rfl) hi

theorem Laws.Encoding.ust32 (tc : BitVec 2) (sa : BitVec 8) (p : BitVec 7) (ord : BitVec 2) (scope : BitVec 3) :
    Laws.Encoding.Statement (.ust32 tc sa p ord scope) := fun hi _ hw =>
  Option.some.inj hw ▸ decodeWord_of_fields (by
    have k : ∀ (c : BitVec 4) (m : BitVec 12), c = 2 → m = p ++ ord ++ scope → decodeFields (uxWord tc 0x0F c sa m) = some (.ust32 tc sa p ord scope) := by
      intro c m ec em
      simp (disch := decide) [uxWord, decodeFields_uniformWord, decodeUniform, decodeUX, onlyIf, ux_low]
      subst ec em
      rw [extract_first, extract_mid, extract_bottom]; rfl
    exact k _ _ rfl rfl) hi

theorem Laws.Encoding.ust64 (tc : BitVec 2) (sa : BitVec 8) (p : BitVec 7) (ord : BitVec 2) (scope : BitVec 3) :
    Laws.Encoding.Statement (.ust64 tc sa p ord scope) := fun hi _ hw =>
  Option.some.inj hw ▸ decodeWord_of_fields (by
    have k : ∀ (c : BitVec 4) (m : BitVec 12), c = 3 → m = p ++ ord ++ scope → decodeFields (uxWord tc 0x0F c sa m) = some (.ust64 tc sa p ord scope) := by
      intro c m ec em
      simp (disch := decide) [uxWord, decodeFields_uniformWord, decodeUniform, decodeUX, onlyIf, ux_low]
      subst ec em
      rw [extract_first, extract_mid, extract_bottom]; rfl
    exact k _ _ rfl rfl) hi

theorem Laws.Encoding.pan (tc : BitVec 2) (sp : BitVec 8) (sr : BitVec 8) :
    Laws.Encoding.Statement (.pan tc sp sr) := fun h _ hw =>
  Option.some.inj hw ▸ decodeWord_of_fields (by
    simp [urWord, decodeFields_uniformWord, decodeUniform, onlyIf]) h

theorem Laws.Encoding.grn (tc : BitVec 2) (sp : BitVec 8) (sr : BitVec 8) :
    Laws.Encoding.Statement (.grn tc sp sr) := fun h _ hw =>
  Option.some.inj hw ▸ decodeWord_of_fields (by
    simp [urWord, decodeFields_uniformWord, decodeUniform, onlyIf]) h

theorem Laws.Encoding.cpy (tc : BitVec 2) (sp : BitVec 8) (sr : BitVec 8) :
    Laws.Encoding.Statement (.cpy tc sp sr) := fun h _ hw =>
  Option.some.inj hw ▸ decodeWord_of_fields (by
    simp [urWord, decodeFields_uniformWord, decodeUniform, onlyIf]) h

theorem Laws.Encoding.gatNear (tc : BitVec 2) (sp : BitVec 8) (sr : BitVec 8) :
    Laws.Encoding.Statement (.gatNear tc sp sr) := fun h _ hw =>
  Option.some.inj hw ▸ decodeWord_of_fields (by
    simp [urWord, decodeFields_uniformWord, decodeUniform, onlyIf]) h

theorem Laws.Encoding.gatHome (tc : BitVec 2) (sp : BitVec 8) (sr : BitVec 8) :
    Laws.Encoding.Statement (.gatHome tc sp sr) := fun h _ hw =>
  Option.some.inj hw ▸ decodeWord_of_fields (by
    simp [urWord, decodeFields_uniformWord, decodeUniform, onlyIf]) h

theorem Laws.Encoding.sct (tc : BitVec 2) (sp : BitVec 8) (sr : BitVec 8) :
    Laws.Encoding.Statement (.sct tc sp sr) := fun h _ hw =>
  Option.some.inj hw ▸ decodeWord_of_fields (by
    simp [urWord, decodeFields_uniformWord, decodeUniform, onlyIf]) h

theorem Laws.Encoding.fab (tc : BitVec 2) (sp : BitVec 8) (sr : BitVec 8) :
    Laws.Encoding.Statement (.fab tc sp sr) := fun h _ hw =>
  Option.some.inj hw ▸ decodeWord_of_fields (by
    simp [urWord, decodeFields_uniformWord, decodeUniform, onlyIf]) h

theorem Laws.Encoding.waitc (tc : BitVec 2) (cls : BitVec 3) (k : BitVec 16) :
    Laws.Encoding.Statement (.waitc tc cls k) := fun h _ hw =>
  Option.some.inj hw ▸ decodeWord_of_fields (by
    simp [decodeFields_uniformWord, decodeUniform, decodeUX, onlyIf]) h

theorem Laws.Encoding.lnchSucc (tc : BitVec 2) (sa : BitVec 8) (slot : BitVec 3) :
    Laws.Encoding.Statement (.lnchSucc tc sa slot) := fun hi _ hw =>
  Option.some.inj hw ▸ decodeWord_of_fields (by
    have k : ∀ (c : BitVec 4) (m : BitVec 12), c = 0 → m = 0#9 ++ slot → decodeFields (uxWord tc 0x17 c sa m) = some (.lnchSucc tc sa slot) := by
      intro c m ec em
      simp (disch := decide) [uxWord, decodeFields_uniformWord, decodeUniform, decodeUX, onlyIf, ux_low]
      subst ec em
      rw [extract_top, extract_bottom]; rfl
    exact k _ _ rfl rfl) hi

theorem Laws.Encoding.lnchLmode (tc : BitVec 2) (sa : BitVec 8) (mode : BitVec 2) :
    Laws.Encoding.Statement (.lnchLmode tc sa mode) := fun hi _ hw =>
  Option.some.inj hw ▸ decodeWord_of_fields (by
    have k : ∀ (c : BitVec 4) (m : BitVec 12), c = 1 → m = 0#10 ++ mode → decodeFields (uxWord tc 0x17 c sa m) = some (.lnchLmode tc sa mode) := by
      intro c m ec em
      simp (disch := decide) [uxWord, decodeFields_uniformWord, decodeUniform, decodeUX, onlyIf, ux_low]
      subst ec em
      rw [extract_top, extract_bottom]; rfl
    exact k _ _ rfl rfl) hi

theorem Laws.Encoding.lnchCancel (tc : BitVec 2) (sa : BitVec 8) (level : BitVec 2) :
    Laws.Encoding.Statement (.lnchCancel tc sa level) := fun hi _ hw =>
  Option.some.inj hw ▸ decodeWord_of_fields (by
    have k : ∀ (c : BitVec 4) (m : BitVec 12), c = 2 → m = 0#10 ++ level → decodeFields (uxWord tc 0x17 c sa m) = some (.lnchCancel tc sa level) := by
      intro c m ec em
      simp (disch := decide) [uxWord, decodeFields_uniformWord, decodeUniform, decodeUX, onlyIf, ux_low]
      subst ec em
      rw [extract_top, extract_bottom]; rfl
    exact k _ _ rfl rfl) hi

theorem Laws.Encoding.balloc (tc : BitVec 2) (sd : BitVec 8) (n : BitVec 11) :
    Laws.Encoding.Statement (.balloc tc sd n) := fun hi _ hw =>
  Option.some.inj hw ▸ decodeWord_of_fields (by
    have k : ∀ (c : BitVec 4) (m : BitVec 12), c = 0 → m = 0#1 ++ n → decodeFields (uxWord tc 0x18 c sd m) = some (.balloc tc sd n) := by
      intro c m ec em
      simp (disch := decide) [uxWord, decodeFields_uniformWord, decodeUniform, decodeUX, onlyIf, ux_low]
      subst ec em
      rw [extract_top, extract_bottom]; rfl
    exact k _ _ rfl rfl) hi

theorem Laws.Encoding.bfree (tc : BitVec 2) (n : BitVec 11) :
    Laws.Encoding.Statement (.bfree tc n) := fun hi _ hw =>
  Option.some.inj hw ▸ decodeWord_of_fields (by
    have k : ∀ (c : BitVec 4) (r : BitVec 8) (m : BitVec 12), c = 1 → r = 0 → m = 0#1 ++ n → decodeFields (uxWord tc 0x18 c r m) = some (.bfree tc n) := by
      intro c r m ec er em
      simp (disch := decide) [uxWord, decodeFields_uniformWord, decodeUniform, decodeUX, onlyIf, ux_low]
      subst ec er em
      rw [extract_top, extract_bottom]; rfl
    exact k _ _ _ rfl rfl rfl) hi

theorem Laws.Encoding.binitAll (tc : BitVec 2) (n : BitVec 11) :
    Laws.Encoding.Statement (.binitAll tc n) := fun hi _ hw =>
  Option.some.inj hw ▸ decodeWord_of_fields (by
    have k : ∀ (c : BitVec 4) (r : BitVec 8) (m : BitVec 12), c = 2 → r = 0 → m = 0#1 ++ n → decodeFields (uxWord tc 0x18 c r m) = some (.binitAll tc n) := by
      intro c r m ec er em
      simp (disch := decide) [uxWord, decodeFields_uniformWord, decodeUniform, decodeUX, onlyIf, ux_low]
      subst ec er em
      rw [extract_top, extract_bottom]; rfl
    exact k _ _ _ rfl rfl rfl) hi

theorem Laws.Encoding.binitCount (tc : BitVec 2) (sa : BitVec 8) (n : BitVec 11) :
    Laws.Encoding.Statement (.binitCount tc sa n) := fun hi _ hw =>
  Option.some.inj hw ▸ decodeWord_of_fields (by
    have k : ∀ (c : BitVec 4) (m : BitVec 12), c = 2 → m = 1#1 ++ n → decodeFields (uxWord tc 0x18 c sa m) = some (.binitCount tc sa n) := by
      intro c m ec em
      simp (disch := decide) [uxWord, decodeFields_uniformWord, decodeUniform, decodeUX, onlyIf, ux_low]
      subst ec em
      rw [extract_top, extract_bottom]; rfl
    exact k _ _ rfl rfl) hi

theorem Laws.Encoding.utrap (tc : BitVec 2) (code : BitVec 12) :
    Laws.Encoding.Statement (.utrap tc code) := fun hi _ hw =>
  Option.some.inj hw ▸ decodeWord_of_fields (by
    have k : ∀ (c : BitVec 4) (r : BitVec 8), c = 0 → r = 0 → decodeFields (uxWord tc 0x19 c r code) = some (.utrap tc code) := by
      intro c r ec er
      simp (disch := decide) [uxWord, decodeFields_uniformWord, decodeUniform, decodeUX, onlyIf, ux_low]
      subst ec er
      rfl
    exact k _ _ rfl rfl) hi

theorem Laws.Encoding.upark (tc : BitVec 2) (sa : BitVec 8) (code : BitVec 12) :
    Laws.Encoding.Statement (.upark tc sa code) := fun h _ hw =>
  Option.some.inj hw ▸ decodeWord_of_fields (by
    simp [uxWord, decodeFields_uniformWord, decodeUniform, decodeUX, onlyIf]) h

theorem Laws.Encoding.registerWrite (req : Nat) (off : Nat) (size : Nat) (val : BitVec 32) :
    Laws.Encoding.Statement (.registerWrite req off size val) := fun _ _ hw => nomatch hw

theorem Laws.Encoding.launchPacketRead (src : PacketSource) :
    Laws.Encoding.Statement (.launchPacketRead src) := fun _ _ hw => nomatch hw

theorem Laws.Encoding.launchPop :
    Laws.Encoding.Statement .launchPop := fun _ _ hw => nomatch hw

theorem Laws.Encoding.blockExpansion (slot : Nat) :
    Laws.Encoding.Statement (.blockExpansion slot) := fun _ _ hw => nomatch hw

theorem Laws.Encoding.innerSluiceMove (sluice : Nat) :
    Laws.Encoding.Statement (.innerSluiceMove sluice) := fun _ _ hw => nomatch hw

theorem Laws.Encoding.engineItemPush (cluster : Nat) :
    Laws.Encoding.Statement (.engineItemPush cluster) := fun _ _ hw => nomatch hw

theorem Laws.Encoding.coreLeafPop (cluster : Nat) :
    Laws.Encoding.Statement (.coreLeafPop cluster) := fun _ _ hw => nomatch hw

theorem Laws.Encoding.panPop (cluster : Nat) :
    Laws.Encoding.Statement (.panPop cluster) := fun _ _ hw => nomatch hw

theorem Laws.Encoding.panStep (cluster : Nat) :
    Laws.Encoding.Statement (.panStep cluster) := fun _ _ hw => nomatch hw

theorem Laws.Encoding.grainerPop (cluster : Nat) :
    Laws.Encoding.Statement (.grainerPop cluster) := fun _ _ hw => nomatch hw

theorem Laws.Encoding.grainerStep (cluster : Nat) :
    Laws.Encoding.Statement (.grainerStep cluster) := fun _ _ hw => nomatch hw

theorem Laws.Encoding.copyLeafPop (cluster : Nat) :
    Laws.Encoding.Statement (.copyLeafPop cluster) := fun _ _ hw => nomatch hw

theorem Laws.Encoding.segmenterRead (group : Nat) :
    Laws.Encoding.Statement (.segmenterRead group) := fun _ _ hw => nomatch hw

theorem Laws.Encoding.copySegmentComplete (cluster : Nat) :
    Laws.Encoding.Statement (.copySegmentComplete cluster) := fun _ _ hw => nomatch hw

theorem Laws.Encoding.engineOpComplete (op : Nat) :
    Laws.Encoding.Statement (.engineOpComplete op) := fun _ _ hw => nomatch hw

theorem Laws.Encoding.successorRelease (launch : Nat) :
    Laws.Encoding.Statement (.successorRelease launch) := fun _ _ hw => nomatch hw

theorem Laws.Encoding.loadComplete (id : Nat) :
    Laws.Encoding.Statement (.loadComplete id) := fun _ _ hw => nomatch hw

theorem Laws.Encoding.atomicComplete (id : Nat) :
    Laws.Encoding.Statement (.atomicComplete id) := fun _ _ hw => nomatch hw

theorem Laws.Encoding.redComplete (id : Nat) :
    Laws.Encoding.Statement (.redComplete id) := fun _ _ hw => nomatch hw

theorem Laws.Encoding.rowReadComplete (id : Nat) :
    Laws.Encoding.Statement (.rowReadComplete id) := fun _ _ hw => nomatch hw

theorem Laws.Encoding.rowWriteApply (id : Nat) :
    Laws.Encoding.Statement (.rowWriteApply id) := fun _ _ hw => nomatch hw

theorem Laws.Encoding.sectorFill (id : Nat) :
    Laws.Encoding.Statement (.sectorFill id) := fun _ _ hw => nomatch hw

theorem Laws.Encoding.hatchReadComplete (id : Nat) :
    Laws.Encoding.Statement (.hatchReadComplete id) := fun _ _ hw => nomatch hw

theorem Laws.Encoding.lremReadComplete (id : Nat) :
    Laws.Encoding.Statement (.lremReadComplete id) := fun _ _ hw => nomatch hw

theorem Laws.Encoding.lmodeComplete (id : Nat) :
    Laws.Encoding.Statement (.lmodeComplete id) := fun _ _ hw => nomatch hw

theorem Laws.Encoding.translationFault (index : Nat) :
    Laws.Encoding.Statement (.translationFault index) := fun _ _ hw => nomatch hw

theorem Laws.Encoding.registerRead (req : Nat) (off : Nat) (size : Nat) :
    Laws.Encoding.Statement (.registerRead req off size) := fun _ _ hw => nomatch hw

theorem Laws.Encoding.coreCycle (core : Nat) :
    Laws.Encoding.Statement (.coreCycle core) := fun _ _ hw => nomatch hw

theorem Laws.Encoding.storePerformed (id : Nat) :
    Laws.Encoding.Statement (.storePerformed id) := fun _ _ hw => nomatch hw

theorem Laws.Encoding.powerOnReset (strap : Bool) (stages : List BootImage) :
    Laws.Encoding.Statement (.powerOnReset strap stages) := fun _ _ hw => nomatch hw

theorem Laws.Encoding.hostRegisterWrite (off : Nat) (size : Nat) (val : BitVec 32) :
    Laws.Encoding.Statement (.hostRegisterWrite off size val) := fun _ _ hw => nomatch hw

theorem Laws.Encoding.devnumWrite (val : BitVec 32) :
    Laws.Encoding.Statement (.devnumWrite val) := fun _ _ hw => nomatch hw

theorem Laws.Encoding.classpolWrite (core : Nat) (val : BitVec 32) :
    Laws.Encoding.Statement (.classpolWrite core val) := fun _ _ hw => nomatch hw

theorem Laws.Encoding.lmodeRegisterWrite (cluster : Nat) (reg : Nat) (val : BitVec 32) :
    Laws.Encoding.Statement (.lmodeRegisterWrite cluster reg val) := fun _ _ hw => nomatch hw

theorem Laws.Encoding.stagingRegionWrite (cluster : Nat) (grainer : Bool) (val : BitVec 32) :
    Laws.Encoding.Statement (.stagingRegionWrite cluster grainer val) := fun _ _ hw => nomatch hw

theorem Laws.Encoding.panReset (cluster : Nat) :
    Laws.Encoding.Statement (.panReset cluster) := fun _ _ hw => nomatch hw

theorem Laws.Encoding.grainerReset (cluster : Nat) :
    Laws.Encoding.Statement (.grainerReset cluster) := fun _ _ hw => nomatch hw

theorem Laws.Encoding.engineWatchdog (cluster : Nat) (grainer : Bool) :
    Laws.Encoding.Statement (.engineWatchdog cluster grainer) := fun _ _ hw => nomatch hw

theorem Laws.Encoding.engineResetEnd (cluster : Nat) (grainer : Bool) :
    Laws.Encoding.Statement (.engineResetEnd cluster grainer) := fun _ _ hw => nomatch hw

theorem Laws.Encoding.sluiceEnable (sluice : Nat) (val : BitVec 32) :
    Laws.Encoding.Statement (.sluiceEnable sluice val) := fun _ _ hw => nomatch hw

theorem Laws.Encoding.sluiceDisable (sluice : Nat) (val : BitVec 32) :
    Laws.Encoding.Statement (.sluiceDisable sluice val) := fun _ _ hw => nomatch hw

theorem Laws.Encoding.leafProgWrite (leaf : Nat) (val : BitVec 32) :
    Laws.Encoding.Statement (.leafProgWrite leaf val) := fun _ _ hw => nomatch hw

theorem Laws.Encoding.progStoreWrite (slot : Nat) (word : Nat) (val : BitVec 32) :
    Laws.Encoding.Statement (.progStoreWrite slot word val) := fun _ _ hw => nomatch hw

theorem Laws.Encoding.ndataWrite (val : BitVec 32) :
    Laws.Encoding.Statement (.ndataWrite val) := fun _ _ hw => nomatch hw

theorem Laws.Encoding.rowEntryValidate (tenant : Nat) (entry : Nat) (val : BitVec 32) :
    Laws.Encoding.Statement (.rowEntryValidate tenant entry val) := fun _ _ hw => nomatch hw

theorem Laws.Encoding.rowEntryDeregister (tenant : Nat) (entry : Nat) :
    Laws.Encoding.Statement (.rowEntryDeregister tenant entry) := fun _ _ hw => nomatch hw

theorem Laws.Encoding.fqansResume (tenant : Nat) (tag : BitVec 24) :
    Laws.Encoding.Statement (.fqansResume tenant tag) := fun _ _ hw => nomatch hw

theorem Laws.Encoding.fqansAbort (tenant : Nat) (tag : BitVec 24) :
    Laws.Encoding.Statement (.fqansAbort tenant tag) := fun _ _ hw => nomatch hw

theorem Laws.Encoding.fqconsWrite (tenant : Nat) (val : BitVec 32) :
    Laws.Encoding.Statement (.fqconsWrite tenant val) := fun _ _ hw => nomatch hw

theorem Laws.Encoding.tenantReset (tenant : Nat) :
    Laws.Encoding.Statement (.tenantReset tenant) := fun _ _ hw => nomatch hw

theorem Laws.Encoding.tenantResetDone (tenant : Nat) :
    Laws.Encoding.Statement (.tenantResetDone tenant) := fun _ _ hw => nomatch hw

theorem Laws.Encoding.tlbiPage (tenant : Nat) :
    Laws.Encoding.Statement (.tlbiPage tenant) := fun _ _ hw => nomatch hw

theorem Laws.Encoding.tlbiStage1 (tenant : Nat) :
    Laws.Encoding.Statement (.tlbiStage1 tenant) := fun _ _ hw => nomatch hw

theorem Laws.Encoding.tlbiAll (tenant : Nat) :
    Laws.Encoding.Statement (.tlbiAll tenant) := fun _ _ hw => nomatch hw

theorem Laws.Encoding.tlbInvalidationDone (tenant : Nat) :
    Laws.Encoding.Statement (.tlbInvalidationDone tenant) := fun _ _ hw => nomatch hw

theorem Laws.Encoding.irtUnmask (source : Nat) :
    Laws.Encoding.Statement (.irtUnmask source) := fun _ _ hw => nomatch hw

theorem Laws.Encoding.attestation :
    Laws.Encoding.Statement .attestation := fun _ _ hw => nomatch hw

theorem Laws.Encoding.attestationDone (rand : Nat) :
    Laws.Encoding.Statement (.attestationDone rand) := fun _ _ hw => nomatch hw

theorem Laws.Encoding.debugRun (core : Nat) :
    Laws.Encoding.Statement (.debugRun core) := fun _ _ hw => nomatch hw

theorem Laws.Encoding.powerWindow (avg : Nat) (temp : Nat) :
    Laws.Encoding.Statement (.powerWindow avg temp) := fun _ _ hw => nomatch hw

theorem Laws.Encoding.securityAlarm (source : BitVec 2) :
    Laws.Encoding.Statement (.securityAlarm source) := fun _ _ hw => nomatch hw

theorem Laws.Encoding.readPout (addr : BitVec 7) (milliwatts : Int) :
    Laws.Encoding.Statement (.readPout addr milliwatts) := fun _ _ hw => nomatch hw

theorem Laws.Encoding.readTemperature1 (addr : BitVec 7) (millidegrees : Int) :
    Laws.Encoding.Statement (.readTemperature1 addr millidegrees) := fun _ _ hw => nomatch hw

theorem Laws.Encoding.readVin (addr : BitVec 7) (millivolts : Int) :
    Laws.Encoding.Statement (.readVin addr millivolts) := fun _ _ hw => nomatch hw

theorem Laws.Encoding.readIout (addr : BitVec 7) (milliamps : Int) :
    Laws.Encoding.Statement (.readIout addr milliamps) := fun _ _ hw => nomatch hw

theorem Laws.Encoding.pmbusLimitRead (c : PmbusCommand) :
    Laws.Encoding.Statement (.pmbusLimitRead c) := fun _ _ hw => nomatch hw

theorem Laws.Encoding.pmbusLimitWrite (c : PmbusCommand) (val : BitVec 16) :
    Laws.Encoding.Statement (.pmbusLimitWrite c val) := fun _ _ hw => nomatch hw

theorem Laws.Encoding.idcode :
    Laws.Encoding.Statement .idcode := fun _ _ hw => nomatch hw

theorem Laws.Encoding.bypass (bits : List Bool) :
    Laws.Encoding.Statement (.bypass bits) := fun _ _ hw => nomatch hw

theorem Laws.Encoding.boundaryScan (pins : List Bool) :
    Laws.Encoding.Statement (.boundaryScan pins) := fun _ _ hw => nomatch hw

theorem Laws.Encoding.runnerRestart (runner : Nat) :
    Laws.Encoding.Statement (.runnerRestart runner) := fun _ _ hw => nomatch hw

theorem Laws.Encoding.aqiLaunch (w : NotifyWrite) :
    Laws.Encoding.Statement (.aqiLaunch w) := fun _ _ hw => nomatch hw

theorem Laws.Encoding.aqiCancel (w : NotifyWrite) :
    Laws.Encoding.Statement (.aqiCancel w) := fun _ _ hw => nomatch hw

theorem Laws.Encoding.aqiCopy (w : NotifyWrite) :
    Laws.Encoding.Statement (.aqiCopy w) := fun _ _ hw => nomatch hw

theorem Laws.Encoding.aqiRowreg (w : NotifyWrite) :
    Laws.Encoding.Statement (.aqiRowreg w) := fun _ _ hw => nomatch hw

theorem Laws.Encoding.aqiRowdereg (w : NotifyWrite) :
    Laws.Encoding.Statement (.aqiRowdereg w) := fun _ _ hw => nomatch hw

theorem Laws.Encoding.aqiFqanswer (w : NotifyWrite) :
    Laws.Encoding.Statement (.aqiFqanswer w) := fun _ _ hw => nomatch hw

theorem Laws.Encoding.aqiFqcons (w : NotifyWrite) :
    Laws.Encoding.Statement (.aqiFqcons w) := fun _ _ hw => nomatch hw

theorem Laws.Encoding.hostTransferPop :
    Laws.Encoding.Statement .hostTransferPop := fun _ _ hw => nomatch hw

theorem Laws.Encoding.flitReceive (port : Nat) (flit : Flit) :
    Laws.Encoding.Statement (.flitReceive port flit) := fun _ _ hw => nomatch hw

theorem Laws.Encoding.flitNak (port : Nat) (ackseq : BitVec 12) (uncorrectable : Bool) :
    Laws.Encoding.Statement (.flitNak port ackseq uncorrectable) := fun _ _ hw => nomatch hw

theorem Laws.Encoding.tombstoneReceive (port : Nat) (flit : Flit) :
    Laws.Encoding.Statement (.tombstoneReceive port flit) := fun _ _ hw => nomatch hw

theorem Laws.Encoding.fabricPacketReceive (p : FabPacket) :
    Laws.Encoding.Statement (.fabricPacketReceive p) := fun _ _ hw => nomatch hw

theorem Laws.Encoding.getResponseReceive (route : AnswerRoute) (num : Nat) (data : List (BitVec 8)) :
    Laws.Encoding.Statement (.getResponseReceive route num data) := fun _ _ hw => nomatch hw

theorem Laws.Encoding.e2eAckReceive (route : AnswerRoute) (num : Nat) (status : Nat) :
    Laws.Encoding.Statement (.e2eAckReceive route num status) := fun _ _ hw => nomatch hw

theorem Laws.Encoding.e2eRetryRequest (route : AnswerRoute) (num : Nat) :
    Laws.Encoding.Statement (.e2eRetryRequest route num) := fun _ _ hw => nomatch hw

theorem Laws.Encoding.e2eTimeout (device : Nat) (num : Nat) :
    Laws.Encoding.Statement (.e2eTimeout device num) := fun _ _ hw => nomatch hw

theorem Laws.Encoding.fabricPortPop (port : Nat) :
    Laws.Encoding.Statement (.fabricPortPop port) := fun _ _ hw => nomatch hw

theorem Laws.Encoding.replicatedLaunchReceive (name : PacketName) (tenant : Nat) (packet : List (BitVec 8)) :
    Laws.Encoding.Statement (.replicatedLaunchReceive name tenant packet) := fun _ _ hw => nomatch hw

theorem Laws.Encoding.readyReceive (name : PacketName) (tenant : Nat) (gen : BitVec 32) (accept : Bool) :
    Laws.Encoding.Statement (.readyReceive name tenant gen accept) := fun _ _ hw => nomatch hw

theorem Laws.Encoding.goReceive (name : PacketName) (tenant : Nat) (gen : BitVec 32) :
    Laws.Encoding.Statement (.goReceive name tenant gen) := fun _ _ hw => nomatch hw

theorem Laws.Encoding.dropReceive (name : PacketName) (tenant : Nat) (gen : BitVec 32) :
    Laws.Encoding.Statement (.dropReceive name tenant gen) := fun _ _ hw => nomatch hw

theorem Laws.Encoding.blockSave (block : Nat) :
    Laws.Encoding.Statement (.blockSave block) := fun _ _ hw => nomatch hw

theorem Laws.Encoding.parkedBarrierArrival (id : Nat) :
    Laws.Encoding.Statement (.parkedBarrierArrival id) := fun _ _ hw => nomatch hw

theorem Laws.Encoding.stagingStart (cluster : Nat) (grainer : Bool) :
    Laws.Encoding.Statement (.stagingStart cluster grainer) := fun _ _ hw => nomatch hw

theorem Laws.Encoding.stagingComplete (cluster : Nat) (grainer : Bool) :
    Laws.Encoding.Statement (.stagingComplete cluster grainer) := fun _ _ hw => nomatch hw

theorem Laws.Encoding.tailRepush (cluster : Nat) (grainer : Bool) :
    Laws.Encoding.Statement (.tailRepush cluster grainer) := fun _ _ hw => nomatch hw

theorem Laws.Encoding.engineTranslationFault (index : Nat) :
    Laws.Encoding.Statement (.engineTranslationFault index) := fun _ _ hw => nomatch hw

theorem Laws.Encoding.cancel (tenant : Nat) (level : BitVec 2) (index : Nat) :
    Laws.Encoding.Statement (.cancel tenant level index) := fun _ _ hw => nomatch hw

theorem Laws.Encoding.starvationOverride (core : Nat) :
    Laws.Encoding.Statement (.starvationOverride core) := fun _ _ hw => nomatch hw

theorem Laws.Encoding.floorQueueEntry (core : Nat) :
    Laws.Encoding.Statement (.floorQueueEntry core) := fun _ _ hw => nomatch hw

theorem Laws.Encoding.uniformFloorQueueEntry (core : Nat) :
    Laws.Encoding.Statement (.uniformFloorQueueEntry core) := fun _ _ hw => nomatch hw

theorem Laws.Encoding.deferralEnd (thread : Nat) :
    Laws.Encoding.Statement (.deferralEnd thread) := fun _ _ hw => nomatch hw

theorem Laws.Encoding.runExpiry (core : Nat) :
    Laws.Encoding.Statement (.runExpiry core) := fun _ _ hw => nomatch hw

theorem Laws.Encoding.barrierReleaseArrival (id : Nat) :
    Laws.Encoding.Statement (.barrierReleaseArrival id) := fun _ _ hw => nomatch hw

theorem Laws.Encoding.launchBarrierRelease (launch : Nat) :
    Laws.Encoding.Statement (.launchBarrierRelease launch) := fun _ _ hw => nomatch hw

theorem Laws.Encoding.barrierTimeout (block : Nat) (index : Nat) :
    Laws.Encoding.Statement (.barrierTimeout block index) := fun _ _ hw => nomatch hw

theorem Laws.Encoding.bargTimeout (group : Nat) :
    Laws.Encoding.Statement (.bargTimeout group) := fun _ _ hw => nomatch hw

theorem Laws.Encoding.blockStalled (block : Nat) :
    Laws.Encoding.Statement (.blockStalled block) := fun _ _ hw => nomatch hw

theorem Laws.Encoding.nearProbe (id : Nat) :
    Laws.Encoding.Statement (.nearProbe id) := fun _ _ hw => nomatch hw

theorem Laws.Encoding.lineEviction (cluster : Nat) (line : Nat) :
    Laws.Encoding.Statement (.lineEviction cluster line) := fun _ _ hw => nomatch hw

theorem Laws.Encoding.ballocAnswer (group : Nat) :
    Laws.Encoding.Statement (.ballocAnswer group) := fun _ _ hw => nomatch hw

theorem Laws.Encoding.faultRecordDrain (tenant : Nat) :
    Laws.Encoding.Statement (.faultRecordDrain tenant) := fun _ _ hw => nomatch hw

theorem Laws.Encoding.barrierArrivalReceive (id : Nat) :
    Laws.Encoding.Statement (.barrierArrivalReceive id) := fun _ _ hw => nomatch hw

theorem Laws.Encoding.hostTransferComplete (id : Nat) :
    Laws.Encoding.Statement (.hostTransferComplete id) := fun _ _ hw => nomatch hw

theorem Laws.Encoding.bridgeRequestReceive (p : BridgePacket) :
    Laws.Encoding.Statement (.bridgeRequestReceive p) := fun _ _ hw => nomatch hw

theorem Laws.Encoding.linkTraining (port : Nat) :
    Laws.Encoding.Statement (.linkTraining port) := fun _ _ hw => nomatch hw

end Sys2Proof
end

