-- ==== Sys2Proof/Tests/Slice0.lean ====
section
/-! SUPPORT. The model's own tests: words decoded, ill-formed terms refused, single steps, and for every statement
that has hypotheses a concrete state that meets them, clause by clause. -/

namespace Sys2Proof.Tests

open Sys2Proof Sys2Proof.Machine

/-- Each word decodes to the instruction beside it, and that instruction encodes to the word. -/
def decodesAs (l : List (Word32 × Instr)) : Bool :=
  l.all (fun p => decodeWord p.1 == some p.2 && encode p.2 == some p.1)

/-- Each instruction is ill-formed, and no word decodes to it through the encoder. -/
def refusesAll (l : List Instr) : Bool :=
  l.all (fun i => !i.wf && (match encode i with
    | some w => decodeWord w != some i
    | none => true))

/-- The prefix words: one for each row of the opcode table, from its match bits and field positions. -/
theorem test_decode_prefix : decodesAs [
    (0x1E48A58A, .mod 72 1 0 1 0 88 10), (0x1EDA5A5A, .limm 5921370)] = true := by decide

/-- The lane integer words: one for each row of the opcode table, from its match bits and field positions. -/
theorem test_decode_integer_1 : decodesAs [
    (0x40484850, .add 2 72 36 20), (0x40484851, .sub 2 72 36 20),
    (0x40484852, .min 2 72 36 20), (0x40484853, .max 2 72 36 20),
    (0x40C84850, .minu 2 72 36 20), (0x40C84851, .maxu 2 72 36 20),
    (0x40C84852, .absd 2 72 36 20), (0x40C84853, .addsat 2 72 36 20),
    (0x41484850, .and 2 72 36 20), (0x41484851, .or 2 72 36 20),
    (0x41484852, .xor 2 72 36 20), (0x41484853, .andn 2 72 36 20),
    (0x41C84850, .shl 2 72 36 20), (0x41C84851, .shr 2 72 36 20),
    (0x41C84852, .sar 2 72 36 20), (0x41C84853, .ror 2 72 36 20),
    (0x42484850, .mul 2 72 36 20), (0x42484851, .mulhi 2 72 36 20),
    (0x42484852, .mulhiu 2 72 36 20), (0x42484853, .mad 2 72 36 20),
    (0x42C84850, .div 2 72 36 20), (0x42C84851, .divu 2 72 36 20),
    (0x42C84852, .rem 2 72 36 20), (0x42C84853, .remu 2 72 36 20),
    (0x43484850, .seq 2 72 36 20), (0x43484851, .sne 2 72 36 20),
    (0x43484852, .slt 2 72 36 20), (0x43484853, .sltu 2 72 36 20)] = true := by decide

/-- The lane integer words: one for each row of the opcode table, from its match bits and field positions. -/
theorem test_decode_integer_2 : decodesAs [
    (0x43C84850, .sel 2 72 36 20), (0x43C84801, .clz 2 72 36),
    (0x43C84802, .popc 2 72 36), (0x43C84803, .brev 2 72 36),
    (0x44484955, .addi 2 72 36 341), (0x44C84815, .shli 2 72 36 21),
    (0x44C84835, .shri 2 72 36 21), (0x44C84855, .sari 2 72 36 21),
    (0x44C84875, .rori 2 72 36 21), (0x45484850, .bfx 2 72 36 20),
    (0x45484851, .bfxu 2 72 36 20), (0x45484852, .bfi 2 72 36 20),
    (0x45484853, .prmb 2 72 36 20), (0x45C8A5C3, .movi 2 72 42435),
    (0x464800B0, .movs 2 72 88), (0x46C8000A, .hget 2 72 10),
    (0x46C8400A, .htake 2 72 10), (0x46C8800A, .hput 2 72 10),
    (0x46C8C009, .rdls 2 72 9), (0x47484850, .xlnIdx 2 72 36 20),
    (0x47484851, .xlnXor 2 72 36 20), (0x47484852, .xlnUp 2 72 36 20),
    (0x47484853, .xlnDn 2 72 36 20), (0x47C84800, .voteAny 2 72 36),
    (0x47C84801, .voteAll 2 72 36), (0x47C84802, .voteBal 2 72 36),
    (0x47C84803, .xred 2 72 36)] = true := by decide

/-- The lane floating-point, conversion and ternary words: one for each row of the opcode table, from its match bits and field positions. -/
theorem test_decode_float_1 : decodesAs [
    (0x48484850, .fadd 2 72 36 20), (0x48484851, .fsub 2 72 36 20),
    (0x48484852, .fmul 2 72 36 20), (0x48484853, .fmin 2 72 36 20),
    (0x48C84850, .fmax 2 72 36 20), (0x48C84851, .ffma 2 72 36 20),
    (0x49484850, .fseq 2 72 36 20), (0x49484851, .fslt 2 72 36 20),
    (0x49484852, .fsle 2 72 36 20), (0x49484853, .fsun 2 72 36 20),
    (0x49C84850, .hadd2 2 72 36 20), (0x49C84851, .hmul2 2 72 36 20),
    (0x49C84852, .hfma2 2 72 36 20), (0x49C84853, .hmax2 2 72 36 20),
    (0x4A484800, .frcp 2 72 36), (0x4A484801, .frsq 2 72 36),
    (0x4A484802, .fex2 2 72 36), (0x4A484803, .flg2 2 72 36),
    (0x4AC84850, .fdiv 2 72 36 20), (0x4AC84801, .fsqrt 2 72 36),
    (0x4AC84852, .fscl 2 72 36 20), (0x4AC84803, .ffrc 2 72 36),
    (0x4B484800, .cvtF32S32 2 72 36), (0x4B484801, .cvtS32F32 2 72 36),
    (0x4B484802, .cvtF32Bf16 2 72 36), (0x4B484853, .cvtBf16F32 2 72 36 20),
    (0x4BC84800, .cvtE4m3F32 2 72 36), (0x4BC84801, .cvtF32E4m3 2 72 36)] = true := by decide

/-- The lane floating-point, conversion and ternary words: one for each row of the opcode table, from its match bits and field positions. -/
theorem test_decode_float_2 : decodesAs [
    (0x4BC84802, .cvtE5m2F32 2 72 36), (0x4BC84803, .cvtF32E5m2 2 72 36),
    (0x4C484850, .scacc 2 72 36 20), (0x4C484851, .scacc2 2 72 36 20),
    (0x4C484852, .qnt8 2 72 36 20), (0x4C484853, .qnte4 2 72 36 20),
    (0x4CC84850, .dp4 2 72 36 20), (0x4CC84851, .dp4u 2 72 36 20),
    (0x4CC84852, .dp2h 2 72 36 20), (0x4D484850, .trnQ 2 72 36 20),
    (0x4D484801, .trnPk 2 72 36), (0x4D484802, .trnUp 2 72 36),
    (0x4D484853, .trnDg 2 72 36 20), (0x4DC84800, .trnChk4 2 72 36),
    (0x4DC84801, .trnZ4 2 72 36)] = true := by decide

/-- The memory words: one for each row of the opcode table, from its match bits and field positions. -/
theorem test_decode_memory : decodesAs [
    (0x504848BA, .ldU8 2 72 36 1 3 10), (0x50C848BA, .ldS8 2 72 36 1 3 10),
    (0x514848BA, .ldU16 2 72 36 1 3 10), (0x51C848BA, .ldS16 2 72 36 1 3 10),
    (0x524848BA, .ldB32 2 72 36 1 3 10), (0x52C848BA, .ldB64 2 72 36 1 3 10),
    (0x534848BA, .ldB128 2 72 36 1 3 10), (0x53C848BA, .stB8 2 72 36 1 3 10),
    (0x544848BA, .stB16 2 72 36 1 3 10), (0x54C848BA, .stB32 2 72 36 1 3 10),
    (0x554848BA, .stB64 2 72 36 1 3 10), (0x55C848BA, .stB128 2 72 36 1 3 10),
    (0x5648494D, .atom32 2 72 36 10 3 1), (0x56C848CD, .atom64 2 72 36 6 3 1),
    (0x5748494E, .red 2 72 36 10 3 2), (0x5782C000, .fence 2 1 3),
    (0x578C8480, .ldrowNear 2 72 36), (0x57948480, .ldrowHome 2 72 36),
    (0x579C8480, .strow 2 72 36), (0x57A48480, .raddBf16 2 72 36),
    (0x57AC8480, .raddF32 2 72 36), (0x57B48480, .rmaxBf16 2 72 36),
    (0x57BC8000, .prf 2 72), (0x57C48000, .wbl 2 72),
    (0x57CC8000, .invl 2 72)] = true := by decide

/-- The control words: one for each row of the opcode table, from its match bits and field positions. -/
theorem test_decode_control : decodesAs [
    (0x58091ABC, .brEqz 2 72 6844), (0x58191ABC, .brNez 2 72 6844),
    (0x58291ABC, .brLtz 2 72 6844), (0x58391ABC, .brGez 2 72 6844),
    (0x58491ABC, .brGtz 2 72 6844), (0x58591ABC, .brLez 2 72 6844),
    (0x58601ABC, .brAlw 2 6844), (0x58C8A5C3, .call 2 72 42435),
    (0x59009000, .jmpr 2 72), (0x59484801, .callr 2 72 36),
    (0x59009002, .ret 2 72), (0x598003A5, .barArv 2 933),
    (0x59A003A5, .barWt 2 933), (0x59C003A5, .barSync 2 933),
    (0x59F203A5, .barArvc 2 72 933), (0x5A000000, .nop 2),
    (0x5A200000, .barg 2), (0x5A400000, .exit 2),
    (0x5A600000, .yield 2), (0x5C00A5C3, .trap 2 42435),
    (0x5C200000, .rett 2), (0x5C40A5C3, .brk 2 42435),
    (0x5C600000, .ill 2), (0x5C920003, .rdts 2 72 3),
    (0x5CB20003, .wrts 2 72 3)] = true := by decide

/-- The uniform words: one for each row of the opcode table, from its match bits and field positions. -/
theorem test_decode_uniform : decodesAs [
    (0xC0582C0E, .uadd 2 88 44 14), (0xC1582C0E, .usub 2 88 44 14),
    (0xC2582C0E, .uand 2 88 44 14), (0xC3582C0E, .uor 2 88 44 14),
    (0xC4582C0E, .uxor 2 88 44 14), (0xC5582C0E, .umul 2 88 44 14),
    (0xC6582C0E, .umin 2 88 44 14), (0xC7582C0E, .umax 2 88 44 14),
    (0xC8582C0E, .uaddi 2 88 44 14), (0xC9582C55, .ushi 2 88 44 1 21),
    (0xCA58A5C3, .umovi 2 88 42435), (0xCB58A5C3, .umovh 2 88 42435),
    (0xCC65582C, .ucmp 2 3 5 88 44), (0xCD4EF0F3, .ubr 2 2 3 192755),
    (0xCE05800C, .urdsr 2 88 12), (0xCE15800A, .uwrsr 2 88 10),
    (0xCE15800B, .hpois 2 88), (0xCE15800C, .fattach 2 88),
    (0xCE15800D, .fdetach 2 88), (0xCE25800A, .uhput 2 88 10),
    (0xCE35800A, .uhget 2 88 10), (0xCE45800A, .uhtake 2 88 10),
    (0xCE500000, .unop 2), (0xCE600000, .uyield 2),
    (0xCF05890B, .uld32 2 88 72 1 3), (0xCF15890B, .uld64 2 88 72 1 3),
    (0xCF25890B, .ust32 2 88 72 1 3), (0xCF35890B, .ust64 2 88 72 1 3)] = true := by decide

/-- The engine words: one for each row of the opcode table, from its match bits and field positions. -/
theorem test_decode_engine : decodesAs [
    (0xD0605800, .pan 2 96 88), (0xD1605800, .grn 2 96 88),
    (0xD2605800, .cpy 2 96 88), (0xD3605800, .gatNear 2 96 88),
    (0xD3605801, .gatHome 2 96 88), (0xD4605800, .sct 2 96 88),
    (0xD5605800, .fab 2 96 88), (0xD606A5C3, .waitc 2 3 42435),
    (0xD7058003, .lnchSucc 2 88 3), (0xD7158001, .lnchLmode 2 88 1),
    (0xD7258001, .lnchCancel 2 88 1)] = true := by decide

/-- The barrier-object and trap words: one for each row of the opcode table, from its match bits and field positions. -/
theorem test_decode_blocks : decodesAs [
    (0xD80583A5, .balloc 2 88 933), (0xD81003A5, .bfree 2 933),
    (0xD82003A5, .binitAll 2 933), (0xD8258BA5, .binitCount 2 88 933),
    (0xD90000A5, .utrap 2 165), (0xD91580A5, .upark 2 88 165)] = true := by decide

/-- Each field value that a check of `WellFormed` refuses, in an instruction that is otherwise well formed. -/
theorem test_ill_formed_1 : refusesAll [
    .add 0 0 0 0, .hget 0 1 16, .htake 0 1 16, .hput 0 1 16, .rdls 0 1 11, .ldU8 0 8 127 0 0 0, .ldU8 0 8 4 3 0 0,
    .ldU8 0 8 4 0 5 0, .ldS8 0 8 127 0 0 0, .ldS8 0 8 4 3 0 0, .ldS8 0 8 4 0 5 0, .ldU16 0 8 127 0 0 0,
    .ldU16 0 8 4 3 0 0, .ldU16 0 8 4 0 5 0, .ldS16 0 8 127 0 0 0, .ldS16 0 8 4 3 0 0, .ldS16 0 8 4 0 5 0,
    .ldB32 0 8 127 0 0 0, .ldB32 0 8 4 3 0 0, .ldB32 0 8 4 0 5 0, .ldB64 0 8 127 0 0 0, .ldB64 0 8 4 3 0 0,
    .ldB64 0 8 4 0 5 0, .ldB128 0 8 127 0 0 0, .ldB128 0 8 4 3 0 0, .ldB128 0 8 4 0 5 0, .ldB64 0 9 4 0 0 0,
    .ldB128 0 10 4 0 0 0, .stB8 0 8 127 0 0 0, .stB8 0 8 4 2 0 0, .stB8 0 8 4 0 5 0, .stB16 0 8 127 0 0 0,
    .stB16 0 8 4 2 0 0, .stB16 0 8 4 0 5 0, .stB32 0 8 127 0 0 0, .stB32 0 8 4 2 0 0, .stB32 0 8 4 0 5 0,
    .stB64 0 8 127 0 0 0, .stB64 0 8 4 2 0 0, .stB64 0 8 4 0 5 0] = true := by decide

/-- Each field value that a check of `WellFormed` refuses, in an instruction that is otherwise well formed. -/
theorem test_ill_formed_2 : refusesAll [
    .stB128 0 8 127 0 0 0, .stB128 0 8 4 2 0 0, .stB128 0 8 4 0 5 0, .stB64 0 9 4 0 0 0, .stB128 0 10 4 0 0 0,
    .atom32 0 8 127 0 0 0, .atom32 0 8 4 0 5 0, .atom32 0 8 4 0 1 0, .atom64 0 8 127 0 0 0, .atom64 0 8 4 0 5 0,
    .atom64 0 8 4 0 1 0, .red 0 8 127 0 0 0, .red 0 8 4 0 5 0, .red 0 8 4 0 1 0, .atom32 0 9 4 9 0 0,
    .atom64 0 8 4 10 0 0, .atom64 0 9 4 0 0 0, .atom64 0 10 4 9 0 0, .red 0 8 4 8 0 0, .red 0 8 4 9 0 0,
    .red 0 8 4 0 0 1, .red 0 8 4 0 0 3, .fence 0 0 0, .fence 0 1 5, .ldrowNear 0 127 4, .ldrowNear 0 4 127,
    .ldrowHome 0 127 4, .ldrowHome 0 4 127, .strow 0 127 4, .strow 0 4 127, .raddBf16 0 127 4, .raddBf16 0 4 127,
    .raddF32 0 127 4, .raddF32 0 4 127, .rmaxBf16 0 127 4, .rmaxBf16 0 4 127, .prf 0 127, .wbl 0 127, .invl 0 127,
    .call 0 127 0] = true := by decide

/-- Each field value that a check of `WellFormed` refuses, in an instruction that is otherwise well formed. -/
theorem test_ill_formed_3 : refusesAll [
    .jmpr 0 127, .callr 0 127 4, .callr 0 4 127, .ret 0 127, .rdts 0 4 5, .rdts 0 127 0, .rdts 0 127 2,
    .wrts 0 4 1, .wrts 0 4 4, .wrts 0 127 0, .wrts 0 127 2, .ucmp 0 1 6 0 0, .ubr 0 3 0 0, .ubr 0 0 1 0,
    .urdsr 0 1 0x00E, .urdsr 0 1 0x000, .urdsr 0 1 0x001, .uwrsr 0 1 0x009, .uld32 0 8 1 3 0, .uld32 0 8 1 0 5,
    .uld64 0 8 1 3 0, .uld64 0 8 1 0 5, .ust32 0 8 1 2 0, .ust32 0 8 1 0 5, .ust64 0 8 1 2 0, .ust64 0 8 1 0 5,
    .uld64 0 9 1 0 0, .ust64 0 9 1 0 0, .pan 0 8 1, .pan 0 16 0, .grn 0 8 1, .grn 0 16 0, .cpy 0 8 1, .cpy 0 16 0,
    .gatNear 0 8 1, .gatNear 0 16 0, .gatHome 0 8 1, .gatHome 0 16 0, .sct 0 8 1, .sct 0 16 0] = true := by decide

/-- Each field value that a check of `WellFormed` refuses, in an instruction that is otherwise well formed. -/
theorem test_ill_formed_4 : refusesAll [
    .fab 0 8 1, .fab 0 16 0, .waitc 0 6 0, .lnchSucc 0 1 0, .lnchLmode 0 1 0, .lnchLmode 0 2 3] = true := by decide

/-! ### The state that the tests start from

A block of eight threads, with a handler and scratch of both kinds, on core 0, whose core cycle is about to execute
one unit; page tables map the first GiB of VA to device memory. -/

/-- The launch packet. -/
def testPacket : Packet :=
  { probePacket with handler := 0x48000, blockt := 8, privw := 64, lscr := 4096, cscr := 4096, bars := 1 }

/-- The block, with barrier object 0 and its Larder scratch in banks 8 to 15. -/
def testBlock : Block :=
  { probeBlock with
    packet := testPacket, lparts := [1, 1, 1, 1, 1, 1, 1, 1]
    objs := [(0, ⟨false, 8, 0, false, none, [], []⟩)] }

/-- A thread whose registers are all full and 0, but for those listed. -/
def testThread (regs : NMap Reg) : Thread := { probeThread with regs := regs, stacklim := 256, privbase := 256 }

/-- The unit of port A at VA 0x4_0000. -/
def testUnit (lanes : List Nat) : Issue := ⟨0, 0, 0x40000, 0x40000, lanes, 0, none, none, 0⟩

/-- The unit with a MOD word: vc, the three TE bits, US, sidx and xmod. -/
def modUnit (lanes : List Nat) (vc : BitVec 7) (te : BitVec 3) (us : BitVec 1) (sidx : BitVec 8) (x : BitVec 4) : Issue :=
  { testUnit lanes with
    wordAddr := 0x40004
    modWord := encode (.mod vc (te.extractLsb' 2 1) (te.extractLsb' 1 1) (te.extractLsb' 0 1) us sidx x) }

/-- A core cycle of core 0 that is to execute the unit. -/
def testCyc (u : Issue) (g : Group) : Cyc :=
  { core := 0, todo := [u], snap := [(0, g)], hops := [], issued := [], uissued := [], exiting := [], classes := []
    block := some 0, eligible := [], pc1 := 0x40000, override := false, laneWait := [], uniWait := []
    picked := [], stopped := [], uniFull := [], late := [], seed := 0, placed := [], words := [] }

/-- The state before the unit `u`, with these threads and this group. -/
def testState (ts : NMap Thread) (g : Group) (u : Issue) : State :=
  { State.reset with
    mem := probeMemory [] 32 0
    tenants := [(0, { Tenant.reset with s2root := memBase + 0x20000 })]
    blocks := [(0, testBlock)]
    groups := [(0, g)]
    threads := ts
    nextId := 9
    cyc := some (testCyc u g) }

/-- Threads 0 and 7 with every register full. -/
def twoThreads : NMap Thread := [(0, testThread []), (7, testThread [])]

/-- The state before the unit of threads 0 and 7. -/
def plainState (u : Issue) : State := testState twoThreads probeGroup u

/-! ### Checks of the hypotheses as Booleans -/

/-- The conditions of `Passes` for one thread. -/
def passB (s : State) (use : Use) (u : Issue) (k : Nat) (th : Thread) : Bool :=
  decide (use.illegal u (s.limits u.block).1 (s.limits u.block).2 = none) &&
  (use.dst.all (fun r => (th.reg r).full) &&
  ((use.sources u).all (fun r => (th.reg r).full && !(th.reg r).poison) &&
  (match use.uniReg u with
   | some r => (snapSreg s k r).full && !(snapSreg s k r).poison
   | none => true)))

theorem passes_of {s : State} {use : Use} {u : Issue} {k : Nat} {th : Thread} (h : passB s use u k th = true) :
    Passes s use u k th := by
  simp only [passB, Bool.and_eq_true, decide_eq_true_eq, List.all_eq_true, Bool.not_eq_true'] at h
  refine ⟨h.1, h.2.1, h.2.2.1, fun r hr => ?_⟩
  have h4 := h.2.2.2
  rw [hr] at h4
  simpa using h4

/-- Every thread of the unit is there and passes. -/
def allPassB (s : State) (use : Use) (u : Issue) : Bool :=
  u.lanes.all (fun k => match s.threads.find k with
    | some th => passB s use u k th
    | none => false)

theorem allPass_of {s : State} {use : Use} {u : Issue} (h : allPassB s use u = true) : AllPass s use u := by
  intro k hk th ht
  have h1 := List.all_eq_true.1 h k hk
  rw [ht] at h1
  exact passes_of h1

/-- The conditions of `Starts`. -/
def startsB (s : State) (u : Issue) : Bool :=
  decide (s.unit = some u) && (decide u.lanes.Nodup && u.lanes.all (fun k => (s.threads.find k).isSome))

theorem starts_of {s : State} {u : Issue} (h : startsB s u = true) : Starts s u := by
  simp only [startsB, Bool.and_eq_true, decide_eq_true_eq, List.all_eq_true] at h
  exact ⟨h.1, h.2.1, fun k hk => Option.isSome_iff_exists.1 (h.2.2 k hk)⟩

/-- A property of each thread of the unit. -/
def eachB (s : State) (u : Issue) (p : Nat → Thread → Bool) : Bool :=
  u.lanes.all (fun k => match s.threads.find k with
    | some th => p k th
    | none => false)

theorem each_of {s : State} {u : Issue} {p : Nat → Thread → Bool} (h : eachB s u p = true) :
    ∀ k ∈ u.lanes, ∀ th, s.threads.find k = some th → p k th = true := by
  intro k hk th ht
  have h1 := List.all_eq_true.1 h k hk
  rw [ht] at h1
  exact h1

/-- Every thread of the unit is outside its handler and has one. -/
def handledB (s : State) (u : Issue) : Bool :=
  eachB s u (fun k th => s.handlerOf (blockOf k) != 0 && !th.tcause.getLsbD 31)

theorem handled_of {s : State} {u : Issue} (h : handledB s u = true) :
    ∀ k ∈ u.lanes, ∀ th, s.threads.find k = some th → Handled s k th := by
  intro k hk th ht
  simpa [Handled] using each_of h k hk th ht

/-- Of each instruction of a list, under the unit that its form needs, the hypotheses of its result statement. -/
def formsB (form : Instr → Option LaneForm) (l : List Instr) : Bool :=
  l.all (fun i => match form i with
    | some F =>
      let u := if F.use.c then modUnit [0, 7] 127 0 0 0 0 else testUnit [0, 7]
      startsB (plainState u) u && allPassB (plainState u) F.use u
    | none => false)

/-- What a witness of a result statement says. -/
def FormsMet (form : Instr → Option LaneForm) (l : List Instr) : Prop :=
  ∀ i ∈ l, ∃ F s u, form i = some F ∧ Starts s u ∧ AllPass s F.use u ∧ u.lanes = [0, 7]

theorem forms_of {form : Instr → Option LaneForm} {l : List Instr} (h : formsB form l = true) : FormsMet form l := by
  intro i hi
  have h1 := List.all_eq_true.1 h i hi
  cases hf : form i with
  | none => simp [hf] at h1
  | some F =>
    simp only [hf, Bool.and_eq_true] at h1
    refine ⟨F, _, _, rfl, starts_of h1.1, allPass_of h1.2, ?_⟩
    split <;> rfl

/-! ### Witnesses of the lane statements, each instruction with registers 0 and 127 -/

theorem witness_SimpleIntegerResults : FormsMet simpleForm [
    .add 0 127 0 127, .sub 0 0 127 0, .min 0 127 0 127, .max 0 0 127 0, .minu 0 127 0 127, .maxu 0 0 127 0,
    .absd 0 127 0 127, .addsat 0 0 127 0, .and 3 127 0 127, .or 3 0 127 0, .xor 0 127 127 127, .andn 0 0 0 0,
    .shl 0 127 0 127, .shr 0 0 127 0, .sar 0 127 0 127, .ror 0 0 127 0, .seq 0 127 0 127, .sne 0 0 127 0,
    .slt 0 127 0 127, .sltu 0 0 127 0, .shli 0 127 0 31, .shri 0 0 127 0, .sari 0 127 0 31, .rori 0 0 127 0] :=
  forms_of (by decide)

theorem witness_ProductAndCountResults : FormsMet arithForm [
    .mul 0 127 0 127, .mulhi 0 0 127 0, .mulhiu 0 127 0 127, .mad 0 0 127 0, .div 0 127 0 127, .divu 0 0 127 0,
    .rem 0 127 0 127, .remu 0 0 127 0, .sel 0 127 0 127, .clz 0 0 127, .popc 0 127 0, .brev 0 0 127] :=
  forms_of (by decide)

theorem witness_FieldResults : FormsMet fieldForm [
    .bfx 0 127 0 127, .bfxu 0 0 127 0, .bfi 0 127 0 127, .prmb 0 0 127 0] := forms_of (by decide)

theorem witness_FloatResults : FormsMet floatForm [
    .fadd 0 127 0 127, .fsub 0 0 127 0, .fmul 0 127 0 127, .fdiv 0 0 127 0, .ffma 0 127 0 127, .scacc 0 0 127 0,
    .scacc2 0 127 0 127, .frcp 0 0 127, .frsq 0 127 0, .fsqrt 0 0 127, .fex2 0 127 0, .flg2 0 0 127,
    .fscl 0 127 0 127, .ffrc 0 0 127] := forms_of (by decide)

theorem witness_CompareAndHalfResults : FormsMet compareForm [
    .fmin 0 127 0 127, .fmax 0 0 127 0, .fseq 0 127 0 127, .fslt 0 0 127 0, .fsle 0 127 0 127, .fsun 0 0 127 0,
    .hadd2 0 127 0 127, .hmul2 0 0 127 0, .hfma2 0 127 0 127, .hmax2 0 0 127 0, .cvtF32S32 0 127 0, .cvtS32F32 0 0 127,
    .cvtF32Bf16 0 127 0, .cvtBf16F32 0 0 127 0] := forms_of (by decide)

theorem witness_PackedResults : FormsMet packedForm [
    .cvtE4m3F32 0 127 0, .cvtE5m2F32 0 0 127, .cvtF32E4m3 0 127 0, .cvtF32E5m2 0 0 127, .qnt8 0 127 0 127,
    .qnte4 0 0 127 0, .dp4 0 127 0 127, .dp4u 0 0 127 0, .dp2h 0 127 0 127, .trnQ 0 0 127 0, .trnPk 0 127 0,
    .trnChk4 0 0 127, .trnZ4 0 127 0] := forms_of (by decide)

/-- A unit with US reads uniform register 255, and one with xmod 3 the rounding mode. -/
theorem witness_role_b_and_xmod :
    (let u := modUnit [0, 7] 0 0 1 255 0
     Starts (plainState u) u ∧ AllPass (plainState u) (Use.ab 127 127 0) u) ∧
    (let u := modUnit [0, 7] 127 0 1 255 3
     Starts (plainState u) u ∧ AllPass (plainState u) (((Use.ab 127 127 0).withC).withX (fun x => decide (x < 4))) u) :=
  ⟨⟨starts_of (by decide), allPass_of (by decide)⟩, starts_of (by decide), allPass_of (by decide)⟩

/-- A unit that starts, passes, and whose threads are outside their handlers and have one. -/
def Met (s : State) (use : Use) (u : Issue) : Prop :=
  Starts s u ∧ AllPass s use u ∧ ∀ k ∈ u.lanes, ∀ th, s.threads.find k = some th → Handled s k th

/-- The same as a Boolean. -/
def metB (s : State) (use : Use) (u : Issue) : Bool := startsB s u && (allPassB s use u && handledB s u)

theorem met_of {s : State} {use : Use} {u : Issue} (h : metB s use u = true) : Met s use u := by
  simp only [metB, Bool.and_eq_true] at h
  exact ⟨starts_of h.1, allPass_of h.2.1, handled_of h.2.2⟩

/-- One T5 byte of each thread at a bound: 242 is the highest legal one and 243 the lowest that traps. -/
theorem witness_TernaryUnpack :
    (let s := testState [(0, testThread [(1, ⟨0x00F20000, true, false⟩)]),
        (7, testThread [(1, ⟨0x00F30000, true, false⟩)])] probeGroup (testUnit [0, 7])
     Met s (Use.one 127 1) (testUnit [0, 7]) ∧
     s.threads.map (fun p => (List.range 3).any (fun j => decide (242 < (byteOf (p.2.val 1) j).toNat))) =
       [false, true]) ∧
    (let s := testState [(0, testThread [(1, ⟨0x40000000, true, false⟩), (2, ⟨15, true, false⟩)]),
        (7, testThread [(1, ⟨2, true, false⟩)])] probeGroup (testUnit [0, 7])
     Met s (Use.ab 127 1 2) (testUnit [0, 7]) ∧
     s.threads.map (fun p =>
       digitOf (p.2.val 1) ((operandB s (testUnit [0, 7]) p.1 p.2 2).extractLsb' 0 4).toNat) = [1, 2]) :=
  ⟨⟨met_of (by decide), by decide⟩, met_of (by decide), by decide⟩

/-- The cases of FMIN and FMAX: NaNs, unequal numbers, zeros of both signs, and equal numbers. -/
theorem witness_MinMaxReturnAnOperand :
    (f32 0x7FC00001).isNan = true ∧ (f32 0x3F800000).isNan = false ∧ fpLt (f32 0xFF800000) (f32 0x7F800000) = true ∧
    fpLt (f32 0x80000001) (f32 0x00000001) = true ∧
    (fpLt (f32 0) (f32 0x80000000) = false ∧ fpLt (f32 0x80000000) (f32 0) = false) ∧
    (fpLt (f32 0x40000000) (f32 0x40000000) = false) := by decide

/-- The largest finite number, a subnormal and an infinity are not NaNs. -/
theorem witness_ExactResultsStay :
    (f32 0x7F7FFFFF).isNan = false ∧ (f32 0x00000001).isNan = false ∧ (f32 0xFF800000).isNan = false ∧
    (bf16.decode 0x7F7F).isNan = false ∧ (bf16.decode 0x0001).isNan = false := by decide

/-- Threads 0 to 4: one with an empty source under TEa, one with an empty destination, one with a poisoned source,
one that passes; and a unit that is illegal for every thread. -/
theorem witness_LaneChecks :
    (let u := modUnit [0, 1, 2, 3] 0 4 0 0 0
     let s := testState [(0, testThread [(1, ⟨0, false, false⟩)]), (1, testThread [(127, ⟨0, false, false⟩)]),
       (2, testThread [(2, ⟨0, true, true⟩)]), (3, testThread [])] probeGroup u
     let use := Use.ab 127 1 2
     (laneForm (.add 0 127 1 2)).map (fun F => F.vd) = some 127 ∧ Starts s u ∧
     (∀ k ∈ u.lanes, ∀ th, s.threads.find k = some th → Handled s k th) ∧
     use.illegal u (s.limits u.block).1 (s.limits u.block).2 = none ∧
     (modTea u.modOr0 = true ∧ s.threads.map (fun p => use.a.any (fun r => !(p.2.reg r).full)) =
       [true, false, false, false]) ∧
     s.threads.map (fun p => (use.dst ++ use.sources u).any (fun r => !(p.2.reg r).full)) =
       [true, true, false, false] ∧
     s.threads.map (fun p => (use.sources u).any (fun r => (p.2.reg r).poison)) = [false, false, true, false] ∧
     Passes s use u 3 (testThread [])) ∧
    (let u := modUnit [0, 7] 1 0 0 0 0
     Starts (plainState u) u ∧ handledB (plainState u) u = true ∧
     (Use.ab 127 1 2).illegal u ((plainState u).limits u.block).1 ((plainState u).limits u.block).2 = u.modWord) :=
  ⟨⟨by decide, starts_of (by decide), handled_of (by decide), by decide, by decide, by decide, by decide,
      passes_of (by decide)⟩, starts_of (by decide), by decide, by decide⟩

/-- ADDI without and with LIMM, MOVI with a LIMM, MOVS of register 255, and RDLS of the last special register. -/
theorem witness_ImmediatesAndMoves :
    Met (plainState (testUnit [0, 7])) { Use.one 127 0 with limm := true } (testUnit [0, 7]) ∧
    (let u := { testUnit [0, 7] with limm := some 0x7FFFFF }
     Met (plainState u) { Use.one 127 0 with limm := true } u ∧
     Met (plainState u) { Use.plain with dst := [127], limm := true } u) ∧
    Met (plainState (testUnit [0, 7])) { Use.plain with dst := [127], roleB := true, sb := some 255 }
      (testUnit [0, 7]) ∧
    Met (plainState (testUnit [0, 7])) { Use.plain with dst := [127] } (testUnit [0, 7]) ∧
    (testUnit [0, 7]).lanes.all (fun k => ((plainState (testUnit [0, 7])).blocks.find (blockOf k)).isSome) = true :=
  ⟨met_of (by decide), ⟨met_of (by decide), met_of (by decide)⟩, met_of (by decide), met_of (by decide), by decide⟩

/-- XLN and VOTE over threads 0 and 7 of one group, and XRED with its last operation. -/
theorem witness_CrossLane :
    (∀ i ∈ [Instr.xlnIdx 0 127 0 1, .xlnXor 0 127 0 1, .xlnUp 0 127 0 1, .xlnDn 0 127 0 1],
      (xlnForm i).isSome = true) ∧ Met (plainState (testUnit [0, 7])) (Use.ab 127 0 1) (testUnit [0, 7]) ∧
    (∀ i ∈ [Instr.voteAny 0 127 0, .voteAll 0 127 0, .voteBal 0 127 0, .xred 0 127 0],
      (cohortForm i).isSome = true) ∧ Met (plainState (testUnit [0, 7])) (Use.one 127 0) (testUnit [0, 7]) ∧
    (let u := modUnit [0, 7] 0 0 0 0 4
     Met (plainState u) ((Use.one 127 0).withX (fun x => decide (x ≤ 4))) u) :=
  ⟨by decide, met_of (by decide), by decide, met_of (by decide), met_of (by decide)⟩

/-- Thread 0 meets BR.EQZ's condition and thread 7 BR.NEZ's; the pair at v126 holds a target whose two low bits are
0 in thread 0 and not in thread 7. -/
theorem witness_BranchesAndCalls :
    (let s := testState [(0, testThread [(126, ⟨0x40100, true, false⟩)]),
        (7, testThread [(1, ⟨0x80000000, true, false⟩), (126, ⟨0x40101, true, false⟩)])] probeGroup (testUnit [0, 7])
     Met s { Use.plain with a := [1] } (testUnit [0, 7]) ∧ Met s Use.plain (testUnit [0, 7]) ∧
     Met s { Use.plain with dst := addrRegs 126 } (testUnit [0, 7]) ∧
     Met s { Use.plain with a := addrRegs 126 } (testUnit [0, 7]) ∧
     Met s { Use.plain with a := addrRegs 126, dst := addrRegs 126 } (testUnit [0, 7]) ∧
     s.threads.map (fun p => decide ((p.2.val64 126).toNat % 4 = 0)) = [true, false] ∧
     s.threads.map (fun p => p.2.val 1) = [0, 0x80000000]) ∧
    (∀ i ∈ [Instr.brEqz 0 1 0, .brNez 0 1 0, .brLtz 0 1 0, .brGez 0 1 0, .brGtz 0 1 0, .brLez 0 1 0],
      (branchForm i).isSome = true) ∧
    (∀ i ∈ [Instr.jmpr 0 126, .ret 0 126], (jumpForm i).isSome = true) :=
  ⟨⟨met_of (by decide), met_of (by decide), met_of (by decide), met_of (by decide), met_of (by decide), by decide,
      by decide⟩, by decide, by decide⟩

/-- A state in which the debugger is enabled and its selector names thread 0 of core 0. -/
def debugState (s : State) : State := { s with sec := { s.sec with fuseDbg := true, dbgen := true } }

/-- Threads outside their handlers, threads inside, and the thread that the debugger names. -/
theorem witness_TrapsAndReturns :
    Met (plainState (testUnit [0, 7])) Use.plain (testUnit [0, 7]) ∧
    (let u := testUnit [0]
     let s := testState [(0, { testThread [] with tcause := 0x8000000B, tepc := 0x40010 })] probeGroup u
     Starts s u ∧ AllPass s Use.plain u ∧ eachB s u (fun _ th => th.tcause.getLsbD 31) = true) ∧
    (let s := debugState (plainState (testUnit [0, 7]))
     Met s Use.plain (testUnit [0, 7]) ∧ s.dbgOn = true ∧ s.namedThread (s.coreOfThread 0) = some 0 ∧
     s.namedThread (s.coreOfThread 7) ≠ some 7) :=
  ⟨met_of (by decide), ⟨starts_of (by decide), allPass_of (by decide), by decide⟩, met_of (by decide), by decide,
    by decide, by decide⟩

/-- A thread in its handler and a thread of a block without one, whose queue has no room (it is disabled) or has. -/
theorem witness_UnhandledTrapParks :
    (let s := testState [(0, { testThread [] with tcause := 0x80000001 })] probeGroup (testUnit [0])
     (s.threads.find 0).isSome = true ∧ eachB s (testUnit [0]) (fun _ th => th.tcause.getLsbD 31) = true ∧
     (s.tenant (s.tenantOfBlock (blockOf 0))).room = false) ∧
    (let s := { plainState (testUnit [0]) with blocks := [(0, probeBlock)] }
     (s.threads.find 0).isSome = true ∧ s.handlerOf (blockOf 0) = 0) ∧
    (let s := { plainState (testUnit [0]) with
       blocks := [(0, probeBlock)], tenants := [(0, { Tenant.reset with fqen := true, fqbase := memBase })] }
     s.handlerOf (blockOf 0) = 0 ∧ (s.tenant 0).waiting = [] ∧ (s.tenant 0).room = true ∧
     (s.tenant 0).pending < 2 ^ (s.tenant 0).log2n ∧
     (s.tenant 0).fqbase + 64 * 2 ^ (s.tenant 0).log2n ≤ memEnd) := by decide

/-- RDTS of a pair and of one register, WRTS of a pair and of STACKLIM. -/
theorem witness_TrapStateRegisters :
    Met (plainState (testUnit [0, 7])) { Use.plain with dst := stateRegs 126 0 } (testUnit [0, 7]) ∧
    Met (plainState (testUnit [0, 7])) { Use.plain with dst := stateRegs 127 4 } (testUnit [0, 7]) ∧
    Met (plainState (testUnit [0, 7])) { Use.plain with imp := stateRegs 126 2 } (testUnit [0, 7]) ∧
    Met (plainState (testUnit [0, 7])) { Use.plain with imp := stateRegs 127 3 } (testUnit [0, 7]) ∧
    (∀ x ∈ [(0 : BitVec 3), 1, 2, 3, 4], WellFormed (.rdts 0 126 x)) ∧
    (∀ x ∈ [(0 : BitVec 3), 2, 3], WellFormed (.wrts 0 126 x)) :=
  ⟨met_of (by decide), met_of (by decide), met_of (by decide), met_of (by decide), by decide, by decide⟩

/-- A unit with no prefix yet, one with a MOD, and one with a LIMM. -/
theorem witness_PrefixWords :
    (let u := testUnit [0, 7]
     Met (plainState u) Use.plain u ∧ u.port ≠ 2 ∧ u.modWord = none ∧ u.limm = none) ∧
    (let u := modUnit [0, 7] 127 0 0 0 0
     Met (plainState u) ((Use.ab 1 2 3).withC) u ∧ u.port ≠ 2 ∧ u.modWord.isSome = true) ∧
    (let u := { testUnit [0, 7] with limm := some 1 }
     Met (plainState u) { Use.plain with limm := true } u ∧ u.port ≠ 2 ∧ u.limm.isSome = true) ∧
    (encode (.mod 127 1 1 1 1 255 15)).isSome = true :=
  ⟨⟨met_of (by decide), by decide⟩, ⟨met_of (by decide), by decide⟩, ⟨met_of (by decide), by decide⟩, by decide⟩

/-! ### Witnesses of the statements about decoding, fetching and stepping -/

theorem witness_DecodeOfEncode :
    WellFormed (.add 3 127 127 127) ∧ encode (.add 3 127 127 127) = some 0x607FFFFC := by decide +kernel

theorem witness_EncodeOfDecode : decodeWord 0x607FFFFC = some (.add 3 127 127 127) := by decide +kernel

/-- The word is fetched and decodes, in a lane unit and in a uniform one. -/
def stepsInto (w : Nat) (i : Instr) : Prop :=
  ∃ (c : Cyc) (u : Issue) (rest : List Issue) (b : Block), (State.reset.withFetchWord 32 w).cyc = some c ∧
    c.todo = u :: rest ∧ (State.reset.withFetchWord 32 w).blocks.find u.block = some b ∧
    (State.reset.withFetchWord 32 w).fetch b.cluster b.tenant u.wordAddr.toNat c.seed = .word (BitVec.ofNat 32 w) ∧
    decodeWord (BitVec.ofNat 32 w) = some i

theorem witness_StepRunsTheDecodedWord :
    stepsInto 0x607FFFFC (.add 3 127 127 127) ∧ stepsInto 0xE0FFFFFF (.uadd 3 255 255 255) :=
  ⟨⟨_, _, _, _, rfl, rfl, rfl, by decide +kernel, by decide +kernel⟩, ⟨_, _, _, _, rfl, rfl, rfl, by decide +kernel, by decide +kernel⟩⟩

/-- VAs that are misaligned, outside the global range, unmapped, and mapped. -/
theorem witness_FetchReadsHome :
    let s := plainState (testUnit [0])
    0x40001 % 4 ≠ 0 ∧ 2 ^ 52 % 4 = 0 ∧
    ((0x40000000 % 4 = 0 ∧ 0x40000000 < 2 ^ 52) ∧
      s.translate 0 0 0x40000000 4 0 = .fault ⟨1, 0x40000000, 0, false⟩) ∧
    (match s.translate 0 0 0x3FFFFFFC 4 0 with
     | .ok pa _ _ => decide (memBase ≤ pa ∧ pa + 4 ≤ memEnd ∧ (s.cluster 0).icopy.find pa = none)
     | .fault _ => false) = true := by decide +kernel

/-- A word that no instruction has, a misaligned fetch, and a fetch outside the global range. -/
theorem witness_WordsThatDoNotExecute :
    (let u := testUnit [0, 7]
     Met (plainState u) Use.plain u ∧ (plainState u).cyc = some (testCyc u probeGroup) ∧
     (plainState u).fetch 0 0 u.wordAddr.toNat 0 = .word 0 ∧ decodeWord 0 = none) ∧
    (let u := { testUnit [0, 7] with wordAddr := 0x40002 }
     Met (plainState u) Use.plain u ∧ (plainState u).fetch 0 0 u.wordAddr.toNat 0 = .trap 3) ∧
    (let u := { testUnit [0, 7] with wordAddr := 0x10000000000000 }
     Met (plainState u) Use.plain u ∧ (plainState u).fetch 0 0 u.wordAddr.toNat 0 = .trap 4) :=
  ⟨⟨met_of (by decide +kernel), by decide +kernel⟩, ⟨met_of (by decide +kernel), by decide +kernel⟩, ⟨met_of (by decide +kernel), by decide +kernel⟩⟩

/-- An event that is taken, one that is not, and a core cycle whose units are executed. -/
theorem witness_StepTakesItsTurn :
    (let s := { State.reset with turns := [.event .idcode] }
     s.cyc = none ∧ s.turns = [.event .idcode] ∧ s.takes .idcode = true) ∧
    (let s := { State.reset with turns := [.event .launchPop], sec := { Sec.reset with locked := true } }
     s.cyc = none ∧ s.takes .launchPop = false) ∧
    (let s := { State.reset with cyc := some { testCyc (testUnit []) probeGroup with todo := [] } }
     s.cyc.map (fun c => c.todo) = some []) ∧
    (let s := { State.reset with turns := [.ecc memBase true, .ecc (memEnd - 1) false] }
     s.cyc = none ∧ s.turns = [.ecc memBase true, .ecc (memEnd - 1) false] ∧ memBase < memEnd) ∧
    (let s := { State.reset with turns := [.fetchCopy 95 (memEnd - 4), .runnerStop 5 false] }
     s.cyc = none ∧ s.sec.locked = false ∧ s.sec.boot = 0 ∧ memEnd - 4 + 4 ≤ memEnd ∧ (memEnd - 4) % 4 = 0 ∧
     s.homePoisoned (memEnd - 4) 4 = false ∧ 5 < s.io.runners.length) := by decide +kernel

/-- A unit whose gang holds its word, one whose gang holds another's, a uniform one, and a refused word that is held. -/
theorem witness_held_words :
    let u := testUnit [0, 7]
    let c := { testCyc u probeGroup with words := [(0x40000, 0x607FFFFC)] }
    let s := { plainState u with cyc := some c }
    (s.cyc = some c ∧ c.todo = u :: [] ∧ (s.blocks.find u.block).isSome = true ∧ c.Holds u 0x607FFFFC ∧
      decodeWord 0x607FFFFC = some (.add 3 127 127 127)) ∧
    ({ c with words := [(0x40004, 0x607FFFFC)] } : Cyc).FetchesNow u ∧ c.FetchesNow { u with port := 2 } ∧
    (({ c with words := [(0x40000, 0)] } : Cyc).Holds u 0 ∧ decodeWord 0 = none ∧ handledB s u = true) := by
  refine ⟨⟨rfl, rfl, by decide +kernel, ⟨by decide, by decide⟩, by decide +kernel⟩, .inr (fun p h => by cases List.mem_singleton.1 h; decide), .inl rfl,
    ⟨by decide, by decide⟩, by decide +kernel, by decide +kernel⟩

/-- A runner core that stops with a record half handled, one that stops idle; the firmware of a core that works and
of one that stopped; and words of the last entry of the table, with a message pending and without. -/
theorem witness_turns_of_firmware_and_table :
    (let s := { State.reset with
       turns := [.runnerStop 5 true], io := { Io.reset with jobs := [.interrupt 0, .record 7 1 0 0 0 0 (some [4])] } }
     s.cyc = none ∧ s.turns = [.runnerStop 5 true] ∧
     s.io.jobs = [.interrupt 0] ++ .record 7 1 0 0 0 0 (some [4]) :: []) ∧
    (let h : RunnerHart := ⟨4, [(15, 1)], []⟩
     let s := { State.reset with turns := [.mainHart ⟨4, [(31, 1)], [], [(0x180, 1)]⟩, .runnerHart 5 h] }
     s.cyc = none ∧ s.sec.locked = false ∧ s.sec.boot = 0 ∧ s.io.runners.getD 5 false = true ∧
     ({ s with io := { Io.reset with runners := List.replicate 6 false } } : State).io.runners.getD 5 false = false) ∧
    (let s := { State.reset with turns := [.bar4 255 3 (some 0)], sec := { Sec.reset with bridge := true } }
     s.cyc = none ∧ s.sec.bridge = true ∧ s.sec.locked = false ∧ s.io.msixPend.find 255 = none ∧
     (s.msixWord 255 3).getLsbD 0 = true ∧
     ({ s with io := { Io.reset with msixPend := [(255, 5)] } } : State).io.msixPend.find 255 = some 5 ∧
     (0 : Word32).getLsbD 0 = false) := by decide +kernel

/-- The example of R256: the line of PA 0x0000_0100_1234_5680 is at stack 0 (die 0, controller 0), slice 18, and is
line 0x0004_8D15 of the stack. -/
theorem test_home_of_a_line :
    lineOf 0x010012345680 = 0x2468AD ∧ homeStack 0x2468AD = 0 ∧ homeDie 0x2468AD = 0 ∧ homeController 0x2468AD = 0 ∧
    homeSlice 0x2468AD = 18 ∧ homeIndex 0x2468AD = 18 ∧ lineInStack 0x2468AD = 0x48D15 := by decide +kernel

/-- A Larder that holds two bytes. -/
def twoBytes : Cluster := { Cluster.reset with cache := [(memBase, (1, true)), (memBase + 1, (2, false))] }

theorem witness_CanonicalFormsStay :
    (let s := { plainState (testUnit [0, 7]) with clusters := [(0, twoBytes)] }
     s.Canonical ∧ completes (step s) = true ∧ s.mem ≠ []) := by
  refine ⟨⟨show Memory.wf _ = true by decide +kernel, fun c => ?_, by decide +kernel⟩, by decide +kernel,
    by decide +kernel⟩
  show (NMap.getD [(0, twoBytes)] c Cluster.reset).cache.sorted = true
  simp only [NMap.getD, NMap.find]
  split <;> decide

/-- The alarm lock in force; the turn is a Hall cycle. -/
theorem witness_LockHoldsUntilPowerOn :
    (let s := { State.reset with sec := { Sec.reset with locked := true, src := 1 }, turns := [.hall] }
     s.lockedDown ∧ completes (step s) = true ∧ s.nextTurn.1 = .hall) := by
  refine ⟨⟨rfl, rfl⟩, by decide +kernel, rfl⟩

/-! ### Witnesses of the memory statements -/

/-- The state before a unit of thread 0 whose address pair at v4 holds `ea` and its pair at v6 holds `eb`. -/
def accessState (ea eb : Word64) : State :=
  testState [(0, testThread [(4, ⟨ea.extractLsb' 0 32, true, false⟩), (5, ⟨ea.extractLsb' 32 32, true, false⟩),
    (6, ⟨eb.extractLsb' 0 32, true, false⟩), (7, ⟨eb.extractLsb' 32 32, true, false⟩)])] probeGroup (testUnit [0])

/-- Its only thread. -/
def accessThread (ea eb : Word64) : Thread :=
  testThread [(4, ⟨ea.extractLsb' 0 32, true, false⟩), (5, ⟨ea.extractLsb' 32 32, true, false⟩),
    (6, ⟨eb.extractLsb' 0 32, true, false⟩), (7, ⟨eb.extractLsb' 32 32, true, false⟩)]

/-- A unit of the one thread 0 that starts and passes, with the debugger off. -/
def MetOne (s : State) (use : Use) (th : Thread) : Prop :=
  Starts s (testUnit [0]) ∧ (testUnit [0]).lanes = [0] ∧ s.threads.find 0 = some th ∧
    Passes s use (testUnit [0]) 0 th ∧ s.dbgOn = false ∧ Handled s 0 th

/-- The same as a Boolean. -/
def oneB (s : State) (use : Use) (th : Thread) : Bool :=
  startsB s (testUnit [0]) && (decide (s.threads.find 0 = some th) && (passB s use (testUnit [0]) 0 th &&
    (!s.dbgOn && (s.handlerOf (blockOf 0) != 0 && !th.tcause.getLsbD 31))))

theorem one_of {s : State} {use : Use} {th : Thread} (h : oneB s use th = true) : MetOne s use th := by
  simp only [oneB, Bool.and_eq_true, decide_eq_true_eq, Bool.not_eq_true'] at h
  exact ⟨starts_of h.1, rfl, h.2.1, passes_of h.2.2.1, h.2.2.2.1, by simpa [Handled] using h.2.2.2.2⟩

/-- Each window at its bounds: misaligned, the absent windows, private and scratch accesses at and beyond their
limits, FIFO addresses of a bank in FIFO mode and of others, an unmapped page and a mapped one. -/
theorem witness_WhereAccessesGo :
    let s := { plainState (testUnit [0]) with clusters := [(0, { Cluster.reset with lmode := [(47, 2)] })] }
    let go := fun (ea : Word64) => (s.reach 0 (some 256) ea 4 1 .larder true true).2
    let h := fun (ea : Word64) => ea.toNat / 2 ^ 48
    s.blocks.find 0 = some testBlock ∧
    go 0x40002 = .trap 3 ∧ (h 0x0010000000000000 = 0x10 ∧ go 0x0010000000000000 = .trap 4) ∧
    (h 0xFFEF000000000000 = 0xFFEF ∧ go 0xFFEF000000000000 = .trap 4) ∧
    (h 0xFFF4000000000000 = 0xFFF4 ∧ go 0xFFF4000000000000 = .trap 4) ∧
    (go 0xFFF00000000000FC = .priv 252 ∧ go 0xFFF0000000000100 = .trap 2) ∧
    (go 0xFFF1000000000FFC = .mem .larderScratch 4092 false ∧ go 0xFFF1000000001000 = .trap 4 ∧
      (s.cluster 0).bankMode (testBlock.bankOf (64 * 63)) = 1) ∧
    (go 0xFFF2000000000FFC = .mem .coreScratch 4092 false ∧ go 0xFFF2000000001000 = .trap 4) ∧
    (go 0xFFF3000000002F00 = .fifo 47 ∧ go 0xFFF3000000002F04 = .trap 4 ∧ go 0xFFF3000000003000 = .trap 4 ∧
      go 0xFFF3000000000000 = .trap 4 ∧ (s.cluster 0).bankMode 47 = 2 ∧ (s.cluster 0).bankMode 0 ≠ 2) ∧
    (s.translate 0 0 0x40000000 1 s.choice = .fault ⟨1, 0x40000000, 0, false⟩) ∧
    (match s.translate 0 0 0x3FFFFFFC 1 s.choice with
     | .ok pa _ _ => decide (pa < hostBase)
     | .fault _ => false) = true := by decide +kernel

/-- Of each load of a list: its hypotheses with the address `ea`, and where the address goes. -/
def LoadsMet (l : List Instr) (s : State) (th : Thread) (p : State × Reach → LmForm → Bool) : Prop :=
  ∀ i ∈ l, ∃ F, loadForm i = some F ∧ MetOne s F.loadUse th ∧
    p (s.reach 0 (some th.stacklim) (F.ea (testUnit [0]) th) F.n 1 F.place (F.n == 4) true) F = true

/-- The same of stores. -/
def StoresMet (l : List Instr) (s : State) (th : Thread) (p : State × Reach → LmForm → Bool) : Prop :=
  ∀ i ∈ l, ∃ F, storeForm i = some F ∧ MetOne s F.storeUse th ∧
    p (s.reach 0 (some th.stacklim) (F.ea (testUnit [0]) th) F.n 2 F.place (F.n == 4) true) F = true

theorem loads_of {l : List Instr} {s : State} {th : Thread} {p : State × Reach → LmForm → Bool}
    (h : l.all (fun i => match loadForm i with
      | some F => oneB s F.loadUse th &&
          p (s.reach 0 (some th.stacklim) (F.ea (testUnit [0]) th) F.n 1 F.place (F.n == 4) true) F
      | none => false) = true) : LoadsMet l s th p := by
  intro i hi
  have h1 := List.all_eq_true.1 h i hi
  cases hf : loadForm i with
  | none => simp [hf] at h1
  | some F =>
    simp only [hf, Bool.and_eq_true] at h1
    exact ⟨F, rfl, one_of h1.1, h1.2⟩

theorem stores_of {l : List Instr} {s : State} {th : Thread} {p : State × Reach → LmForm → Bool}
    (h : l.all (fun i => match storeForm i with
      | some F => oneB s F.storeUse th &&
          p (s.reach 0 (some th.stacklim) (F.ea (testUnit [0]) th) F.n 2 F.place (F.n == 4) true) F
      | none => false) = true) : StoresMet l s th p := by
  intro i hi
  have h1 := List.all_eq_true.1 h i hi
  cases hf : storeForm i with
  | none => simp [hf] at h1
  | some F =>
    simp only [hf, Bool.and_eq_true] at h1
    exact ⟨F, rfl, one_of h1.1, h1.2⟩

/-- The seven loads, plain, and ordered at SYSTEM scope. -/
def sevenLoads : List Instr :=
  [.ldU8 0 127 4 0 0 0, .ldS8 0 127 4 0 0 0, .ldU16 0 127 4 0 0 0, .ldS16 0 127 4 0 0 0, .ldB32 0 127 4 0 0 0,
   .ldB64 0 126 4 0 0 0, .ldB128 0 124 4 2 6 0]

/-- The five stores. -/
def fiveStores : List Instr :=
  [.stB8 0 127 4 0 0 0, .stB16 0 127 4 0 0 0, .stB32 0 127 4 0 0 0, .stB64 0 126 4 0 0 0, .stB128 0 124 4 3 6 0]

/-- The access goes to a memory site, and no range of the scoreboard holds it (or one does). -/
def toMem (held write : Bool) (r : State × Reach) (F : LmForm) : Bool :=
  match r.2 with
  | .mem site a _ => (r.1.rangeWait 0 site a F.n write).isSome == held
  | _ => false

/-- A range of the scoreboard over the first 64 bytes of the block's core scratch. -/
def heldState (s : State) : State :=
  { s with clusters := [(0, { Cluster.reset with rsb := [⟨0, true, 0, 63, true, none, some 1⟩] })] }

theorem witness_LoadsComeUnderWay :
    LoadsMet sevenLoads (accessState 0x3FFFFFF0 0) (accessThread 0x3FFFFFF0 0) (toMem false false) ∧
    LoadsMet sevenLoads (accessState 0xFFF1000000000FF0 0) (accessThread 0xFFF1000000000FF0 0) (toMem false false) ∧
    LoadsMet sevenLoads (accessState 0xFFF00000000000F0 0) (accessThread 0xFFF00000000000F0 0)
      (fun r _ => decide (r.2 = .priv 240)) ∧
    LoadsMet sevenLoads (heldState (accessState 0xFFF2000000000000 0)) (accessThread 0xFFF2000000000000 0)
      (toMem true false) ∧
    LoadsMet sevenLoads (accessState 0xFFF0000000000100 0) (accessThread 0xFFF0000000000100 0)
      (fun r _ => decide (r.2 = .trap 2)) ∧
    LoadsMet sevenLoads (accessState 0x40000000 0) (accessThread 0x40000000 0)
      (fun r _ => decide (r.2 = .fault ⟨1, 0x40000000, 0, false⟩)) :=
  by refine ⟨?_, ?_, ?_, ?_, ?_, ?_⟩ <;> exact loads_of (by decide +kernel)

theorem witness_StoresComeUnderWay :
    StoresMet fiveStores (accessState 0x3FFFFFF0 0) (accessThread 0x3FFFFFF0 0) (toMem false true) ∧
    StoresMet fiveStores (accessState 0xFFF00000000000F0 0) (accessThread 0xFFF00000000000F0 0)
      (fun r _ => decide (r.2 = .priv 240)) ∧
    StoresMet fiveStores (accessState 0xFFF0000000000100 0) (accessThread 0xFFF0000000000100 0)
      (fun r _ => decide (r.2 = .trap 2)) ∧
    StoresMet fiveStores (accessState 0x40000000 0) (accessThread 0x40000000 0)
      (fun r _ => decide (r.2 = .fault ⟨1, 0x40000000, 0, false⟩)) :=
  ⟨stores_of (by decide +kernel), stores_of (by decide +kernel), stores_of (by decide +kernel), stores_of (by decide +kernel)⟩

/-- CAS of 32 and of 64 bits at home, RED at SYSTEM scope, and a FIFO address, which traps. -/
theorem witness_AtomicsComeUnderWay :
    (let s := accessState 0x3FFFFFF8 0
     (∀ i ∈ [Instr.atom32 0 126 4 9 4 3, .atom64 0 124 4 9 0 0, .red 0 127 4 7 6 2], (atomForm i).isSome = true) ∧
     MetOne s (atomUse false true 126 4 9) (accessThread 0x3FFFFFF8 0) ∧
     MetOne s (atomUse true true 124 4 9) (accessThread 0x3FFFFFF8 0) ∧
     MetOne s (atomUse false false 127 4 7) (accessThread 0x3FFFFFF8 0) ∧
     ∀ p ∈ [(4, Site.home), (8, .larder), (4, .fabricUnit)],
       (match (s.reach 0 (some 256) 0x3FFFFFF8 p.1 3 p.2 false false).2 with
        | .mem _ _ _ => true
        | _ => false) = true) ∧
    ((accessState 0xFFF3000000000000 0).reach 0 (some 256) 0xFFF3000000000000 4 3 .larder false false).2 = .trap 4 ∧
    ((accessState 0xFFF00000000000F8 0).reach 0 (some 256) 0xFFF00000000000F8 8 3 .larder false false).2 = .priv 248 ∧
    (let s := heldState (accessState 0xFFF2000000000000 0)
     MetOne s (atomUse false true 126 4 0) (accessThread 0xFFF2000000000000 0) ∧
     (match s.reach 0 (some 256) 0xFFF2000000000000 4 3 .larder false false with
      | (s1, .mem site a _) => (s1.rangeWait 0 site a 4 true).isSome
      | _ => false) = true) ∧
    ((accessState 0x40000000 0).reach 0 (some 256) 0x40000000 4 3 .larder false false).2 =
      .fault ⟨1, 0x40000000, 0, false⟩ :=
  ⟨⟨by decide +kernel, one_of (by decide +kernel), one_of (by decide +kernel), one_of (by decide +kernel), by decide +kernel⟩,
    by decide +kernel, by decide +kernel, ⟨one_of (by decide +kernel), by decide +kernel⟩, by decide +kernel⟩

/-- The state with Larder bank 47 in FIFO mode, what it holds, and how many groups are attached to it. -/
def fifoState (q : List Word32) (n : Nat) : State :=
  { accessState 0xFFF3000000002F00 0 with
    clusters := [(0, { Cluster.reset with lmode := [(47, 2)], fifo := [(47, q)], attached := [(47, n)] })] }

/-- A FIFO with elements, empty and attached, empty and not attached, and full. -/
theorem witness_FifoAccesses :
    let F : LmForm := ⟨4, false, 127, 4, 0, 0, 0⟩
    let th := accessThread 0xFFF3000000002F00 0
    (∀ s ∈ [fifoState [1, 2] 1, fifoState [] 1, fifoState [] 0], oneB s F.loadUse th = true ∧ s.inflight = [] ∧
      s.reach 0 (some th.stacklim) (F.ea (testUnit [0]) th) 4 1 F.place true true = (s, .fifo 47)) ∧
    (let s := fifoState [1] 1
     MetOne s F.storeUse th ∧
     s.reach 0 (some th.stacklim) (F.ea (testUnit [0]) th) 4 2 F.place true true = (s, .fifo 47)) ∧
    (let s := fifoState (List.replicate 32768 0) 1
     oneB s F.storeUse th = true ∧ 32768 ≤ ((s.cluster 0).fifo.getD 47 []).length) := by
  refine ⟨by decide +kernel, ⟨one_of (by decide +kernel), by decide +kernel⟩, by decide +kernel, ?_⟩
  show 32768 ≤ (List.replicate 32768 (0 : Word32)).length
  exact Nat.le_of_eq List.length_replicate.symm

/-- A full clean hatch, a full poisoned one and an empty one; of the empty one's group the other thread has not
exited, or has. -/
theorem witness_FencesAndHatches :
    (let u := testUnit [0, 7]
     Met (plainState u) Use.plain u ∧ Met (plainState u) { Use.plain with imp := [127] } u ∧
     Met (plainState u) { Use.plain with dst := [127] } u ∧
     (snapHatch (plainState u) 0 15).full = true ∧ (snapHatch (plainState u) 0 15).poison = false) ∧
    (let s := testState twoThreads { probeGroup with hatches := [(15, ⟨0, false, false⟩)] } (testUnit [0])
     MetOne s { Use.plain with dst := [127] } (testThread []) ∧ (snapHatch s 0 15).full = false ∧
     s.threads.any (fun p => p.1 / 8 == 0 && p.1 != 0 && decide (p.2.st ≠ .exited)) = true) ∧
    (let s := testState [(0, testThread []), (7, { testThread [] with st := .exited })]
       { probeGroup with hatches := [(15, ⟨0, false, false⟩)] } (testUnit [0])
     MetOne s { Use.plain with dst := [127] } (testThread []) ∧ (snapHatch s 0 15).full = false ∧
     (∀ p ∈ s.threads, p.1 / 8 = 0 → p.1 ≠ 0 → p.2.st = .exited) ∧ s.cyc.map (fun c => c.exiting) = some []) ∧
    (let s := testState twoThreads { probeGroup with hatches := [(15, ⟨0, true, true⟩)] } (testUnit [0])
     MetOne s { Use.plain with dst := [127] } (testThread []) ∧ (snapHatch s 0 15).poison = true) :=
  ⟨⟨met_of (by decide +kernel), met_of (by decide +kernel), met_of (by decide +kernel), by decide +kernel, by decide +kernel⟩,
    ⟨one_of (by decide +kernel), by decide +kernel, by decide +kernel⟩, ⟨one_of (by decide +kernel), by decide +kernel, by decide +kernel, by decide +kernel⟩,
    one_of (by decide +kernel), by decide +kernel⟩

/-- Object 0 is there and object 1 is not; the token is of the current phase, of the other, or absent. -/
theorem witness_LaneBarriers :
    let s := plainState (testUnit [0])
    let old := testState [(0, { testThread [] with token := some (0, true) })] probeGroup (testUnit [0])
    MetOne s Use.plain (testThread []) ∧ MetOne s { Use.plain with a := [127] } (testThread []) ∧
    MetOne old Use.plain { testThread [] with token := some (0, true) } ∧
    (blockOf 0 = 0 ∧ s.blocks.find 0 = some testBlock ∧ testBlock.core.isSome = true ∧
      testBlock.packet.cooperative = false) ∧
    testBlock.objs.find 0 = some ⟨false, 8, 0, false, none, [], []⟩ ∧ testBlock.objs.find 1 = none :=
  ⟨one_of (by decide +kernel), one_of (by decide +kernel), one_of (by decide +kernel), by decide +kernel, by decide +kernel, by decide +kernel⟩

/-- The state with row entry 15 of tenant 0: rows of 64 bytes at 0x10_0000, their version words at 0x20_0000. -/
def rowState (ga la : Word64) : State :=
  { accessState ga la with
    tenants := [(0, { Tenant.reset with
      s2root := memBase + 0x20000
      rows := [(15, { RowEntry.reset with base := 0x100000, limit := 0x110000, verBase := 0x200000, valid := true, k := 6 })] })] }

/-- The state with the page tables extended: VA 0x4000_0000 on is the host window. -/
def withWindow (s : State) : State :=
  let m := Memory.writeBytes s.mem (memBase + 0x10008) (leBytes 0x4000001D 8)
  { s with mem := Memory.writeBytes m (memBase + 0x30008) (leBytes (hostBase + 0x1D) 8) }

/-- Row entry 15 with rows of 64 bytes from this address on. -/
def rowsAt (base : Nat) (s : State) : State :=
  { s with tenants := [(0, { Tenant.reset with
      s2root := memBase + 0x20000
      rows := [(15, { RowEntry.reset with
        base := base, limit := base + 0x10000, verBase := 0x200000, valid := true, k := 6 })] })] }

/-- A row and a local range with room in the scoreboard and with none, a bad local operand, an address that no row has,
a row in the host window, and a row that is not mapped. -/
theorem witness_RowInstructionsComeUnderWay :
    let use : Use := { Use.plain with a := addrRegs 4, b := addrRegs 6, roleB := true, la := true }
    (∀ i ∈ [Instr.ldrowNear 0 4 6, .ldrowHome 0 4 6, .strow 0 4 6, .raddBf16 0 4 6, .raddF32 0 4 6, .rmaxBf16 0 4 6],
      (rowForm i).isSome = true) ∧
    (let s := rowState 0x100040 0xFFF2000000000FC0
     MetOne s use (accessThread 0x100040 0xFFF2000000000FC0) ∧ s.rowBytes 0 0x100040 = 64 ∧
     (match s.rowLocal 0 0xFFF2000000000FC0 64 with
      | .ok l => decide (l = ⟨0, true, 4032⟩)
      | .error _ => false) = true ∧
     (match (s.findRow 0 0 0x100040 1).2 with
      | .row r => decide (r.k = 6)
      | _ => false) = true ∧ s.rsbFull 0 = false) ∧
    (let s := { rowState 0x100040 0xFFF2000000000FC0 with
       clusters := [(0, { Cluster.reset with rsb := List.replicate 64 ⟨0, true, 4032, 4095, true, none, some 1⟩ })] }
     MetOne s use (accessThread 0x100040 0xFFF2000000000FC0) ∧ s.rsbFull 0 = true) ∧
    (let s := rowState 0x100040 0xFFF2000000000FE0
     MetOne s use (accessThread 0x100040 0xFFF2000000000FE0) ∧
     (match s.rowLocal 0 0xFFF2000000000FE0 64 with
      | .ok _ => false
      | .error c => decide (c = 3)) = true) ∧
    (let s := rowState 0x100004 0xFFF2000000000FC0
     MetOne s use (accessThread 0x100004 0xFFF2000000000FC0) ∧
     (match (s.findRow 0 0 0x100004 3).2 with
      | .noRow => true
      | _ => false) = true) ∧
    (let s := withWindow (rowsAt 0x40000000 (accessState 0x40000040 0xFFF2000000000FC0))
     MetOne s use (accessThread 0x40000040 0xFFF2000000000FC0) ∧
     (match (s.findRow 0 0 0x40000040 1).2 with
      | .refused => true
      | _ => false) = true) ∧
    (let s := rowsAt 0x40000000 (accessState 0x40000040 0xFFF2000000000FC0)
     MetOne s use (accessThread 0x40000040 0xFFF2000000000FC0) ∧
     (match (s.findRow 0 0 0x40000040 1).2 with
      | .fault f a => decide (f = ⟨1, 0x40000040, 0, false⟩ ∧ a = 0x40000040)
      | _ => false) = true) :=
  ⟨by decide +kernel, ⟨one_of (by decide +kernel), by decide +kernel⟩, ⟨one_of (by decide +kernel), by decide +kernel⟩,
    ⟨one_of (by decide +kernel), by decide +kernel⟩, ⟨one_of (by decide +kernel), by decide +kernel⟩,
    ⟨one_of (by decide +kernel), by decide +kernel⟩, one_of (by decide +kernel), by decide +kernel⟩

/-- An address outside the global range, a mapped page and an unmapped one; a cluster without a CACHE bank; a full fence
under way at DEVICE scope and at CLUSTER scope; and a page of the host window. -/
theorem witness_CacheMaintenance :
    let use : Use := { Use.plain with a := addrRegs 4, la := true }
    MetOne (accessState 0x10000000000000 0) use (accessThread 0x10000000000000 0) ∧
    ((match (accessState 0x3FFFFFFF 0).translate 0 0 0x3FFFFFFF 1 (accessState 0x3FFFFFFF 0).choice with
      | .ok pa _ _ => decide (pa < hostBase)
      | .fault _ => false) = true ∧
      MetOne (accessState 0x3FFFFFFF 0) use (accessThread 0x3FFFFFFF 0)) ∧
    ((accessState 0x40000000 0).translate 0 0 0x40000000 1 (accessState 0x40000000 0).choice =
        .fault ⟨1, 0x40000000, 0, false⟩ ∧
      MetOne (accessState 0x40000000 0) use (accessThread 0x40000000 0)) ∧
    (let s := { accessState 0x40000 0 with
       clusters := [(0, { Cluster.reset with lmode := (List.range 8).map (fun i => (i, 1)) })] }
     MetOne s use (accessThread 0x40000 0) ∧ (s.cluster 0).hasCache = false) ∧
    (let s := { accessState 0x40000 0 with inflight := [⟨1, 0, 0, 0, 0, [0], 0, .fence 3 4, [], false⟩] }
     MetOne s use (accessThread 0x40000 0) ∧ s.fullFencePending 0 = true ∧
     ({ s with inflight := [⟨1, 0, 0, 0, 0, [0], 0, .fence 3 3, [], false⟩] } : State).fullFencePending 0 = false) ∧
    (let s := withWindow (accessState 0x40000000 0)
     MetOne s use (accessThread 0x40000000 0) ∧ (s.cluster 0).hasCache = true ∧
     (match s.translate 0 0 0x40000000 1 s.choice with
      | .ok pa _ _ => inHostWindow pa
      | .fault _ => false) = true) :=
  ⟨one_of (by decide +kernel), ⟨by decide +kernel, one_of (by decide +kernel)⟩, ⟨by decide +kernel, one_of (by decide +kernel)⟩,
    ⟨one_of (by decide +kernel), by decide +kernel⟩, ⟨one_of (by decide +kernel), by decide +kernel⟩,
    one_of (by decide +kernel), by decide +kernel⟩

/-! ### Witnesses of the uniform statements -/

/-- The unit of the uniform pipe for threads 0 and 7. -/
def uniUnit : Issue := { testUnit [0, 7] with port := 2 }

/-- The state before a uniform word of this group. -/
def uniState (g : Group) : State := testState twoThreads g uniUnit

/-- A group whose uniform registers are full and 0 but for those listed. -/
def testGroup (regs : NMap Reg) : Group := { probeGroup with sregs := regs }

/-- The word starts for the group and the test block, and its members are outside their handlers and have one. -/
def MetUni (s : State) (g : Group) (b : Block) : Prop :=
  StartsUni s uniUnit g b ∧ ∀ k ∈ uniUnit.lanes, ∀ th, s.threads.find k = some th → Handled s k th

/-- The same as a Boolean. -/
def metUniB (s : State) (g : Group) (b : Block) : Bool :=
  startsB s uniUnit && (handledB s uniUnit && (decide (s.groups.find uniUnit.group = some g) &&
    decide (s.blocks.find uniUnit.block = some b)))

theorem metUni_of {s : State} {g : Group} {b : Block} (h : metUniB s g b = true) : MetUni s g b := by
  simp only [metUniB, Bool.and_eq_true, decide_eq_true_eq] at h
  have hs := starts_of h.1
  exact ⟨⟨hs.head, rfl, hs.once, hs.here, h.2.2.1, h.2.2.2⟩, handled_of h.2.1⟩

/-- The conditions of `UniPass`. -/
def uniPassB (g : Group) (b : Block) (srcs dsts : List Nat) : Bool :=
  (srcs ++ dsts).all (fun r => r == 0 || decide (r < b.packet.uregs)) &&
  ((!srcs.contains 0 || decide (0 < b.packet.uregs)) &&
  ((srcs ++ dsts).all (fun r => r == 0 || (g.sreg r).full) && srcs.all (fun r => !(g.sreg r).poison)))

theorem uniPass_of {g : Group} {b : Block} {srcs dsts : List Nat} (h : uniPassB g b srcs dsts = true) :
    UniPass g b srcs dsts := by
  simp only [uniPassB, Bool.and_eq_true, List.all_eq_true, Bool.or_eq_true, decide_eq_true_eq, beq_iff_eq,
    Bool.not_eq_true', List.contains_eq_mem, decide_eq_false_iff_not] at h
  refine ⟨fun r hr h0 => ?_, fun h0 => ?_, fun r hr h0 => ?_, h.2.2.2⟩
  · exact (h.1 r hr).resolve_left h0
  · exact h.2.1.resolve_left (fun hn => hn h0)
  · exact (h.2.2.1 r hr).resolve_left h0

/-- Each instruction with s0 and s255. -/
theorem witness_UniformResults :
    MetUni (uniState (testGroup [])) (testGroup []) testBlock ∧
    ∀ i ∈ [Instr.uadd 0 255 0 255, .usub 0 0 255 255, .uand 0 255 0 255, .uor 0 0 255 0, .uxor 0 255 255 255,
      .umul 0 255 0 255, .umin 0 255 0 255, .umax 0 0 255 0, .uaddi 0 255 0 255, .ushi 0 255 0 3 31, .umovi 0 255 65535,
      .umovh 0 255 65535], ∃ srcs sd f, uniForm i = some (srcs, sd, f) ∧ UniPass (testGroup []) testBlock srcs [sd.toNat] := by
  refine ⟨metUni_of (by decide), fun i hi => ?_⟩
  simp only [List.mem_cons, List.not_mem_nil, or_false] at hi
  rcases hi with rfl | rfl | rfl | rfl | rfl | rfl | rfl | rfl | rfl | rfl | rfl | rfl <;>
    exact ⟨_, _, _, rfl, uniPass_of (by decide)⟩

/-- A block with 16 uniform registers, an empty and a poisoned register, and the word in a lane unit. -/
theorem witness_UniformChecks :
    (let b := { testBlock with packet := { testPacket with uregs := 16 } }
     let g := testGroup [(2, ⟨0, false, false⟩), (3, ⟨0, true, true⟩)]
     let s := { uniState g with blocks := [(0, b)] }
     MetUni s g b ∧ (b.packet.uregs ≤ 16 ∧ 15 < b.packet.uregs) ∧ (g.sreg 2).full = false ∧ (g.sreg 3).full = true ∧
     (g.sreg 3).poison = true) ∧
    (let u := testUnit [0, 7]
     (plainState u).unit = some u ∧ u.lanes.Nodup ∧ handledB (plainState u) u = true ∧ u.port ≠ 2) :=
  ⟨⟨metUni_of (by decide), by decide⟩, by decide⟩

/-- UCMP of s0 and s255, a predicate that is true and one that is false, and UPARK with the debugger off. -/
theorem witness_UniformControl :
    let g := { testGroup [] with preds := 0x80 }
    MetUni (uniState g) g testBlock ∧ UniPass g testBlock [0, 255] [] ∧ (g.pred 7 = true ∧ g.pred 1 = false) ∧
    (uniState g).dbgOn = false :=
  ⟨metUni_of (by decide), uniPass_of (by decide), by decide, by decide⟩

/-- Special registers into s254 and s255, LREM, a bank in FIFO mode and one beyond the last, and a full hatch. -/
theorem witness_UniformSpecials :
    (let g := testGroup [(1, ⟨47, true, false⟩), (2, ⟨48, true, false⟩)]
     let s := { uniState g with clusters := [(0, { Cluster.reset with lmode := [(47, 2)] })] }
     MetUni s g testBlock ∧ UniPass g testBlock [] [254, 255] ∧ UniPass g testBlock [] [255] ∧
     UniPass g testBlock [1] [] ∧ UniPass g testBlock [2] [] ∧
     ((g.val 1).toNat < 48 ∧ (s.cluster 0).bankMode (g.val 1).toNat = 2) ∧ 48 ≤ (g.val 2).toNat ∧
     (snapHatch s uniUnit.group 15).full = true ∧ (snapHatch s uniUnit.group 15).poison = false) :=
  ⟨metUni_of (by decide), uniPass_of (by decide), uniPass_of (by decide), uniPass_of (by decide),
    uniPass_of (by decide), by decide, by decide, by decide, by decide⟩

/-- The pair at s252 holds a mapped address, or one in the private window; the value goes to or from s254 and
s255. -/
theorem witness_UniformMemory :
    (let g := testGroup [(252, ⟨0x3FFFFFF8, true, false⟩)]
     let s := uniState g
     MetUni s g testBlock ∧ s.dbgOn = false ∧ UniPass g testBlock [252, 253] [254, 255] ∧
     UniPass g testBlock [254, 255, 252, 253] [] ∧ g.val64 (2 * 126) = 0x3FFFFFF8 ∧
     (match (s.reach 0 none (g.val64 252) 8 1 .home false true).2 with
      | .mem _ _ _ => true
      | _ => false) = true) ∧
    (let g := testGroup [(253, ⟨0xFFF00000, true, false⟩)]
     let s := uniState g
     MetUni s g testBlock ∧ UniPass g testBlock [252, 253] [255] ∧
     (s.reach 0 none (g.val64 252) 4 1 .larder true true).2 = .trap 4) :=
  ⟨⟨metUni_of (by decide), by decide, uniPass_of (by decide), uniPass_of (by decide), by decide +kernel,
      by decide +kernel⟩, metUni_of (by decide), uniPass_of (by decide), by decide +kernel⟩

/-- The state before a uniform access whose pair at s252 holds this high word and low word 0, in this cluster. -/
def uniAccess (hi lo : Word32) (c : Cluster) : State :=
  { uniState (testGroup [(252, ⟨lo, true, false⟩), (253, ⟨hi, true, false⟩)]) with clusters := [(0, c)] }

/-- The FIFO of bank 47 as `fifoState` has it. -/
def fifoCluster (q : List Word32) (n : Nat) : Cluster :=
  { Cluster.reset with lmode := [(47, 2)], fifo := [(47, q)], attached := [(47, n)] }

/-- A scoreboard range that holds the access; a FIFO with elements, empty with and without an attachment, and full;
an unmapped page; and an aligned private address. -/
theorem witness_UniformMemory_stops :
    (let s := uniAccess 0xFFF20000 0 { Cluster.reset with rsb := [⟨0, true, 0, 63, true, none, some 1⟩] }
     metUniB s ((s.groups.getD 0 probeGroup)) testBlock = true ∧
     (match s.reach 0 none 0xFFF2000000000000 4 1 .larder true true with
      | (s1, .mem site a _) => (s1.rangeWait 0 site a 4 false).isSome && (s1.rangeWait 0 site a 4 true).isSome
      | _ => false) = true) ∧
    (∀ c ∈ [fifoCluster [1, 2] 1, fifoCluster [] 1, fifoCluster [] 0],
      let s := uniAccess 0xFFF30000 0x2F00 c
      metUniB s ((s.groups.getD 0 probeGroup)) testBlock = true ∧ s.fencePending uniUnit.lanes = false ∧
      s.reach 0 none 0xFFF3000000002F00 4 1 .larder true true = (s, .fifo 47) ∧
      s.reach 0 none 0xFFF3000000002F00 4 2 .larder true true = (s, .fifo 47)) ∧
    (let s := uniAccess 0 0x40000000 Cluster.reset
     metUniB s ((s.groups.getD 0 probeGroup)) testBlock = true ∧
     (s.reach 0 none 0x40000000 4 1 .larder true true).2 = .fault ⟨1, 0x40000000, 0, false⟩ ∧
     (s.reach 0 none 0x40000000 4 2 .larder true true).2 = .fault ⟨1, 0x40000000, 0, false⟩) ∧
    ((0xFFF0000000000008 : Word64).toNat / 2 ^ 48 = 0xFFF0 ∧ (0xFFF0000000000008 : Word64).toNat % 8 = 0) ∧
    32768 ≤ ((fifoCluster (List.replicate 32768 0) 1).fifo.getD 47 []).length := by
  refine ⟨by decide +kernel, by decide +kernel, by decide +kernel, by decide +kernel, ?_⟩
  show 32768 ≤ (List.replicate 32768 (0 : Word32)).length
  exact Nat.le_of_eq List.length_replicate.symm

/-- Object 0 is there and object 2,046 is not; a block on one core and a spanning block; counts 1, 16,384, 0 and
16,385. -/
theorem witness_BarrierObjects :
    (let g := testGroup [(1, ⟨1, true, false⟩), (2, ⟨16384, true, false⟩), (3, ⟨16385, true, false⟩)]
     let s := uniState g
     MetUni s g testBlock ∧ testBlock.packet.cooperative = false ∧ testBlock.core.isSome = true ∧
     UniPass g testBlock [] [255] ∧ (testBlock.objs.find 0).isSome = true ∧ testBlock.objs.find 2046 = none ∧
     s.objsUsed testBlock < 2048 ∧ UniPass g testBlock [1] [] ∧ UniPass g testBlock [2] [] ∧ UniPass g testBlock [3] [] ∧
     ((g.val 1).toNat = 1 ∧ (g.val 2).toNat = 16384 ∧ 16384 < (g.val 3).toNat ∧ (g.val 0).toNat = 0) ∧
     s.threads.all (fun p => decide (p.2.token = none ∧ p.2.st = .ready)) = true) ∧
    (let b := { testBlock with core := none }
     let s := { uniState (testGroup []) with blocks := [(0, b)] }
     MetUni s (testGroup []) b ∧ UniPass (testGroup []) b [] [255]) :=
  ⟨⟨metUni_of (by decide), by decide, by decide, uniPass_of (by decide), by decide, by decide, by decide,
      uniPass_of (by decide), uniPass_of (by decide), uniPass_of (by decide), by decide, by decide⟩,
    metUni_of (by decide), uniPass_of (by decide)⟩

/-- A thread that waits at object 0 with a token for it, beside the members of the BFREE. -/
theorem witness_BarrierObjects_waiter :
    (let s := { uniState (testGroup []) with
       threads := [(0, testThread []),
         (1, { testThread [] with st := .blocked (.barrier 0 false true 0x40004 0x1234), token := some (0, false) }),
         (7, testThread [])] }
     MetUni s (testGroup []) testBlock ∧ s.threads.sorted = true ∧ 1 ∉ uniUnit.lanes ∧ s.releaseSent 1 0 = false ∧
     s.handlerOf 0 ≠ 0 ∧
     (s.threads.find 1).map (fun th => (th.st, th.token, th.tcause.getLsbD 31)) =
       some (.blocked (.barrier 0 false true 0x40004 0x1234), some (0, false), false)) :=
  ⟨metUni_of (by decide), by decide⟩

/-! #### Engine operations -/

/-- A group whose registers from s16 on hold a parameter block. -/
def paramGroup (p : List Word32) : Group :=
  testGroup ((p.zipIdx.filter (fun x => decide (x.1 ≠ 0))).map (fun x => (16 + x.2, ⟨x.1, true, false⟩)))

/-- The test block with 32 KiB of Larder scratch. -/
def engineBlock : Block :=
  { testBlock with packet := { testPacket with lscr := 32768 }, lparts := List.replicate 64 1 }

/-- The state before an engine word, with the row entry of `rowState` and an answered shape table. -/
def engineState (p : List Word32) : State :=
  { uniState (paramGroup p) with
    blocks := [(0, engineBlock)]
    tenants := (rowState 0 0).tenants
    clusters := [(0, { Cluster.reset with
      segReqs := [⟨0, 0x40000, [0, 7], p, some [(1, 0, 0)]⟩] })] }

/-- Sixteen words from the first of them. -/
def words16 (l : List Word32) : List Word32 := l ++ List.replicate (16 - l.length) 0

/-- A PAN of one panel and 16 columns with staged weights. -/
def panParams : List Word32 := words16 [0x00101004, 0, 320, 0, 0, 20480, 64, 24576, 24840, 24904]
/-- A GRN of one K step and 16 columns with a staged operand. -/
def grnParams : List Word32 := words16 [0x00101004, 0, 128, 0, 0, 8192, 64]
/-- A GAT or SCT of one row. -/
def rowParams : List Word32 := words16 [0, 0x100000, 0, 0, 1, 64, 64]
/-- A FAB PUT of 4 bytes of core scratch. -/
def fabParams : List Word32 := words16 [0, 0, 0xFFF20000, 0, 0, 4, 0xFFFFFFFF]

/-- The parameters of an engine instruction that reads them at s16 pass, and its queue, counter and scoreboard
have room. -/
def engineMet (i : Instr) (p : List Word32) : Bool :=
  let s := engineState p
  let g := paramGroup p
  match engineForm s i with
  | some (sp, sr, cls, _, checks) =>
    let q := (List.range 16).map (fun j => (g.sreg (sp.toNat + j)).val)
    metUniB s g engineBlock && (uniPassB g engineBlock ((List.range 16).map (fun j => sp.toNat + j)) [sr.toNat] &&
      (decide (q = p) && (decide (firstBad (checks q engineBlock) = none) && (!s.hasAccess uniUnit.lanes &&
        (decide ((s.cluster 0).engQ.length < 64 ∧ g.counter cls < 64 ∧ s.rsbFull 0 = false) &&
          (if cls = 2 then s.segAnswer uniUnit q else some []).isSome)))))
  | none => false

/-- Each engine instruction; members with an access under way; a counter at its bound and above; and LNCH. -/
theorem witness_EngineIssue :
    ([(.pan 0 16 255, panParams), (.grn 0 16 255, grnParams), (.cpy 0 16 255, words16 []), (.gatNear 0 16 255, rowParams),
      (.gatHome 0 16 255, rowParams), (.sct 0 16 255, rowParams), (.fab 0 16 255, fabParams)] :
      List (Instr × List Word32)).all (fun x => engineMet x.1 x.2) = true ∧
    (let s := { engineState fabParams with
       inflight := [⟨1, 0, 0, 0, 0, [0], 0, .load .home memBase 4 false (.lanes 0 1 1) false, [], false⟩] }
     s.hasAccess uniUnit.lanes = true ∧ metUniB s (paramGroup fabParams) engineBlock = true) ∧
    (let g := { testGroup [] with iss := [(5, 64)] }
     MetUni (uniState g) g testBlock ∧ (g.counter 5 ≤ 64 ∧ 63 < g.counter 5)) ∧
    (let g := testGroup [(254, ⟨0x80, true, false⟩)]
     let e : Entry := ⟨0, 0, 0, 0, false, true, false, none, 0, [], none, none⟩
     let s := { uniState g with tree := { Tree.reset with entries := [(0, e)] } }
     MetUni s g testBlock ∧ UniPass g testBlock [254, 255] [] ∧ UniPass g testBlock [254, 255] [254, 255] ∧
     UniPass g testBlock [254] [] ∧ s.entry testBlock.launch = some e ∧
     ((g.val64 254).toNat % 128 = 0 ∧ (g.val64 254).toNat + 128 ≤ 2 ^ 52)) :=
  ⟨by decide +kernel, by decide +kernel, ⟨metUni_of (by decide), by decide⟩, metUni_of (by decide),
    uniPass_of (by decide), uniPass_of (by decide), uniPass_of (by decide), by decide, by decide⟩

/-- A parameter block that fails, for each engine instruction but CPY, whose parameters the segmenter checks; a launch
that is still live; and a successor address that is misaligned. -/
theorem witness_EngineIssue_faults :
    ([.pan 0 16 255, .grn 0 16 255, .gatNear 0 16 255, .gatHome 0 16 255, .sct 0 16 255, .fab 0 16 255] :
      List Instr).all (fun i =>
        let p := List.replicate 16 0xFFFFFFFF
        let s := engineState p
        match engineForm s i with
        | some (sp, _, _, _, checks) =>
          (firstBad (checks ((List.range 16).map (fun j => ((paramGroup p).sreg (sp.toNat + j)).val)) engineBlock)).isSome &&
            (metUniB s (paramGroup p) engineBlock && (!s.dbgOn && (s.entry 0).isNone))
        | none => false) = true ∧
    (let g := testGroup [(254, ⟨0x81, true, false⟩)]
     MetUni (uniState g) g testBlock ∧ UniPass g testBlock [254, 255] [] ∧ (uniState g).dbgOn = false ∧
     g.val64 254 ≠ 0 ∧ (g.val64 254).toNat % 128 ≠ 0) :=
  ⟨by decide +kernel, metUni_of (by decide), uniPass_of (by decide), by decide⟩

/-! ### Witnesses of the event statements -/

/-- Operation 5 of thread 0, which follows nothing. -/
def testOp (act : MemAct) : MemOp := ⟨5, 0, 0, 0, 0, [0], 0, act, [], false⟩

/-- The test block with this operation under way and this cluster 0. -/
def opState (c : Cluster) (act : MemAct) : State :=
  { plainState (testUnit [0]) with inflight := [testOp act], clusters := [(0, c)] }

/-- The operation is due. -/
theorem due_of {s : State} {o : MemOp} (h : (decide (s.opById 5 = some o) && s.opReady o) = true) : Due s 5 o := by
  simpa [Due] using h

/-- The site has the bytes, or lacks some. -/
def siteHas (s : State) (o : MemOp) (site : Site) (a n : Nat) : Bool := (s.siteRead o site a n).isSome

/-- A captured value; LREM of a launch that is there and of one that is not; loads whose bytes the site has, whose
sector the Larder lacks, and from the host window; atomics of 32 and 64 bits, and RED. -/
theorem witness_OperationsAnswer :
    (∀ act ∈ [MemAct.captured (.lanes 0 127 1) 7, .lrem 0 (.unis 0 255 1), .load .home (memEnd - 8) 8 false (.lanes 0 126 2) false,
        .load .larder memBase 1 true (.lanes 0 127 1) false, .load .hostWindow 0 4 false (.lanes 0 127 1) false,
        .atom .larder memBase false 15 1 0 (some (.lanes 0 127 1)), .atom .home memBase true 9 1 2 (some (.lanes 0 126 2)),
        .atom .larder memBase false 0 1 0 none, .atom .fabricUnit memBase false 15 1 0 none,
        .hallAtom memBase true 9 1 2 (some (.lanes 0 126 2)) [1, 0, 0, 0, 0, 0, 0, 0] false,
        .atom .larder (poolBase + 220) true 9 0 2 (some (.lanes 0 126 2))], Due (opState Cluster.reset act) 5 (testOp act)) ∧
    (let s := opState Cluster.reset (.captured (.lanes 0 1 1) 0)
     let o := testOp (.captured (.lanes 0 1 1) 0)
     siteHas s o .home (memEnd - 8) 8 = true ∧ siteHas s o .larder memBase 1 = false ∧ s.entry 0 = none ∧
     s.sec.bridge = false ∧ ({ s with sec := { Sec.reset with bridge := true } } : State).sec.bridge = true ∧
     s.siteRead o .home (slabPlace 0 220) 4 = some ([0, 0, 0, 0], false) ∧
     siteHas (s.leaveLine o .larder memBase) o .larder memBase 4 = false ∧
     siteHas (s.leaveLine o .home memBase) o .home memBase 8 = true ∧ s.hallBusy memBase 8 = false ∧
     ({ s with inflight := [testOp (.hallAtom memBase false 0 0 0 none [] false)] } : State).hallBusy memBase 8 = true) ∧
    (let s := { plainState (testUnit [0]) with
       tree := { Tree.reset with entries := [(0, ⟨0, 0, 41, 0, false, true, false, none, 0, [], none, none⟩)] } }
     (s.entry 0).map (fun e => e.counter) = some 41) := by
  refine ⟨fun act h => ?_, by decide +kernel, by decide +kernel⟩
  simp only [List.mem_cons, List.not_mem_nil, or_false] at h
  rcases h with rfl | rfl | rfl | rfl | rfl | rfl | rfl | rfl | rfl | rfl | rfl <;> exact due_of (by decide +kernel)

/-- A store at each site, fences of a narrow and of a wide scope, WBL, INVL and LMODE; the Larder is in its
canonical form, with a dirty and a clean byte. -/
theorem witness_StoresFencesAndModes :
    (∀ act ∈ [MemAct.store .home (memEnd - 4) [1, 2, 3, 4], .store .larder memBase [1], .store .larderScratch 4092 [1, 2, 3, 4],
        .store .coreScratch 0 [1], .store .home (slabPlace 0 252) [1, 2, 3, 4], .store .hostWindow 0 [1], .hostFlush 0, .fence 3 2, .fence 3 3,
        .fence 1 6, .fence 2 3, .writeBack memBase, .invalidate memBase, .lmode 2 (2 ^ 47) (.unis 0 254 2)],
      Due (opState twoBytes act) 5 (testOp act)) ∧
    (let s := opState twoBytes (.fence 3 3)
     let o := testOp (.fence 3 3)
     (∀ site ∈ [Site.home, .larder, .larderScratch, .coreScratch, .hostWindow], s.siteNow o site = site) ∧
     s.blocks.find 0 = some testBlock ∧ (s.groups.find (groupOf 0)).isSome = true ∧
     (s.cluster 0).cache.sorted = true ∧ (memBase ≤ memEnd - 4 ∧ memEnd - 4 + 4 ≤ memEnd) ∧ s.sec.bridge = false) := by
  refine ⟨fun act h => ?_, by decide +kernel⟩
  simp only [List.mem_cons, List.not_mem_nil, or_false] at h
  rcases h with rfl | rfl | rfl | rfl | rfl | rfl | rfl | rfl | rfl | rfl | rfl | rfl | rfl | rfl <;>
    exact due_of (by decide +kernel)

/-- The row of `rowState` at home, with its version word, and a local range. -/
def testRow : RowRef := ⟨memBase + 0x100000, memBase + 0x200000, 6, 0, 15⟩

/-- A row read of each kind and place, a row write of each kind, a probe and a fill. -/
theorem witness_RowsAndFills :
    (∀ act ∈ [MemAct.rowRead true testRow ⟨0, true, 4032⟩, .rowRead false testRow ⟨0, false, 4032⟩,
        .rowWrite 0 testRow ⟨0, true, 0⟩, .rowWrite 3 testRow ⟨0, false, 0⟩, .probe testRow 0xFFFFFFFF,
        .fill (memEnd - 32) true, .response (memEnd - 32) true (List.replicate 32 0) [memEnd - 1] [95],
        .rowData 3 testRow (List.replicate 64 0)], Due (opState twoBytes act) 5 (testOp act)) ∧
    (memBase ≤ testRow.pa ∧ testRow.pa + 2 ^ testRow.k ≤ memEnd ∧ memBase ≤ testRow.ver ∧ testRow.ver + 4 ≤ memEnd ∧
      testRow.pa + 2 ^ testRow.k ≤ testRow.ver ∧ 2 ≤ testRow.k) ∧
    (plainState (testUnit [0])).blocks.find 0 = some testBlock ∧ (plainState (testUnit [0])).poison = [] ∧
    ((rowState 0 0).tenant 0).rows.find 15 ≠ none ∧ twoBytes.hasCache = true := by
  refine ⟨fun act h => ?_, by decide +kernel⟩
  simp only [List.mem_cons, List.not_mem_nil, or_false] at h
  rcases h with rfl | rfl | rfl | rfl | rfl | rfl | rfl | rfl <;> exact due_of (by decide +kernel)

/-- A spanning block that holds object 3 with one arrival missing. -/
def spanBlock (st : BlockSt) : Block :=
  { testBlock with core := none, st := st, objs := [(3, ⟨false, 8, 7, false, some 10, [], []⟩)] }

/-- Its state with thread 0 waiting at object 3 and one operation under way. -/
def spanState (b : Block) (act : MemAct) : State :=
  { opState Cluster.reset act with
    blocks := [(0, b)]
    threads := [(0, { testThread [] with st := .blocked (.barrier 3 false false 0x40004 0) })] }

/-- The launch barrier of launch 0, and a COOPERATIVE block of it. -/
def coopState (sending : List Nat) (act : MemAct) : State :=
  let bar : LaunchBar := ⟨2, 1, false, sending, false, 0, some 10, false⟩
  { opState Cluster.reset act with
    blocks := [(0, { testBlock with packet := { testPacket with cooperative := true } })]
    threads := [(0, { testThread [] with st := .blocked (.barrier 2047 false true 0x40004 0) })]
    tree := { Tree.reset with entries := [(0, ⟨0, 0, 1, 0, false, true, false, none, 0, [], some bar, none⟩)] } }

/-- A state whose tenant 0 has a BARTMO of `n`. -/
def timeoutState (s : State) (n : Nat) : State :=
  { s with tenants := [(0, { Tenant.reset with bartmo := BitVec.ofNat 32 n })] }

/-- Arrivals, exits and releases, a parked arrival, the release of a launch barrier, timers below and at their
limit, and answers to a BALLOC. -/
theorem witness_BarrierEvents :
    (let s := spanState (spanBlock .running) (.arrival 3 1 true true)
     (s.dbgOn = false ∧ Due s 5 (testOp (.arrival 3 1 true true))) ∧
     (s.isLaunchBar 0 3 = false ∧ s.barRemote 0 3 = true ∧ s.isSaved 0 = false ∧ (s.barObj 0 3).map (fun o => (o.e, o.a)) = some (8, 7)) ∧
     (s.threads.find 0).map (fun th => th.exited) = some false) ∧
    (let s := spanState (spanBlock .running) (.leave false [3])
     s.dbgOn = false ∧ Due s 5 (testOp (.leave false [3])) ∧ (s.barObj 0 3).isSome = true) ∧
    (let s := coopState [0] (.leave true [2047])
     s.dbgOn = false ∧ Due s 5 (testOp (.leave true [2047])) ∧
     (s.launchBar (s.launchOf 0)).map (fun b => b.spent) = some false ∧ s.releasing = true ∧
     (coopState [] (.leave true [2047])).releasing = false ∧ s.tree.completions = []) ∧
    (let s := spanState { spanBlock .saved with parkedPool := [3] } (.arrival 3 9 false true)
     s.dbgOn = false ∧ Due s 5 (testOp (.arrival 3 9 false true)) ∧ s.isLaunchBar 0 3 = false ∧
     s.isSaved 0 = true ∧ (s.blocks.find 0).map (fun x => (x.st, x.parkedTab, x.parkedPool)) = some (.saved, [], [3])) ∧
    (let s := spanState { spanBlock .saved with parkedTab := [3] } (.leave false [3])
     s.dbgOn = false ∧ Due s 5 (testOp (.leave false [3])) ∧
     (s.blocks.find 0).map (fun x => (x.st, decide x.parkedTab.Nodup)) = some (.saved, true)) ∧
    (let s := spanState { spanBlock .saved with parkedTab := [3] } (.arrival 3 1 false true)
     s.dbgOn = false ∧ Due s 5 (testOp (.arrival 3 1 false true)) ∧
     (s.blocks.find 0).map (fun x => x.parkedTab) = some [3]) ∧
    (let s := coopState [0] (.release 2047)
     s.dbgOn = false ∧ Due s 5 (testOp (.release 2047)) ∧
     (s.threads.find 0).map (fun th => th.st) = some (.blocked (.barrier 2047 false true 0x40004 0)) ∧
     (s.launchBar 0).map (fun b => (b.sending, decide (b.next ≤ s.tree.cycle))) = some ([0], true) ∧
     s.launchWaiters 0 false = [] ∧ s.clusterOfBlock (blockOf 0) = 0) ∧
    (let s := coopState [0] (.leave true [2047])
     s.launchWaiters 0 false = [0] ∧ s.clusterOfBlock (blockOf 0) ∈ [0] ∧
     (s.launchBar 0).map (fun b => (b.sendPhase, decide (b.next ≤ s.tree.cycle))) = some (false, true)) ∧
    (coopState [] (.leave true [2047])).launchBar 0 ≠ none ∧
    (∀ n ∈ [0, 10, 11],
      (let s := timeoutState (spanState (spanBlock .running) (.leave false [3])) n
       s.isLaunchBar 0 3 = false ∧ (s.barObj 0 3).map (fun o => o.timer) = some (some 10) ∧
       (s.tenant (s.tenantOfBlock 0)).bartmo.toNat = n) ∧
      (let s := timeoutState (coopState [] (.leave true [2047])) n
       s.isLaunchBar 0 2047 = true ∧
       (s.launchBar (s.launchOf 0)).map (fun b => (b.timer, ((s.launchWaiters (s.launchOf 0) b.phase).head?).map blockOf)) =
         some (some 10, some 0)) ∧
      (let s := timeoutState (testState twoThreads { probeGroup with bargTmr := some (10, 0x40000) } (testUnit [0])) n
       (s.groups.find 0).map (fun x => x.bargTmr) = some (some (10, 0x40000)))) ∧
    (∀ i ∈ [0, 2046],
      let s := testState [(0, { testThread [] with st := .blocked (.balloc i 255 4) })] probeGroup (testUnit [0])
      (s.groups.find 0).isSome = true ∧ (s.blocks.find (blockOfGroup 0)).isSome = true ∧ s.threads.sorted = true ∧
      (s.threads.find 0).map (fun th => th.st) = some (.blocked (.balloc i 255 4))) := by
  refine ⟨⟨⟨by decide +kernel, due_of (by decide +kernel)⟩, by decide +kernel, by decide +kernel⟩,
    ⟨by decide +kernel, due_of (by decide +kernel), by decide +kernel⟩,
    ⟨by decide +kernel, due_of (by decide +kernel), by decide +kernel⟩,
    ⟨by decide +kernel, due_of (by decide +kernel), by decide +kernel, by decide +kernel⟩,
    ⟨by decide +kernel, due_of (by decide +kernel), by decide +kernel⟩,
    ⟨by decide +kernel, due_of (by decide +kernel), by decide +kernel⟩,
    ⟨by decide +kernel, due_of (by decide +kernel), by decide +kernel⟩, by decide +kernel, by decide +kernel,
    by decide +kernel, by decide +kernel⟩

/-- A core cycle whose units are executed and one with a unit left; a core with candidates and one without; a block
whose next slot is its 64th; floor queues; a deferral that has slots left, with and without another thread; and a
run at its length. -/
theorem witness_CoreCycles :
    (let s := { plainState (testUnit [0]) with cyc := some { testCyc (testUnit [0]) probeGroup with todo := [] } }
     s.cyc.map (fun c => (c.core, c.todo)) = some (0, [])) ∧
    (plainState (testUnit [0])).cyc.map (fun c => c.todo.length) = some 1 ∧
    (let s := { plainState (testUnit [0]) with cyc := none }
     s.cyc = none ∧ (s.core 0).held = none ∧ s.threads.sorted = true ∧ s.dbgOn = false ∧
     s.cands 383 s.freeCtr = [] ∧ (s.cands 0 s.freeCtr).length = 2 ∧ s.overrideDue 0 = false ∧ s.overrideDue 383 = false ∧
     (s.core 0).mode = true ∧ (s.core 0).run < (s.core 0).runLen) ∧
    (let s := { plainState (testUnit [0]) with cyc := none, blocks := [(0, { testBlock with slots := [(0, 63)] })] }
     s.overrideDue 0 = true ∧ (s.core 0).held = none ∧ (s.core 0).floorQ = [] ∧ s.dbgOn = false ∧
     s.threads.sorted = true ∧ (s.blockSlots 0 0 + 1) % 64 = 0) ∧
    (let s := { testState [(0, { testThread [] with wait := 12288 }), (7, { testThread [] with wait := 12287 })] probeGroup
         (testUnit [0]) with cyc := none }
     (s.cands 0 s.freeCtr).map (fun x => (x.key, x.peek.uniform, x.wait)) = [(0, false, 12288), (7, false, 12287)] ∧
     (s.core 0).floorQ = [] ∧ (s.core 0).ufloorQ = []) ∧
    (let s := { testState [(0, { testThread [] with st := .deferred 1 }), (7, testThread [])] probeGroup (testUnit [0]) with
       cyc := none }
     (s.threads.find 0).map (fun th => th.st) = some (.deferred 1) ∧ s.coreOfThread 7 = s.coreOfThread 0 ∧
     s.blocks.find (blockOf 0) = some testBlock ∧ testBlock.runs = true) ∧
    (let s := { testState [(0, { testThread [] with st := .deferred 64 })] probeGroup (testUnit [0]) with cyc := none }
     (s.threads.find 0).map (fun th => th.st) = some (.deferred 64) ∧ s.threads.length = 1) ∧
    (let s := { plainState (testUnit [0]) with cyc := none, cores := [(0, { Core.reset with run := 32 })] }
     (s.core 0).mode = true ∧ (s.core 0).runLen ≤ (s.core 0).run ∧
     ((s.cands 0 s.freeCtr).filter (fun y => !y.peek.uniform && !y.deferred)).length = 2) := by decide +kernel

/-- The end of a cycle of core 0 with these threads and this block, whose units are executed. -/
def endState (ts : NMap Thread) (b : Block) (f : Cyc → Cyc) : State :=
  { testState ts probeGroup (testUnit [0]) with
    blocks := [(0, b)], cyc := some (f { testCyc (testUnit [0]) probeGroup with todo := [] }) }

/-- Its hypotheses that every clause shares. -/
def endMet (s : State) : Bool :=
  match s.cyc with
  | some c => c.todo.isEmpty && (!s.dbgOn && (s.threads.sorted && (s.groups.sorted && (s.blocks.sorted &&
      (decide ((c.laneWait ++ c.uniWait).Nodup ∧ c.exiting.Nodup) && c.exiting.all (fun k =>
        (s.threads.find k).any (fun th => th.exited)))))))
  | none => false

/-- A thread that waits so. -/
def waiting (w : Wait) : Thread := { testThread [] with st := .blocked w }

/-- The end of a cycle: with hatch operations, waits and a write of GTAG; with one FATTACH; with an exit that
completes object 0 and one that does not; a BARG that all have reached and one that not all have; each wait whose
event has come about and has not; an empty hatch with and without mates; a FIFO; and a block that is done. -/
theorem witness_CoreCycles_end :
    endMet (endState twoThreads testBlock (fun c => { c with
      hops := [.put 0 3 1 7, .put 0 3 2 8, .take 0 4, .poison 0 5]
      laneWait := [0], uniWait := [7], late := [.gtag 0 9] })) = true ∧
    (let s := endState twoThreads testBlock (fun c => { c with late := [.attach 0 0 47 true] })
     endMet s = true ∧ (s.groups.find 0).isSome = true ∧
     (∀ p ∈ s.blocks, ∃ q ∈ s.threads, blockOf q.1 = p.1 ∧ q.2.exited = false)) ∧
    (∀ e ∈ [1, 2],
      let b := { testBlock with objs := [(0, ⟨false, e, 1, false, none, [], []⟩)] }
      let s := endState [(0, waiting (.barrier 0 false true 0x40004 0)), (7, { testThread [] with st := .exited })] b
        (fun c => { c with exiting := [7] })
      endMet s = true ∧ b.core = some 0 ∧ b.runs = true ∧ b.objs.sorted = true) ∧
    (endMet (endState [(0, waiting (.barg 0x40004)), (7, waiting (.barg 0x40008))] testBlock id) = true ∧
      endMet (endState [(0, waiting (.barg 0x40004)), (7, testThread [])] testBlock id) = true) ∧
    (∀ w ∈ [Wait.regs [1] [2], .fifoPush 47, .range true 0 3 true, .entry, .queue, .counter 0 0], w.plain = true ∧
      endMet (endState [(0, waiting w), (7, testThread [])] testBlock id) = true) ∧
    (let s := endState twoThreads testBlock id
     ((testThread []).reg 1).full = true ∧ (s.fifo 0 47).length < 32768 ∧ s.rangeHeld 0 true 0 3 true = false ∧
     s.rsbFull 0 = false ∧ (s.cluster 0).engQ.length < 64 ∧ probeGroup.counter 0 ≤ 0 ∧
     (heldState s).rangeHeld 0 true 0 3 true = true) ∧
    (endMet (endState [(0, waiting (.hatch 3 false)), (7, testThread [])] testBlock id) = true ∧
      endMet (endState [(0, waiting (.hatch 3 false)), (7, { testThread [] with st := .exited })] testBlock id) = true) ∧
    (∀ c ∈ [fifoCluster [1] 1, fifoCluster [] 1, fifoCluster [] 0],
      endMet { endState [(0, waiting (.fifoPop 47 0xFFF3000000002F00)), (7, testThread [])] testBlock id with
        clusters := [(0, c)] } = true) ∧
    (let s := endState [(0, { testThread [] with st := .exited }), (7, { testThread [] with st := .exited })] testBlock id
     endMet s = true ∧ s.canRetire 0 = true ∧
     (({ s with tree := { Tree.reset with entries := [(0, ⟨0, 0, 0, 0, false, true, false, none, 0, [], none, none⟩)] } } :
       State).entry 0).map (fun e => (e.live, e.level, e.counter)) = some (true, 0, 0)) := by decide +kernel

/-! ### Witnesses of the register, reset, record and management statements -/

/-- A bridge with debug enabled. -/
def bridgeState : State := { State.reset with sec := { Sec.reset with bridge := true, fuseDbg := true, dbgen := true } }

/-- An access of 8 bytes, and one of 4 at an odd halfword, by the Parlour and by the host of a bridge. -/
theorem witness_UnalignedRegisterAccess :
    ((8 : Nat) ≠ 4 ∨ 0x100 % 4 ≠ 0) ∧ (0x102 % 4 ≠ 0) ∧ bridgeState.sec.bridge = true := by decide

/-- The permitted registers, a wide one, and one that the host may not write. -/
theorem witness_HostRegisterWrites :
    bridgeState.sec.bridge = true ∧ bridgeState.dbgOn = true ∧
    (regAt 0x100).map (fun r => (r.name, r.wide)) = some (.pwrlim, false) ∧
    (regAt (0x2000040 + 0x4000 * 383)).map (fun r => (r.name, r.wide)) = some (.rdgrant 383, false) ∧
    (regAt 0x2000048).map (fun r => (r.name, r.wide)) = some (.classpol 0, false) ∧
    (regAt 0x2000400).map (fun r => (r.name, r.wide, r.high)) = some (.lcr 0 0 0, true, false) ∧
    (regAt 0x1104).map (fun r => r.name) = some .ndata := by decide +kernel

/-- Each clause of RegisterWrites at a bound: a 32-bit register, both halves of a 64-bit one, the last core, cluster,
interrupt entry, sluice, leaf, program word and row entry; what a region, an enable, a program and a row entry need,
and what refuses them. -/
theorem witness_RegisterWrites :
    (let s := State.reset
     (regAt 0x2000048).map (fun r => (r.wide, decide (r.name ≠ .ndata))) = some (false, true) ∧
     (regAt 0x3000).map (fun r => (r.wide, r.high)) = some (true, false) ∧
     (regAt 0x3004).map (fun r => (r.wide, r.high)) = some (true, true) ∧
     (s.regionOk 95 false 0x428 = true ∧ s.regionOk 95 false 0x42C = false ∧ s.regionOk 95 true 0x3F3F = false) ∧
     (s.irt 63).pend = false ∧
     ((s.sluice 4095).en = false ∧ (s.setSluice 4095 { s.sluice 4095 with tenant := 15, prog := 2047, cap := 4095 }).enableOk 4095
       = true ∧ (s.sluice 0).en = true) ∧
     s.tree.progOk 2047 = true ∧ s.progNamed 0 = true ∧ s.progNamed 2047 = false ∧
     nselTarget 0xC0000000 = none ∧ (nselTarget 0).isSome = true ∧
     (let r : RowEntry := { RowEntry.reset with limit := 64, verBase := 64, k := 6 }
      (r.valid = false ∧ r.ok = true ∧ ({ r with k := 5 } : RowEntry).ok = false)) ∧
     ((s.tenant 15).prod + 2 ^ 17 - 2 ^ 17) % 2 ^ 17 ≤ 2 ^ (s.tenant 15).log2n ∧
     2 ^ (s.tenant 15).log2n < ((s.tenant 15).prod + 2 ^ 17 - 1) % 2 ^ 17) ∧
    (let s := { State.reset with desk := { Desk.reset with latched := [(0, (0x3000, 1))] } }
     s.desk.latched.find 0 = some (0x3004 - 4, 1)) ∧
    (let h : HeldPkt := ⟨⟨63, 0, 15, 0, .go 9⟩, none, 0, .none⟩
     let s := { State.reset with io := { Io.reset with waitPkts := [h] } }
     s.sec.devLock = false ∧ s.io.waitPkts = [h] ∧ (0x80000001 : Word32).getLsbD 31 = true ∧
     (s.io.held.filter (fun x => x.packet.dest == h.packet.dest)).length < 4096) ∧
    (let s := { State.reset with clusters := [(95, twoBytes)] }
     (s.cluster 95).bankMode 0 = 0 ∧ s.bankRefused 95 0 none = false ∧ (s.cluster 95).cache.sorted = true) ∧
    (let s := { bridgeState with io := { Io.reset with irt := [(63, { IrtEnt.reset with v := true, pend := true })] } }
     (s.irt 63).pend = true ∧ s.sec.bridge = true) ∧
    (let s := { State.reset with tree := { Tree.reset with
       sluices := [(4095, { Sluice.reset 4095 with child := [(0, ⟨true, false, 0, 1, 0, 0⟩)] })]
       progs := [(2047, List.replicate 24 0xFFFFFFFF)] } }
     (s.sluice 4095).en = false ∧ s.enableOk 4095 = false ∧ s.tree.progOk 2047 = false) ∧
    (let s := { State.reset with tenants := [(15, { Tenant.reset with rows := [(15, { RowEntry.reset with valid := true })] })] }
     ((s.tenant 15).rows.getD 15 RowEntry.reset).valid = true) := by decide +kernel

/-- An engine operation of the test block: a PAN. -/
def testEngOp (params : List Word32) (cls : Nat) : EngOp :=
  { block := 0, group := 0, cluster := 0, cls := cls, home := false, handle := 0x10000, seq := 0, pc := 0x40000
    params := params, rowSeen := [], shape := [(1, 0, 0)], parts := 1, pushed := 0, donePts := [], status := 0 }

/-- An item of operation 3, with its class in the lane that routes it. -/
def testItem (part : Nat) : Item := ⟨List.replicate 16 0, .engine 3 part, 0, .none⟩

/-- What a Pan holds: the item, its pass, its step and its cycles. -/
def testRun (idle : Nat) : EngRun := ⟨testItem 0, 7, 0, 0, 0, idle, false, []⟩

/-- The test block with operation 3 and this cluster 0. -/
def panState (o : EngOp) (c : Cluster) : State :=
  { plainState (testUnit [0]) with cyc := none, ops := [(3, o)], clusters := [(0, c)], blocks := [(0, engineBlock)] }

/-- An idle engine, one that runs with RESTART_OK, one in its tail and one without; an engine under reset, at the
last cycle of it; hang limits; tenants; and an invalidation under way that names one entry and not the other. -/
theorem witness_ResetsAndInvalidations :
    (let s := State.reset
     (s.cluster 95).resetting true = 0 ∧ (s.cluster 95).run true = none ∧ (s.cluster 95).resetting true ≠ 1) ∧
    (let s := panState (testEngOp (words16 [0x10]) 0) { Cluster.reset with pan := some (testRun 65536) }
     (s.cluster 0).run false = some (testRun 65536) ∧
     (s.opOf (testItem 0)).map (fun x => (x.1, x.2.1, x.2.2.restartOk)) = some (3, 0, true) ∧
     ((s.cluster 0).wdog ≠ 0 ∧ 1024 * (s.cluster 0).wdog.toNat ≤ 65536)) ∧
    (let s := panState (testEngOp (words16 []) 0) { Cluster.reset with pan := some (testRun 65535) }
     (s.opOf (testItem 0)).map (fun x => x.2.2.restartOk) = some false ∧ (s.blocks.find 0).isSome = true ∧
     65535 < 1024 * (s.cluster 0).wdog.toNat) ∧
    (let s := panState (testEngOp (words16 []) 0) { Cluster.reset with pan := some (testRun 0), wdog := 0, pnRst := 1 }
     (s.cluster 0).run false = some (testRun 0) ∧ (s.cluster 0).wdog = 0 ∧ (s.cluster 0).resetting false = 1) ∧
    ((State.reset.tenant 15).trBusy = false ∧ 0 < 15 ∧
      (({ State.reset with tenants := [(15, { Tenant.reset with trBusy := true })] } : State).tenant 15).trBusy = true) ∧
    (let s := { State.reset with
       tenants := [(15, { Tenant.reset with tlbBusy := true, tlbKind := 1, tlbPage := 0x1FFFF })]
       tlb := [⟨0, 15, 1, 0x10000, 16, memBase, 7⟩, ⟨0, 15, 1, 0x20000, 16, memBase, 7⟩] }
     (s.tenant 15).tlbBusy = true ∧ s.tlb.map (fun e => decide (e.tenant = 15 ∧ e.stage = 1 ∧
       e.base ≤ (s.tenant 15).tlbPage ∧ (s.tenant 15).tlbPage < e.base + 2 ^ e.size)) = [true, false]) := by decide +kernel

/-- A record of a kind, of the region of address 0x1_0000. -/
def testRec (kind : Nat) : FaultRec := ⟨kind, 0, 0, 0, 0, 0, 0x10000, 0, 0, 0, 0, false, 0, 0x40000, 0, 0, 0⟩

/-- Tenant 0's queue enabled in device memory, with `n` records in it. -/
def queueTenant (n : Nat) : Tenant := { Tenant.reset with fqen := true, fqbase := memBase, prod := n, bstall := 10 }

/-- The test block with thread 0 parked so, this open record, and this message. -/
def recordState (p : Park) (o : List OpenRec) (m : List FaultMsg) : State :=
  { plainState (testUnit [0]) with
    cyc := none
    tenants := [(0, queueTenant 0)]
    threads := [(0, { testThread [] with st := .parked p })]
    desk := { Desk.reset with open_ := o, msgs := m } }

/-- A message with no record of its region and with one; an engine's message; a waiting record with room and without;
a block that has stalled for its limit; and open records that name parked threads and a block. -/
theorem witness_FaultRecords :
    (let s := recordState (.xlate 1 0x10000 false) [] [⟨1, testRec 1, 1, none, 0⟩]
     s.desk.msgs[0]? = some ⟨1, testRec 1, 1, none, 0⟩ ∧ s.desk.open_ = [] ∧ (s.tenant 0).room = true) ∧
    (let s := recordState (.xlate 1 0x10000 false) [⟨0, 0, 1, 0, 1, 0, .agents [9] []⟩] [⟨1, testRec 1, 1, none, 0⟩]
     s.desk.open_.map (fun r => decide (r.queue = 0 ∧ r.kind = 1 ∧ r.tenant = 0 ∧ r.region = 0x10000 / 65536)) = [true]) ∧
    (let s := recordState (.xlate 1 0 false) [] [⟨1, testRec 2, 2, some (testItem 0, 7), 0⟩]
     (s.desk.msgs[0]?).map (fun m => m.engine) = some (some (testItem 0, 7))) ∧
    (let s := recordState (.xlate 1 0x10000 false) [⟨0, 0, 2, 0, 1, 0, .agents [9] []⟩]
       [⟨1, testRec 2, 2, some (testItem 0, 7), 0⟩, ⟨2, testRec 3, 1, some (testItem 0, 7), 0⟩]
     s.desk.open_.map (fun r => decide (r.queue = 0 ∧ r.kind = 2 ∧ r.tenant = 0 ∧ r.region = 0x10000 / 65536)) = [true] ∧
     (s.desk.msgs[1]?).map (fun m => (m.fault.kind, m.stage)) = some (3, 1)) ∧
    (let s := { State.reset with tenants := [(0, { queueTenant 63 with waiting := [testRec 1] })] }
     (s.tenant 0).waiting = [testRec 1] ∧ (s.tenant 0).room = true ∧
     (memBase ≤ (s.tenant 0).fqbase ∧ (s.tenant 0).fqbase + 64 * 2 ^ (s.tenant 0).log2n ≤ memEnd)) ∧
    (let s := { State.reset with tenants := [(0, { queueTenant 64 with waiting := [testRec 1] })] }
     (s.tenant 0).room = false) ∧
    (let s := { recordState .debug [] [] with blocks := [(0, { testBlock with stall := 10 })] }
     s.stalled 0 = true ∧ (s.blocks.find 0).map (fun x => (x.stall, x.stallRep)) = some (10, false) ∧
     (s.tenant 0).bstall = 10 ∧ (s.tenant 1).bstall ≠ 0) ∧
    (let r : OpenRec := ⟨0, 0xFFFFFF, 1, 0, 1, 0, .agents [1] []⟩
     let s := recordState (.xlate 1 0x10000 false) [r] []
     s.desk.open_.find? (fun r => r.queue == 0 && r.tag == (0xFFFFFF : BitVec 24).toNat) = some r ∧
     (s.tenant 0).trBusy = false ∧ (s.threads.find 0).map (fun th => th.st) = some (.parked (.xlate 1 0x10000 false)) ∧
     handledB s (testUnit [0]) = true) ∧
    (let r : OpenRec := ⟨0, 0, 4, 0, 0, 0, .agents [1] []⟩
     let s := recordState (.upark 1 0xFFF) [r] []
     s.desk.open_.find? (fun r => r.queue == 0 && r.tag == (0 : BitVec 24).toNat) = some r ∧
     (s.threads.find 0).map (fun th => th.st) = some (.parked (.upark 1 0xFFF)) ∧ handledB s (testUnit [0]) = true ∧
     s.desk.open_.all (fun r => !(r.queue == 0 && r.tag == 1)) = true) ∧
    (let r : OpenRec := ⟨0, 0, 7, 0, 0, 0, .block 0⟩
     let s := recordState .debug [r] []
     s.desk.open_.find? (fun r => r.queue == 0 && r.tag == (0 : BitVec 24).toNat) = some r ∧
     (s.blocks.find 0).isSome = true) ∧
    (let r : OpenRec := ⟨0, 0, 2, 0, 0, 0, .agents [1] [(testItem 0, 7)]⟩
     (∀ st ∈ [BlockSt.running, .saving, .saved],
       let s := { recordState (.xlate 1 0 false) [r] [] with
         blocks := [(0, { testBlock with st := st })], ops := [(3, testEngOp [] 0)] }
       s.desk.open_.find? (fun r => r.queue == 0 && r.tag == (0 : BitVec 24).toNat) = some r ∧
       (s.opOf (testItem 0)).map (fun x => x.2.2.block) = some 0 ∧ (s.blocks.find 0).map (fun x => x.runs) =
         some (st == .running) ∧ (s.threads.find 0).map (fun th => th.st) = some (.parked (.xlate 1 0 false)))) ∧
    (let r : OpenRec := ⟨0, 0, 10, 0, 0, 0, .relaunch 1 0 (testItem 0)⟩
     let e : Entry := ⟨0, 1, 0, 0, false, true, false, none, 0, [], none, none⟩
     let s := { recordState .debug [r] [] with tree := { Tree.reset with entries := [(1, e)] } }
     s.desk.open_.find? (fun r => r.queue == 0 && r.tag == (0 : BitVec 24).toNat) = some r ∧ s.entry 1 = some e ∧
     e.live = true ∧ e.level = 0) := by decide +kernel

/-- Windows on both sides of 105 °C; an alarm with and without KEYERASE and a second one; attestation free and busy;
a board strap; and a halted thread that the debugger names. -/
theorem witness_PowerSecurityAndDebug :
    (State.reset.sec.src = 0 ∧ State.reset.sec.keyerase = false ∧ State.reset.sec.attBusy = false ∧
      State.reset.sec.pmStrap < 16 ∧ ([] : List BootImage)[0]? = none) ∧
    (let s := { State.reset with sec := { Sec.reset with keyerase := true, src := 0, attBusy := true, attaddr := memBase } }
     s.sec.keyerase = true ∧ s.sec.attBusy = true ∧
     (memBase ≤ s.sec.attaddr ∧ s.sec.attaddr + 4096 + 64 + 64 * s.sec.digests.length ≤ memEnd)) ∧
    (let s := { State.reset with sec := { Sec.reset with src := 3, erased := true, pmStrap := 15 } }
     s.sec.src ≠ 0 ∧ s.sec.erased = true ∧ (0x4F : BitVec 7).toNat = 0x40 + s.sec.pmStrap ∧
     (0x40 : BitVec 7).toNat ≠ 0x40 + s.sec.pmStrap) ∧
    (let s := debugState (recordState .debug [] [])
     s.dbgOn = true ∧ s.namedThread 0 = some 0 ∧ s.namedHalted 383 = false ∧
     (s.threads.find 0).map (fun th => th.st) = some (.parked .debug)) := by decide +kernel

/-! ### Witnesses of the tree, engine, host and fabric statements -/

/-- A launch packet of one block of one thread: signature, ENTRY 0, GRIDX = GRIDY = GRIDZ = BLOCKT = 1, and the
smallest register counts; `parent` is its PARENT. -/
def packetBytes (parent : Byte) : List Byte :=
  [0x01, 0x4C] ++ List.replicate 22 0 ++ [1, 0, 1, 0, 1, 0, 1, 0, 1, 1] ++ List.replicate 22 0 ++ [parent] ++
    List.replicate 71 0

/-- A completion-table entry of tenant 1, live or not, of this packet. -/
def testEntry (live : Bool) (p : Option Packet) : Entry :=
  ⟨0, 1, 0, 0, false, live, false, p, 0, [0, 0x80], none, none⟩

/-- An item with a route of class `cls` and index `idx`. -/
def routed (o : Owner) (cls idx : Nat) : Item := ⟨setAt (List.replicate 16 0) 6 (routeOf cls idx), o, 0, .none⟩

/-- A normal item of rank 0. -/
def queued (it : Item) : QItem := ⟨it, 0, .normal, false⟩

/-- A sluice or leaf that holds these items. -/
def holding (n : Nat) (items : List QItem) : Sluice := { Sluice.reset n with en := true, items := items }

/-- The Hall cycle applies its pushes. -/
def pushingNow (s : State) : State := { s with tree := { s.tree with pushing := true } }

/-- The units of these sluices had requested a pop when the Hall cycle began. -/
def asking (l : List Nat) (s : State) : State := { s with tree := { s.tree with asks := l } }

/-- A state with these sluices and entries, page tables for tenants 0 and 1, and launch packets at VA 0x5_0000 (whole),
0x5_0080 (all 0) and 0x5_0100 (whose PARENT is 7). -/
def treeState (sl : NMap Sluice) (es : NMap Entry) : State :=
  { State.reset with
    mem := (probeMemory [] 32 0).writeBytes (memBase + 0x50000)
      (packetBytes 0 ++ List.replicate 128 0 ++ packetBytes 7)
    tenants := [(0, { Tenant.reset with s2root := memBase + 0x20000 }),
      (1, { Tenant.reset with s2root := memBase + 0x20000, ttopV := true, ttop := 4095 })]
    tree := { Tree.reset with sluices := sl, entries := es } }

/-- The packet at an address is there, and is accepted under its status. -/
def packetAt (s : State) (va : Nat) : Option (Option Nat) :=
  (s.readVa 1 va 128 2).map (fun d => match checkPacket d with
    | .ok _ => none
    | .error st => some st)

/-- Room in the root and none; a packet that is read and accepted, one that is malformed, one beneath a cancelled
level, and one that cannot be read; successors of one launch in order, and a replicated packet before the lock of
DEVNUM; a LAUNCH item at the root with only slot 15 free, for a launch without tables and for one whose table is read
and answered; a slot to expand and one that waits. -/
theorem witness_LaunchesAndBlocks :
    (let s := pushingNow (treeState [] [(7, { testEntry true none with cancelled := true })])
     s.rootRoom = true ∧ packetAt s 0x50000 = some none ∧ packetAt s 0x50080 = some (some 1) ∧
     packetAt s 0x40000000 = none ∧ packetAt s 0x50100 = some none ∧ s.cancelledAbove 4 0 = false ∧
     s.cancelledAbove 4 7 = true ∧ fieldAt (List.replicate 128 0) 0 2 ≠ 0x4C01 ∧ (s.tenant 1).trBusy = false) ∧
    (let s := pushingNow (treeState [] [])
     let s := { s with tree := { s.tree with
       reads := [⟨.successor 1, 1, 0x50000, 0, none⟩, ⟨.successor 1, 1, 0x50080, 0, none⟩, ⟨.aqi 7 1 0 1, 1, 0x50000, 0, none⟩] } }
     (s.tree.reads[0]?).map (fun r => (r.path, r.va)) = some (.successor 1, 0x50000) ∧
     (s.tree.reads[1]?).map (fun r => decide (∃ q ∈ s.tree.reads.take 1, q.path = r.path)) = some true ∧
     (s.tree.reads[2]?).map (fun r => r.path) = some (.aqi 7 1 0 1) ∧ s.sec.devLock = false ∧ s.rootRoom = true) ∧
    ((treeState [] []).rootRoom = false ∧
      (pushingNow (treeState [(0, holding 0 (List.replicate 256 (queued (routed (.launch 1) 0 0))))] [])).rootRoom = false) ∧
    (let s := asking [0] (treeState [(0, holding 0 [queued (routed (.launch 1) 0 0)])] [(1, testEntry true (some testPacket))])
     let s := { s with tree := { s.tree with slots := (List.range 15).map (fun i => (i, ⟨9, 0, 0, [0]⟩)) } }
     s.canPop 0 = true ∧ 0 ∈ s.tree.asks ∧
     (s.entry 1).map (fun e => e.packet.map (fun p => (p.nplace, p.place))) = some (some (0, [])) ∧
     (s.entry 1).map (fun e => e.reply) = some none ∧
     s.tree.slots.find 15 = none ∧ (∀ i ∈ List.range 15, (s.tree.slots.find i).isSome = true)) ∧
    (let p := { testPacket with nplace := 1, place := [0x60000] }
     let s := asking [0] (treeState [(0, holding 0 [queued (routed (.launch 1) 0 0)])]
       [(1, { testEntry true (some p) with reply := some (.aqi 7 1 0 0) })])
     let t := { s with mem := Memory.writeBytes s.mem (memBase + 0x60000) [1, 0, 0, 0, 0, 0, 0, 0, 95] }
     (s.entry 1).map (fun e => (e.tenant, e.reply)) = some (1, some (.aqi 7 1 0 0)) ∧
     ((s.popHead 0).placement 1 0x60000).isSome = false ∧ ((t.popHead 0).placement 1 0x60000) = some [95]) ∧
    (let s := pushingNow (treeState [(4095, holding 4095 [])] [(1, testEntry true (some testPacket))])
     let s := { s with tree := { s.tree with slots := [(14, ⟨1, 0, 0, [0]⟩), (15, ⟨1, 1, 0, [0, 95]⟩)] } }
     s.tree.slots.find 14 = some ⟨1, 0, 0, [0]⟩ ∧ (s.entry 1).map (fun e => e.tenant) = some 1 ∧
     s.tree.expanded = false ∧ s.tree.repush = [] ∧ s.topOf 1 = some 4095 ∧ s.canPush 4095 ordLaunch = true ∧
     (∀ y ∈ s.tree.slots, 0 ≤ y.2.age) ∧ (s.expand 14).isSome = true ∧
     ({ s with tree := { s.tree with pushing := false } } : State).canPush 4095 ordLaunch = false) := by
  refine ⟨?_, ?_, ?_, ?_, ?_, ?_⟩ <;> decide +kernel

/-- The state with a core leaf 0 whose head pre-empts with PMARGIN 4, and these resident blocks. -/
def preemptState (bs : NMap Block) : State :=
  let q : QItem := { queued (routed (.block 1 0) 0 0) with place := .preempt }
  { treeState [(coreLeaf 0, { holding 4096 [q] with pmargin := 4 })]
      [(1, testEntry true (some { testPacket with lscr := 131072 }))] with blocks := bs }

/-- A block that holds 64 KiB of a bank's group, of this rank and age. -/
def victim (rank : BitVec 16) (age drain : Nat) (restart : Bool) : Block :=
  { testBlock with
    rank := rank, age := age, lparts := List.replicate 1024 1
    packet := { testPacket with lscr := 524288, drain := drain, restartable := restart } }

/-- An item with a child that has room, one whose child has none, and one that no child takes; a granted move; a
pre-empting head with victims to choose, and what each costs; blocks that fit and that do not, and a saved one;
entries live and not; a cancel; blocks drained and done; a RESTORE item; and a tail to push. -/
theorem witness_LaunchesAndBlocks_tree :
    (let it := routed (.block 1 0) 0 95
     let x := { holding 4095 [queued it] with child := [(7, ⟨true, true, 1, 0, 95, 95⟩)] }
     let s := treeState [(4095, x)] []
     s.canPop 4095 = true ∧ (s.sluice 4095).childFor it = some 4476 ∧ s.canMove 4476 = true ∧
     (treeState [(4095, x), (4476, { Sluice.reset 4476 with items := List.replicate 256 (queued it), start := 256 })] []).canMove 4476
       = false ∧
     (s.sluice 4095).childFor (routed (.block 1 0) 0 94) = none ∧
     (s.sluice 4095).childFor (routed (.engine 3 0) 1 0) = none ∧
     (s.sluice 4095).childFor (routed (.restore 0) 0 0) = none ∧
     (s.sluice 4095).childFor (routed (.host 3 0) 5 0) = none ∧
     (let m := pushingNow { s with tree := { s.tree with moving := [⟨4095, 4476, queued it⟩] } }
      m.tree.moving = [⟨4095, 4476, queued it⟩] ∧ m.tree.repush = [] ∧ m.tree.pushing = true ∧ s.tree.pushing = false)) ∧
    (let s := preemptState [(0, victim 100 0 0xFFFF false), (1, victim 90 5 1000 true)]
     (s.sluice (coreLeaf 0)).items.map (fun q => (q.place, (s.itemPacket q.item).isSome)) = [(.preempt, true)] ∧
     (s.sluice (coreLeaf 0)).pmargin = 4 ∧ (s.blocks.find 0).map (fun x => x.packet.restartable) = some false ∧
     (s.blocks.find 1).map (fun x => (x.packet.drain, x.packet.restartable)) = some (1000, true)) ∧
    (let q := queued (routed (.block 1 0) 0 95)
     let s := asking [coreLeaf 95] (treeState [(coreLeaf 95, holding 4476 [q])] [(1, testEntry true (some testPacket))])
     s.canPop (coreLeaf 95) = true ∧ coreLeaf 95 ∈ s.tree.asks ∧ (s.itemPacket q.item).isSome = true ∧
     (s.roomFor 95 testPacket 1 []).isSome = true ∧ (s.partsFor 95 0 []).isSome = true ∧
     s.roomFor 95 { testPacket with blockt := 16384 } 1 [] = none ∧ testPacket.blockt ≤ 16384 ∧
     testPacket.groups ≤ 2048) ∧
    (let q := queued (routed (.restore 0) 0 0)
     let o : BarObj := ⟨false, 8, 8, false, none, [], []⟩
     let s := { asking [coreLeaf 0] (treeState [(coreLeaf 0, holding 4096 [q])] []) with
       blocks := [(0, { testBlock with st := .saved, objs := [(0, { o with a := 7 }), (1, o)] })]
       threads := [(0, { testThread [] with st := .parked (.xlate 1 0 false) })]
       desk := { Desk.reset with late := [(0, true)] } }
     s.canPop (coreLeaf 0) = true ∧ coreLeaf 0 ∈ s.tree.asks ∧ (s.itemPacket q.item).isSome = true ∧
     (s.blocks.find 0).map (fun x => x.objs.sorted) = some true ∧ s.desk.late = [(0, true)] ∧ blockOf 0 = 0 ∧
     (s.threads.find 0).map (fun th => th.st) = some (.parked (.xlate 1 0 false))) ∧
    (let s := treeState [] [(1, testEntry true none), (2, testEntry false none), (3, { testEntry true none with level := 3 })]
     (s.entry 1).map (fun e => (e.live, e.level)) = some (true, 0) ∧
     (s.entry 2).map (fun e => (e.live, e.level)) = some (false, 0) ∧ (s.entry 3).map (fun e => e.level) = some 3 ∧
     (let s := { s with tree := { s.tree with cancels := [(1, 0, 1)] } }
      (1, (0 : BitVec 2).toNat, 1) ∈ s.tree.cancels ∧ (15, (0 : BitVec 2).toNat, 1) ∉ s.tree.cancels ∧
      (s.entry 1).map (fun e => e.tenant) = some 1)) ∧
    (let b := { testBlock with st := .saving, tenant := 1 }
     let s := { treeState [] [] with
       blocks := [(0, b)], threads := [(0, { testThread [] with st := .parked .debug })]
       tenants := [(1, { Tenant.reset with savesize := 65536 })] }
     s.canRetire 0 = false ∧ s.drained 0 = true ∧ s.poolRoom b = true ∧ (s.cluster 0).cache.sorted = true ∧
     ({ s with tenants := [] } : State).poolRoom { b with objs := (List.range 65).map (fun i => (i, ⟨false, 8, 0, false, none, [], []⟩)) }
       = false ∧
     ({ s with threads := [] } : State).canRetire 0 = true ∧
     ({ s with inflight := [⟨1, 0, 0, 0, 0, [0], 0, .fence 3 4, [], false⟩] } : State).drained 0 = false) ∧
    ((routed (.restore 0) 0 0).owner = .restore 0 ∧ (routed (.restore 0) 0 0).f.length = 16) ∧
    (let e : Repush := ⟨0, routed (.engine 3 0) 1 0, some 7, true, 4, none⟩
     let s := pushingNow (panState (testEngOp (words16 [0x10]) 0) Cluster.reset)
     let s := { s with tree := { s.tree with repush := [e], cycle := 5 } }
     s.tree.repush = [e] ∧ e.item.leaf = some (engineLeaf 0 false) ∧ s.repushTo e = some (engineLeaf 0 false) ∧
     e.since < s.tree.cycle ∧ s.canPush (engineLeaf 0 false) ordRepush = true ∧
     ({ s with tree := { s.tree with cycle := 4 } } : State).tree.cycle ≤ e.since) := by
  refine ⟨?_, ?_, ?_, ?_, ?_, ?_, ?_, ?_⟩ <;> decide +kernel

/-- An engine queue with an operation, and with a FAB whose device is absent or routed; leaves whose head may pop;
engines whose step is done, faults or meets an illegal byte; the copy engine; an operation whose items are done and
one whose are not; a shape table to read; and staging that can begin and that is under way. -/
theorem witness_EngineItems :
    (let o := testEngOp fabParams 5
     let s := { pushingNow (treeState [(4095, holding 4095 [])] []) with
       ops := [(3, o)], blocks := [(0, { engineBlock with tenant := 1 })]
       clusters := [(0, { Cluster.reset with engQ := [3] })] }
     (s.cluster 0).engQ = [3] ∧ s.ops.find 3 = some o ∧ s.tenantOfBlock 0 = 1 ∧ s.tree.repush = [] ∧
     s.routePort o.device = none ∧ s.topOf 1 = some 4095 ∧ s.canPush 4095 (ordCluster 0) = true ∧
     (({ s with io := { Io.reset with froute := [(63, 0x80000011)] } } : State).routePort 63) = some 17) ∧
    (let q := queued (routed (.engine 3 0) 1 0)
     let s := { panState (testEngOp panParams 0) Cluster.reset with
       tree := { Tree.reset with sluices := [(engineLeaf 0 false, holding 4097 [q])], asks := [engineLeaf 0 false] } }
     engineLeaf 0 false ∈ s.tree.asks ∧ s.oversized 0 false = none ∧ (s.cluster 0).run false = none ∧ (s.cluster 0).resetting false = 0 ∧ s.canPop (engineLeaf 0 false) = true ∧
     s.stageDone q.item = false ∧ s.stageDone { q.item with stage := .complete [0] } = true ∧
     (s.opOf q.item).map (fun x => x.2.2) = some (testEngOp panParams 0) ∧
     (s.cluster 0).copy = none ∧ s.staging 0 false = none ∧ s.staging 0 true = none ∧
     (s.nextStaged 0 false).map (fun x => x.1) = some q ∧ (testEngOp panParams 0).stageUnits ≤ (s.cluster 0).regionUnits false ∧
     s.canStage 0 false = true) ∧
    (let q := queued { routed (.engine 3 0) 1 0 with stage := .begun [0] }
     let s := { panState (testEngOp panParams 0) Cluster.reset with
       tree := { Tree.reset with sluices := [(engineLeaf 0 false, holding 4097 [q])] } }
     s.staging 0 false = some q ∧ [0].Nodup ∧ (testEngOp panParams 0).stageSize ≤ 131072) ∧
    (let o := testEngOp (words16 [0, 0x40000000]) 2
     let q := queued (routed (.engine 3 0) 3 0)
     let s := { panState o Cluster.reset with
       tree := { Tree.reset with sluices := [(copyLeaf 0, holding 4099 [q])], asks := [copyLeaf 0] } }
     copyLeaf 0 ∈ s.tree.asks ∧ s.canPop (copyLeaf 0) = true ∧ (s.opOf q.item).map (fun x => x.2.2) = some o ∧ s.canStage 0 false = false ∧
     s.canStage 0 true = false ∧ (s.cluster 0).copy = none ∧ o.todo 0 0 = [0] ∧
     (match s.cpyRead o [0] with
      | .ok _ => false
      | .error _ => true) = true) ∧
    (let o := testEngOp (words16 [1, 0, 0, 0x40000, 0, 0, 0xAB]) 2
     let s := panState o { Cluster.reset with copy := some ⟨routed (.engine 3 0) 3 0, 0, [0], [(0x40001, 0xCD)]⟩ }
     ((s.cluster 0).copy).map (fun r => (s.opOf r.item).map (fun x => x.2.2.cls)) = some (some 2) ∧
     (match s.cpyRead o [0] with
      | .ok ws => decide (ws = [(0x40000, 0xAB)])
      | .error _ => false) = true ∧ (s.engWrites 0 [(0x40001, 0xCD), (0x40000, 0xAB)]).2 = none ∧
     (s.engWrites 0 [(0x40000000, 0xAB)]).2.isSome = true) ∧
    (let o := testEngOp (words16 [0, 0x100000, 0, 0, 2, 64, 64]) 4
     let s := { rowState 0 0 with ops := [(3, o)], blocks := [(0, engineBlock)], clusters := [(0, { Cluster.reset with
       copy := some ⟨routed (.engine 3 0) 5 0, 0, o.todo 0 0, []⟩ })] }
     (s.opOf (routed (.engine 3 0) 5 0)).map (fun x => x.2.2) = some o ∧ o.todo 0 0 = [0, 1] ∧ o.todo 0 1 = [1] ∧
     o.doneBits [1] = 1 ∧ s.sameRow o 0 1 = true ∧ (State.engRows o s [0, 1]).2.1 = [] ∧
     (State.engRows o s [0, 1]).2.2 = none ∧
     (State.engRows o { s with tenants := [] } [0, 1]).2 = ([0, 1], some .operand)) ∧
    (let o := testEngOp fabParams 5
     let s := panState o Cluster.reset
     s.ops.find 3 = some o ∧ (s.groups.find (groupKey o.block o.group)).isSome = true ∧ o.finished = false ∧
     ({ o with pushed := 1, donePts := [0] } : EngOp).finished = true ∧ par o.params 6 = 0xFFFFFFFF) ∧
    (let r : SegReq := ⟨0, 0x40000, [0, 7], words16 [0x07000000], none⟩
     let s := panState (testEngOp [] 2) { Cluster.reset with segReqs := [r] }
     (s.blocks.find (blockOfGroup 0)).map (fun x => x.runs) = some true ∧
     (s.cluster 0).segReqs.find? (fun q => q.group == 0 && q.answer.isNone) = some r ∧
     s.hasAccess r.members = false ∧ cpyTableOk r.params 128 = true ∧ cpyTableOk r.params 127 = false ∧
     cpyDims r.params = 8 ∧ firstBad (cpyStatic r.params 128) = none ∧ firstBad (cpyStatic r.params 127) = some 5) := by
  refine ⟨?_, ?_, ?_, ?_, ?_, ?_, ?_, ?_⟩ <;> decide +kernel

/-- The operation runs on cluster 0 with one staged unit whose first byte is `b`. -/
def stagedState (p : List Word32) (cls unit : Nat) (b : Byte) : State :=
  panState (testEngOp p cls) { Cluster.reset with staged := [(unit, [(0, b)])] }

/-- A step of the Grainer that is done, a step of the Pan that meets an illegal byte, each at the end of its cycles,
and one that faults (the block's scratch lies outside its banks). -/
theorem witness_EngineItems_steps :
    (let r := { testRun 78 with item := { testItem 0 with stage := .complete [64] } }
     let s := (stagedState grnParams 1 64 1).setRun 0 true (some r)
     (s.cluster 0).run true = some r ∧ (s.opOf r.item).map (fun x => x.2.2) = some (testEngOp grnParams 1) ∧
     (match s.grnStep engineBlock (testEngOp grnParams 1) r.item 0 0 [] with
      | .done _ cycles _ => decide (r.idle = cycles)
      | _ => false) = true) ∧
    (let r := { testRun 6 with item := { testItem 0 with stage := .complete [0] } }
     let s := (stagedState panParams 0 0 243).setRun 0 false (some r)
     (s.cluster 0).run false = some r ∧ (s.opOf r.item).map (fun x => x.2.2) = some (testEngOp panParams 0) ∧
     (match s.panStep engineBlock (testEngOp panParams 0) r.item 0 0 with
      | .illegal _ _ => true
      | _ => false) = true) ∧
    ((match (stagedState panParams 0 0 243).panStep { engineBlock with lparts := [] } (testEngOp panParams 0)
        { testItem 0 with stage := .complete [0] } 0 0 with
      | .fault => true
      | _ => false) = true) := by
  refine ⟨?_, ?_, ?_⟩ <;> decide +kernel

/-- A row of a GAT and of an SCT, whose bytes in Larder scratch lie in banks in SCRATCH mode. -/
theorem witness_EngineItems_rows :
    ∀ need ∈ [permR, permRW],
      let o := testEngOp rowParams 3
      let s := { rowState 0 0 with blocks := [(0, engineBlock)] }
      (match s.engRow o 0 need with
       | .ok r => decide (r.k = 6 ∧ s.homePoisoned r.pa 64 = false)
       | .error _ => false) = true ∧ (s.tenant 0).rowEntry (par64 o.params 1) ≠ none ∧
      ∀ j ∈ List.range 64, (s.cluster 0).bankMode (engineBlock.bankOf (descByte o.params 5 0 0 j)) = 1 := by decide +kernel

/-- A request block of a kind: 64 bytes with TAG and completion record 0. -/
def requestBytes (l : List Byte) : List Byte := l ++ List.replicate (64 - l.length) 0

/-- A bridge whose AQI 7 is enabled for tenant 15 with PASID 5 at its entry 0. -/
def hostState (q : List AqiReq) : State :=
  { bridgeState with io := { Io.reset with aqis := [(7, { Aqi.reset with en := true, tenant := 15, pas := [(0, (true, 5))], queue := q })] } }

/-- A notify write that carries PASID 5 to AQI 7. -/
def notify (kind : Nat) (b : List Byte) : NotifyWrite := { read := false, aqi := 7, kind := kind, pasid := some 5, size := 64, aligned := true, bytes := b }

/-- A COPY of 8,192 bytes, with two parts left or one. -/
def testCopy (left : Nat) : HostCopy := ⟨4, 7, 1, 0, 0, 0x40000, 0x60000, 8192, 0, 0, 2, left, false⟩

/-- Notify writes that are accepted, unlisted, misformed and beyond a full queue; requests that are well formed and
not; the runner cores; a HOST item whose part is read and one whose is not; the bridge; replicated launches that the
peer table allows and not; and replicas and pending launches that a message names. -/
theorem witness_HostRequests :
    (let s := hostState []
     s.sec.bridge = true ∧ (notify 0 (requestBytes [])).aqi < 8 ∧ (requestBytes []).length = 64 ∧ (s.aqi 7).en = true ∧
     (∃ e ∈ (s.aqi 7).pas, e.2 = (true, (5 : BitVec 20))) ∧ (∀ e ∈ (s.aqi 7).pas, e.2 ≠ (true, (6 : BitVec 20))) ∧
     s.runnerUp = true ∧ (s.aqi 7).queue = [] ∧ (s.aqi 7).busy = 0 ∧ (s.aqi 7).tenant < 16 ∧ s.io.copies = [] ∧
     s.io.runners.length = 6 ∧ (∀ a ∈ List.range 8, (s.aqi a).queue = [])) ∧
    ([0, 1, 3, 4, 5, 6].map (fun k => reqOk k (requestBytes [])) ≠ [] ∧
      reqOk 1 (requestBytes []) = true ∧ reqOk 0 (requestBytes [0, 0, 0, 0, 0, 0, 1]) = false ∧
      reqOk 7 (requestBytes []) = false) ∧
    (64 ≤ ((hostState (List.replicate 64 ⟨0, 0, 15, []⟩)).aqi 7).queue.length) ∧
    (let q := queued (routed (.host 4 1) 5 0)
     let s := { treeState [(hostLeaf, holding 4498 [q])] [] with io := { Io.reset with copies := [testCopy 2] } }
     let s := asking [hostLeaf] s
     s.io.hostRun = none ∧ s.canTake hostLeaf = true ∧ (treeState [] []).canTake hostLeaf = false ∧
     s.io.copies.find? (fun c => c.id == 4) = some (testCopy 2) ∧
     (s.readVa 1 (0x40000 + 4096) (Nat.min 4096 (8192 - 4096)) 2).isSome = true ∧
     s.readVa 1 0x40000000 4096 2 = none) ∧
    (let s := { treeState [] [] with io := { Io.reset with copies := [testCopy 1], hostRun := some ⟨4, 1, [1, 2], none⟩ } }
     s.io.hostRun = some ⟨4, 1, [1, 2], none⟩ ∧ (s.writeVa 1 0x61000 [1, 2] 2).2 = true ∧
     (s.writeVa 1 0x40000000 [1, 2] 2).2 = false) ∧
    (let s := withWindow (treeState [] [])
     (0x40000000 % 65536 + 4096 ≤ 65536) ∧
     (match s.translate hallUnit 1 0x40000000 permR s.choice, s.translate hallUnit 1 0x60000 permR s.choice with
      | .ok pa _ _, .ok pb _ _ => inHostWindow pa && !inHostWindow pb
      | _, _ => false) = true) ∧
    (let s := pushingNow { treeState [] [] with
       io := { Io.reset with peer := [(15 * 64 + 63, 0xC0000001)], performed := [(62, [7])] }
       sec := { Sec.reset with devnum := 1, devLock := true }
       tree := { Tree.reset with seenGen := [(62, 15, 9)] } }
     s.rootRoom = true ∧ s.launcherUp = true ∧ s.sec.devLock = true ∧ (packetBytes 0).length = 128 ∧
     s.peerTenant 15 62 30 = none ∧ s.peerTenant 15 63 30 = some 1 ∧ 7 ∈ s.io.performed.getD 62 [] ∧
     7 ∉ s.io.performed.getD 63 [] ∧
     (∀ p ∈ s.tree.seenGen, p.1 = 63 → p.2.1 ≠ 15) ∧ (62, 15, (9 : Word32)) ∈ s.tree.seenGen ∧
     State.reset.sec.devLock = false ∧ ({ s with tree := Tree.reset } : State).rootRoom = false ∧
     ({ s with io := { s.io with runners := List.replicate 6 false } } : State).launcherUp = false) ∧
    (let r : Replica := ⟨15, 9, [62, 63], [0, 62, 63], .parlour, 1⟩
     let p : PendingLaunch := ⟨63, 15, 9, 1⟩
     let s := { State.reset with tree := { Tree.reset with replicas := [r], pendings := [p] } }
     s.tree.replicas.find? (fun r => r.tenant == 15 && r.gen == 9 && r.left.contains 63) = some r ∧
     r.left.filter (fun d => decide (d ≠ 63)) ≠ [] ∧ s.self ∈ r.set ∧
     (∀ x ∈ s.tree.replicas, x.tenant = 15 → x.gen = 9 → 61 ∉ x.left) ∧
     s.tree.pendings.find? (fun p => p.issuer == 63 && p.tenant == 15 && p.gen == 9) = some p) ∧
    (let s := pushingNow { treeState [] [] with sec := { Sec.reset with devnum := 1, devLock := true } }
     let s := { s with tree := { s.tree with reads := [⟨.aqi 7 1 0 (2 ^ 63), 1, 0x50000, 0, none⟩] } }
     s.tree.reads[0]? = some ⟨.aqi 7 1 0 (2 ^ 63), 1, 0x50000, 0, none⟩ ∧ 2 ^ 63 ≠ 0 ∧ s.sec.devLock = true ∧
     s.rootRoom = true ∧ s.tree.replicas = [] ∧
     ({ s with tree := { s.tree with reads := removeAt s.tree.reads 0 } } : State).readVa 1 0x50000 128 2 =
       some (packetBytes 0) ∧ (natRange 0 64).filter (fun x => (2 ^ 63).testBit x || x == s.self) = [s.self, 63] ∧
     s.routePort 63 = none ∧
     (({ s with io := { s.io with froute := [(63, 0x80000011)] } } : State).routePort 63).isSome = true) ∧
    (let s := hostState [⟨4, 4, 15, requestBytes [0, 0, 0, 0, 0, 1]⟩]
     s.nextAqi = some (7, ⟨4, 4, 15, requestBytes [0, 0, 0, 0, 0, 1]⟩) ∧ s.runnerUp = true ∧ s.recorderUp = true) ∧
    (let s := { State.reset with io := { Io.reset with jobs := [.record 7 1 0 0 0 0 none], runners := [true, true, true, false, false, false] } }
     s.io.runners.length = 6 ∧ s.recorderUp = false ∧
     (let s := { s with io := { s.io with runners := List.replicate 6 true } }
      s.recorderUp = true ∧ s.io.jobs = [.record 7 1 0 0 0 0 none]) ∧
     (s.writeVa 1 0x60000 [1] 2).2 = false ∧ ((treeState [] []).writeVa 1 0x60000 [1] 2).2 = true) := by
  refine ⟨?_, ?_, ?_, ?_, ?_, ?_, ?_, ?_, ?_, ?_, ?_⟩ <;> decide +kernel

/-- A flit of VC 0 with these fields, sealed with its CRC. -/
def testFlit (seq : BitVec 12) (kind : BitVec 2) (nak : Bool) (ack : BitVec 12) : Flit :=
  sealFlit ⟨seq, kind, ack, nak, 0, true, List.replicate 56 0, 0⟩

theorem testFlit_good (seq : BitVec 12) (kind : BitVec 2) (nak : Bool) (ack : BitVec 12) :
    flitGood (testFlit seq kind nak ack) = true := by
  simp only [flitGood, testFlit, sealFlit, beq_iff_eq]
  rfl

/-- A packet of device 63's tenant 15 to device 0. -/
def testPkt (dest : Nat) (b : FabBody) : FabPacket := ⟨dest, 63, 15, 65535, b⟩

/-- Port 17 up with a window whose oldest flit has SEQ 5, expecting SEQ 4,095. -/
def testPort : Port := { Port.reset with up := true, nextSeq := 7, expSeq := 4095, window := [⟨5, testFlit 5 0 false 0⟩, ⟨6, testFlit 6 0 false 0⟩] }

/-- The state with DEVNUM locked at this number and this in its Io. -/
def lockedState (n : BitVec 6) (s : State) (io : Io) : State :=
  { s with io := io, sec := { Sec.reset with devnum := n.toNat, devLock := true } }

/-- The expected flit, one 255 and one 256 ahead, tombstones, acknowledgements and NAKs; a port that is down, and one
with a flit that waits, with room in its window and without; a FAB item whose device is routed and one whose is
absent, with 4,096 packets held and with less; operands in the host window and not; held packets, a GET and a launch
packet among them; and messages and requests for another device and for this one, allowed and not, at addresses that
translate and that do not. -/
theorem witness_FabricEvents :
    (testPort.up = true ∧ 17 < 18 ∧ (testFlit 4095 0 false 4).seq = testPort.expSeq ∧ testPort.buffer = [] ∧
      (testFlit 4095 0 false 4).vc.toNat ∉ testPort.skip ∧ (∀ w ∈ testPort.window, w.seq ≠ (testFlit 4095 0 false 4).ackseq) ∧
      ((testFlit 254 0 false 4).seq - testPort.expSeq).toNat = 255 ∧ ((testFlit 255 0 false 4).seq - testPort.expSeq).toNat = 256 ∧
      (testFlit 4095 1 false 4).kind = 1 ∧ testPort.queue = [] ∧
      testPort.window.findIdx? (fun w => w.seq == (testFlit 4095 2 false 6).ackseq) = some 1 ∧
      (testFlit 4095 2 true 4).nak = true ∧ testPort.window.head?.map (fun w => w.seq) = some ((4 : BitVec 12) + 1) ∧
      State.reset.port 0 = Port.reset ∧ Port.reset.up = false) ∧
    (let f : Flit := ⟨0, 0, 0, false, 0, true, [], 0⟩
     let p := { Port.reset with queue := [f] }
     let s := { State.reset with io := { Io.reset with ports := [(17, p)] } }
     (s.port 17).queue = [f] ∧ (s.port 17).window.length < 256 ∧ (List.replicate 256 (⟨0, f⟩ : WinFlit)).length = 256) ∧
    (let o := testEngOp fabParams 5
     let q := queued (routed (.engine 3 0) 4 17)
     let s := lockedState 1 (asking [portLeaf 17] { panState o Cluster.reset with
       tree := { Tree.reset with sluices := [(portLeaf 17, holding 4497 [q])] } }) { Io.reset with froute := [(0, 0x80000011)] }
     s.canTake (portLeaf 17) = true ∧ s.sec.devLock = true ∧ (s.opOf q.item).map (fun x => x.2.2) = some o ∧
     s.routePort o.device = some 17 ∧
     (match s.packetBody o 0 with
      | .ok (.put 0 d) => decide (d.length = 4)
      | _ => false) = true ∧ (s.io.held.filter (fun x => decide (x.packet.dest = o.device))).length < 4096 ∧
     ({ s with io := Io.reset } : State).routePort o.device = none ∧ parOp o.params = 0 ∧
     s.clusterOfBlock 0 = 0 ∧ windowOf (BitVec.ofNat 64 0x40000000) = .global ∧
     (match (withWindow s).translate 0 0 0x40000000 permR s.choice with
      | .ok pa _ _ => inHostWindow pa
      | .fault _ => false) = true) ∧
    ((List.replicate 4096 (⟨⟨63, 0, 0, 0, .go 0⟩, none, 0, .none⟩ : HeldPkt)).length = 4096) ∧
    (let h : HeldPkt := ⟨⟨63, 0, 0, 65535, .get 0 4⟩, some (routed (.engine 3 0) 4 17, 0), 7, .none⟩
     let v : HeldPkt := ⟨⟨63, 0, 15, 65534, .launch (List.replicate 128 0)⟩, none, 8, .none⟩
     let w : HeldPkt := ⟨⟨62, 0, 15, 0, .go 9⟩, none, 0, .none⟩
     let o := testEngOp (words16 [0x10000000, 0, 0, 0, 0xFFF20000, 4, 0xFFFFFFFF]) 5
     let s := lockedState 0 (panState o Cluster.reset) { Io.reset with held := [h, v], froute := [(63, 0x80000011)] }
     s.sec.devLock = true ∧ s.self = 0 ∧ s.heldPacket 63 65535 = some h ∧ s.heldPacket 63 65534 = some v ∧
     s.heldPacket 63 0 = none ∧ (s.opOf (routed (.engine 3 0) 4 17)).map (fun x => x.2.2) = some o ∧
     s.io.waitPkts = [] ∧ h.resends < s.io.retry ∧ s.io.retry ≤ v.resends ∧ (s.routePort 63).isSome = true ∧
     (s.engWrites 0 ((natRange (par64 o.params 3) 4).zip [1, 2, 3, 4])).2 = none ∧
     (({ s with io := { s.io with waitPkts := [w] } } : State).canIssue 62 = true)) ∧
    (let s := lockedState 0 (pushingNow (treeState [] []))
       { Io.reset with peer := [(15 * 64 + 63, 0xF0000001)], froute := [(62, 0x80000000)], performed := [(62, [65535])] }
     (testPkt 62 (.get 0 4)).dest ≠ s.self ∧ (s.routePort 62).isSome = true ∧ s.routePort 61 = none ∧
     (testPkt 0 (.get 0 4)).dest = s.self ∧
     (s.peerTenant 15 63 28 = some 1 ∧ s.peerTenant 15 63 29 = some 1 ∧ s.peerTenant 15 63 30 = some 1 ∧
       s.peerTenant 15 62 28 = none) ∧
     65535 ∉ s.io.performed.getD 63 [] ∧ 65535 ∈ s.io.performed.getD 62 [] ∧
     (s.writeVa 1 0x60000 [1, 2, 3, 4] 2).2 = true ∧ (s.writeVa 1 0x40000000 [1] 2).2 = false ∧
     (s.readVa 1 0x60000 4 2).isSome = true ∧ s.readVa 1 0x40000000 4 2 = none ∧ s.rootRoom = true ∧
     s.launcherUp = true ∧ State.reset.sec.devLock = false) := by
  refine ⟨?_, ?_, ?_, ?_, ?_, ?_⟩ <;> decide +kernel

/-- A write to the host window that is posted, with packets of it held and without, and the read after it; with jobs of
the runner cores and without; and the tenant whose record it is. -/
theorem witness_host_window_writes :
    (∀ act ∈ [MemAct.hostFlush 64, .hostWait 64],
      let s := opState Cluster.reset act
      let h : HeldPkt := ⟨⟨63, 0, 0, 0, .go 9⟩, none, 0, .write 5⟩
      Due s 5 (testOp act) ∧ s.tagPending (.write 5) = false ∧ s.io.jobs = [] ∧ s.recorderUp = true ∧
      ({ s with io := { Io.reset with held := [h] } } : State).tagPending (.write 5) = true ∧
      (({ s with tenants := [(0, { Tenant.reset with writing := some 5 })] } : State).tenant 0).writing = some 5) := by
  intro act h
  simp only [List.mem_cons, List.not_mem_nil, or_false] at h
  rcases h with rfl | rfl <;> exact ⟨due_of (by decide +kernel), by decide +kernel⟩

/-- A Larder in its canonical form with a dirty byte of a row and of its version word, under a row read and a row
write; and a fault record in the host window. -/
theorem witness_own_bytes_of_a_row :
    (let c := { Cluster.reset with cache := [(testRow.pa, (1, true)), (testRow.ver + 3, (2, true))] }
     (c.cache.sorted = true ∧ testRow.owns testRow.pa = true ∧ testRow.owns (testRow.ver + 3) = true) ∧
     (∀ act ∈ [MemAct.rowRead true testRow ⟨0, true, 4032⟩, .rowData 3 testRow (List.replicate 64 0)],
       Due (opState c act) 5 (testOp act)) ∧
     (opState c (.fence 3 3)).poison = []) ∧
    (let s := { State.reset with tenants := [(0, { queueTenant 63 with fqbase := hostBase, waiting := [testRec 1] })] }
     (s.tenant 0).waiting = [testRec 1] ∧ (s.tenant 0).room = true ∧ inHostWindow (s.recordPlace 0) = true) := by
  refine ⟨⟨by decide +kernel, fun act h => ?_, by decide +kernel⟩, by decide +kernel⟩
  simp only [List.mem_cons, List.not_mem_nil, or_false] at h
  rcases h with rfl | rfl <;> exact due_of (by decide +kernel)

/-- The end of a core cycle that is to install a range, with a thread of the block that lives. -/
theorem witness_ranges_at_the_end :
    (let e : RsbEnt := ⟨0, true, 0, 64, true, none, none⟩
     let s := endState twoThreads testBlock (fun c => { c with late := [.range e] })
     endMet s = true ∧ s.cyc.map (fun c => c.late) = some [.range e] ∧
     (∃ k th, s.threads.find k = some th ∧ blockOf k = e.block ∧ th.exited = false)) ∧
    (let s := { plainState (testUnit [0]) with
       cyc := none, cores := [(0, { Core.reset with run := 32, held := some ⟨0, 0x40000, none, [0], [], false, [], 1, []⟩ })] }
     (s.core 0).mode = true ∧ (s.core 0).runLen ≤ (s.core 0).run ∧ (s.core 0).held ≠ none) :=
  ⟨⟨by decide +kernel, by decide +kernel, 0, testThread [], by decide +kernel, by decide, by decide⟩, by decide +kernel⟩

/-- An unmask by the Parlour that holds the entry's low word, at a bridge whose table entry is masked and not masked,
and at another device with an earlier message of the source on its way and without. -/
theorem witness_unmask :
    (let s := { bridgeState with
       io := { Io.reset with irt := [(63, { IrtEnt.reset with v := true, pend := true })], msixTable := [(4 * 255 + 3, 0)] }
       desk := { Desk.reset with heldLow := [(0, (0x7000 + 8 * 63, 255))] } }
     (s.irt 63).pend = true ∧ s.sourceFree 63 = true ∧ s.sec.locked = false ∧
     s.desk.heldLow.find 0 = some (0x7000 + 8 * 63, 255) ∧ (s.msixWord 255 3).getLsbD 0 = false ∧
     (s.msixWord 254 3).getLsbD 0 = true ∧
     ({ s with io := { s.io with jobs := [.interrupt 63] } } : State).sourceFree 63 = false) ∧
    (let s := { State.reset with io := { Io.reset with irt := [(63, { IrtEnt.reset with v := true, pend := true })] } }
     s.sec.bridge = false ∧ s.sourceFree 63 = true ∧ s.tagPending (.msg 63) = false ∧
     ({ s with io := { s.io with held := [⟨⟨63, 0, 0, 0, .bridge (.msix 0 0)⟩, none, 0, .msg 63⟩] } } : State).tagPending
       (.msg 63) = true) := by decide +kernel

/-- A packet whose bytes were read with its launch's retirement, and one of an AQI while its runner cores stand; a
pre-empting head for which a candidate makes room, and one for which all together make none; an item of a reset
engine and what stood ahead of it; and a slot with a BLOCK due while an engine's item is pushed. -/
theorem witness_reads_victims_and_seats :
    (let s := pushingNow (treeState [] [])
     let s := { s with
       tree := { s.tree with reads := [⟨.successor 1, 1, 0x50000, 0, some (some (packetBytes 0))⟩, ⟨.successor 2, 1, 0, 0, some none⟩] } }
     s.rootRoom = true ∧ (s.tree.reads.map (fun r => r.data.isSome)) = [true, true]) ∧
    (let s := { State.reset with io := { Io.reset with runners := List.replicate 6 false } }
     s.runnerUp = false) ∧
    (let big := { victim 100 0 0xFFFF false with core := none, lparts := [], packet := { testPacket with blockt := 16384 } }
     let s := preemptState [(0, big), (1, { testBlock with rank := 100, packet := { testPacket with cooperative := true } })]
     let small := { testPacket with lscr := 0 }
     s.fitsCluster 0 small 1 [] = false ∧ s.fitsCluster 0 small 1 [0] = true ∧
     s.fitsCluster 0 { small with blockt := 16384 } 1 [0] = false ∧
     (s.blocks.filter (fun z => z.2.cluster == 0 && z.2.st == .running && !z.2.packet.cooperative)).map (·.1) = [0] ∧
     ((0 : BitVec 16) - big.rank).toInt ≤ -4) ∧
    (let q := queued (routed (.engine 3 1) 1 0)
     let e : Repush := ⟨0, routed (.engine 3 0) 1 0, some 7, true, 4, some (.normal, [.engine 3 1])⟩
     let s := pushingNow (panState (testEngOp (words16 [0x10]) 0) Cluster.reset)
     let s := { s with tree := { s.tree with
       repush := [e], cycle := 5, sluices := [(engineLeaf 0 false, holding (engineLeaf 0 false) [q])] } }
     s.tree.repush = [e] ∧ e.item.leaf = some (engineLeaf 0 false) ∧ e.since < s.tree.cycle ∧
     s.canPush (engineLeaf 0 false) ordRepush = true ∧ (s.sluice (engineLeaf 0 false)).items = [q]) ∧
    (let s := pushingNow (treeState [(4095, { holding 4095 [] with cap := 7 })] [(1, testEntry true (some testPacket))])
     let s := { s with
       tree := { s.tree with slots := [(14, ⟨1, 0, 0, [0]⟩)] }
       ops := [(3, testEngOp fabParams 5)], blocks := [(0, { engineBlock with tenant := 1 })]
       clusters := [(0, { Cluster.reset with engQ := [3] })] }
     s.tree.slots.sorted = true ∧ s.expandOldest.tree.expanded = true ∧
     s.expandOldest.canPush 4095 (ordCluster 0) = true) := by
  refine ⟨?_, ?_, ?_, ?_, ?_⟩ <;> decide +kernel

/-- A record, a part of a HOST item and a byte of an engine in the host window; a record and a part whose writes are
under way, and whose writes are over; a message of a source behind one that ends; a tombstone in a window; and a packet
flit at a device that is locked and at one that is not. -/
theorem witness_writes_and_messages_in_order :
    (let s := withWindow (treeState [] [])
     (s.writeVa 1 0x40000000 [1] 2).2 = true ∧ ((s.writeVa 1 0x40000000 [1] 2).1.inflight.map (fun o => o.act)) ≠ s.inflight.map (fun o => o.act) ∧
     (match s.translate 0 0 0x40000000 permW s.choice with
      | .ok pa _ _ => inHostWindow pa
      | .fault _ => false) = true) ∧
    (let s := { opState Cluster.reset (.hostFlush 0) with io := { Io.reset with
       jobs := [.record 7 1 0 0 0 0 (some [5])], copies := [testCopy 1], hostRun := some ⟨4, 1, [], some (false, [5])⟩ } }
     (∃ o ∈ s.inflight, o.id ∈ [5]) ∧ s.io.hostRun = some ⟨4, 1, [], some (false, [5])⟩ ∧
     (∀ o ∈ ({ s with inflight := [] } : State).inflight, o.id ∉ [5])) ∧
    (let h : HeldPkt := ⟨⟨63, 0, 0, 0, .bridge (.msix 9 5)⟩, none, 0, .msg 1⟩
     let s := lockedState 1 State.reset { Io.reset with held := [h], msgs := [(1, 9, 5)] }
     s.io.waitPkts = [] ∧ s.io.msgs.find? (fun m => m.1 == 1) = some (1, 9, 5) ∧
     ({ s with io := { s.io with held := [] } } : State).tagPending (.msg 1) = false) ∧
    (let s := lockedState 1 State.reset { Io.reset with
       ports := [(17, { testPort with window := [⟨5, testFlit 5 1 false 0⟩] })] }
     s.sec.devLock = true ∧ State.reset.sec.devLock = false ∧ (s.port 17).window.map (fun w => w.flit.kind) = [1] ∧
     (testFlit 5 1 false 0).kind = 1 ∧ (testFlit 4095 0 false 4).kind.toNat < 2) := by
  refine ⟨?_, ?_, ?_, ?_⟩ <;> decide +kernel

/-! ### Single instructions, with the results that the spec's own tables give -/

/-- A full register. -/
def full (v : Word32) : Reg := ⟨v, true, false⟩

/-- The value that thread 0's register `r` has after an instruction. -/
def laneOut (i : Instr) (u : Issue) (regs : NMap Reg) (r : Nat) : Option Word32 :=
  match exec i (testState [(0, testThread regs)] probeGroup u) with
  | .next t => (t.threads.find 0).map (fun th => (th.reg r).val)
  | _ => none

/-- v3 after an instruction of v1 and v2. -/
def ab (i : Instr) (a b : Word32) : Option Word32 := laneOut i (testUnit [0]) [(1, full a), (2, full b)] 3

/-- Integer corners: the table of 12_lane_integer_notes.md, case 1. -/
theorem test_integer_corners :
    ab (.divu 0 3 1 2) 7 0 = some 0xFFFFFFFF ∧ ab (.remu 0 3 1 2) 7 0 = some 7 ∧
    ab (.div 0 3 1 2) 0x80000000 0xFFFFFFFF = some 0x80000000 ∧ ab (.rem 0 3 1 2) 0x80000000 0xFFFFFFFF = some 0 ∧
    ab (.add 0 3 1 2) 0x7FFFFFFF 1 = some 0x80000000 ∧ ab (.addsat 0 3 1 2) 0x7FFFFFFF 1 = some 0x7FFFFFFF ∧
    ab (.mulhi 0 3 1 2) 0x80000000 0x80000000 = some 0x40000000 := by decide +kernel

/-- Field extraction and PRMB: 12_lane_integer_notes.md, case 2. -/
theorem test_fields :
    ab (.bfx 0 3 1 2) 0x12C87F01 0x0810 = some 0xFFFFFFC8 ∧ ab (.bfxu 0 3 1 2) 0x12C87F01 0x0810 = some 0xC8 ∧
    laneOut (.prmb 0 4 1 0) (modUnit [0] 5 0 0 0 0) [(1, full 0x12C87F01), (5, full 0xAAA2)] 4 = some 0xFFFFFFC8 ∧
    laneOut (.prmb 0 4 1 0) (modUnit [0] 6 0 0 0 0) [(1, full 0x12C87F01), (6, full 0x0123)] 4 = some 0x017FC812 := by
  decide +kernel

/-- Rounding and NaNs: 14_lane_float_notes.md, case 1. -/
theorem test_float_corners :
    ab (.fmul 0 3 1 2) 1 0x3F000000 = some 0 ∧ ab (.fsub 0 3 1 2) 0x00800000 1 = some 0x007FFFFF ∧
    laneOut (.ffma 0 3 1 2) (modUnit [0] 4 0 0 0 0) [(2, full 0x7F800000), (4, full 0x7FC01234)] 3 = some 0x7FC00000 ∧
    ab (.fmin 0 3 1 2) 0xFFC00005 1 = some 1 ∧ ab (.hadd2 0 3 1 2) 0x7FC13F80 0x3F800001 = some 0x7FC03F80 := by
  decide +kernel

/-- Narrowing to FP8, saturating and not: 14_lane_float_notes.md, case 2, and 06_numbers_notes.md, case 1. -/
theorem test_narrowing :
    (let sat := modUnit [0] 0 0 0 0 0
     let nsat := modUnit [0] 0 0 0 0 1
     laneOut (.cvtE4m3F32 0 3 1) sat [(1, full 0x43E80000)] 3 = some 0x7E ∧
     laneOut (.cvtE4m3F32 0 3 1) sat [(1, full 0x7F800000)] 3 = some 0x7E ∧
     laneOut (.cvtE4m3F32 0 3 1) nsat [(1, full 0x7F800000)] 3 = some 0x7F ∧
     laneOut (.cvtE5m2F32 0 3 1) nsat [(1, full 0x47700000)] 3 = some 0x7C ∧
     laneOut (.qnte4 0 3 1 2) sat [(1, full 0x43E80000), (2, full 0x3F800001)] 3 = some 0x7E ∧
     laneOut (.qnte4 0 3 1 2) nsat [(1, full 0x43E80000), (2, full 0x3F800001)] 3 = some 0x7F) ∧
    laneOut (.cvtS32F32 0 3 1) (testUnit [0]) [(1, full 0xC039999A)] 3 = some 0xFFFFFFFE := by decide +kernel

/-- Block scales: 14_lane_float_notes.md, case 3, blocks 0 to 2. -/
theorem test_block_scales :
    let step := fun (g r c acc : Word32) =>
      laneOut (.scacc2 0 8 1 2) (modUnit [0] 3 0 0 0 0) [(1, full g), (2, full r), (3, full c), (8, full acc)] 8
    step 0x42C00000 0x3E800000 0x3F400000 0 = some 0x41900000 ∧
    step 0xC2200000 0x3F000000 0x3FC00000 0x41900000 = some 0xC1400000 ∧
    step 0x45800000 0x3F800800 0x3F800800 0xC1400000 = some 0x457F6000 := by decide +kernel

/-- Ternary digits and their packing: 14_lane_float_notes.md, case 4. -/
theorem test_ternary :
    laneOut (.trnQ 0 8 3 6) (modUnit [0] 0 0 0 0 2) [(3, full 0xBF333333), (6, full 0x3F000000), (8, full 0x01)] 8 =
      some 0x31 ∧
    laneOut (.trnPk 0 9 8) (testUnit [0]) [(8, full 0x131)] 9 = some 0x007979C2 := by decide +kernel

/-- TRAP 0x42 enters the handler with TEPC the unit, cause 11 under H, and TVAL the code (R197). -/
theorem test_trap_entry :
    (match exec (.trap 0 0x42) (plainState (testUnit [0])) with
     | .next t => (t.threads.find 0).map (fun th => (th.pc, th.tepc, th.tcause, th.tval))
     | _ => none) = some (0x48000, 0x40000, 0x8000000B, 0x42) := by decide +kernel

/-- UMOVI and UMOVH leave s6 = 0x1234_5678: 19_uniform_instructions.md. -/
theorem test_umovi_umovh :
    (match exec (.umovi 0 6 0x5678) (uniState (testGroup [])) with
     | .next t => (t.groups.find 0).map (fun g => (g.sreg 6).val)
     | _ => none) = some 0x5678 ∧
    (match exec (.umovh 0 6 0x1234) (uniState (testGroup [(6, full 0x5678)])) with
     | .next t => (t.groups.find 0).map (fun g => (g.sreg 6).val)
     | _ => none) = some 0x12345678 := by decide +kernel

/-- The first step after reset runs the placed word: addi v3, v3, 0x078. -/
theorem test_first_step :
    (match step (State.reset.withFetchWord 32 0x04030678) with
     | .next t => (t.threads.find 0).map (fun th => ((th.reg 3).val, th.pc))
     | _ => none) = some (0x78, 0x40004) := by decide +kernel

/-- A store that is performed at the last bytes of device memory is read back by a load there, sign-extended. -/
theorem test_store_then_load :
    (match exec (.storePerformed 5) (opState Cluster.reset (.store .home (memEnd - 1) [0x80])) with
     | .next t =>
       (match exec (.loadComplete 5) { t with inflight := [testOp (.load .home (memEnd - 1) 1 true (.lanes 0 9 1) false)] } with
        | .next v => (v.threads.find 0).map (fun th => (th.reg 9).val)
        | _ => none)
     | _ => none) = some 0xFFFFFF80 := by decide +kernel

end Sys2Proof.Tests
end

section
/-! SUPPORT. What a log entry changes (R8, R334): the log grows by it, and of the fabric and host side only what carries
the message of source 24 moves, so that the registers read as before. Then the statement about register accesses that are
not aligned 32-bit ones. -/

namespace Sys2Proof.Machine

/-! ### The fabric and host side while a source is announced -/

/-- The registers of the fabric and host side read alike in `a` and in `b`, but for the interrupt entry of `src` and, where
the device is not the bridge, for the port statistics. -/
structure Io.ReadsAs (bridge : Bool) (src : Nat) (a b : Io) : Prop where
  peer : b.peer = a.peer := by rfl
  froute : b.froute = a.froute := by rfl
  bridgeDev : b.bridgeDev = a.bridgeDev := by rfl
  retry : b.retry = a.retry := by rfl
  tmo : b.tmo = a.tmo := by rfl
  aqis : b.aqis = a.aqis := by rfl
  irt : ∀ i, i ≠ src → b.irt.getD i IrtEnt.reset = a.irt.getD i IrtEnt.reset
  ports : bridge = true → b.ports = a.ports

theorem Io.ReadsAs.refl (bridge : Bool) (src : Nat) (a : Io) : Io.ReadsAs bridge src a a :=
  { irt := fun _ _ => rfl, ports := fun _ => rfl }

theorem Io.ReadsAs.trans {bridge : Bool} {src : Nat} {a b c : Io} (h : Io.ReadsAs bridge src a b)
    (k : Io.ReadsAs bridge src b c) : Io.ReadsAs bridge src a c where
  peer := k.peer.trans h.peer
  froute := k.froute.trans h.froute
  bridgeDev := k.bridgeDev.trans h.bridgeDev
  retry := k.retry.trans h.retry
  tmo := k.tmo.trans h.tmo
  aqis := k.aqis.trans h.aqis
  irt i hi := (k.irt i hi).trans (h.irt i hi)
  ports hb := (k.ports hb).trans (h.ports hb)

theorem post_readsAs (s : State) (m : FabMsg) (src : Nat) : Io.ReadsAs false src s.io (s.post m).io := by
  unfold State.post
  dsimp only
  split <;> exact { irt := fun _ _ => rfl, ports := nofun }

theorem issuePacket_readsAs (s : State) (h : HeldPkt) (src : Nat) :
    Io.ReadsAs false src s.io (s.issuePacket h).io := by
  unfold State.issuePacket
  refine .trans ?_ (post_readsAs _ _ _)
  exact { irt := fun _ _ => rfl, ports := nofun }

theorem tellTagged_readsAs (s : State) (d ten : Nat) (b : FabBody) (tag : PktTag) (src : Nat) :
    Io.ReadsAs false src s.io (s.tellTagged d ten b tag).io := by
  unfold State.tellTagged State.sendPacket
  split
  · exact .refl ..
  · split
    · exact issuePacket_readsAs _ _ _
    · exact { irt := fun _ _ => rfl, ports := nofun }

/-- The bridge's message leaves by PCI Express, so that no fabric port changes (R334). -/
theorem sendMsix_readsAs (s : State) (vec : Nat) (pasid : BitVec 20) (src : Nat) :
    Io.ReadsAs true src s.io (s.sendMsix vec pasid).io := by
  unfold State.sendMsix
  split
  · exact .refl ..
  · split <;> exact { irt := fun _ _ => rfl, ports := fun _ => rfl }

theorem forwardMessage_readsAs (s : State) (src vec : Nat) (pasid : BitVec 20) :
    Io.ReadsAs false src s.io (s.forwardMessage src vec pasid).io := by
  unfold State.forwardMessage
  split
  · exact { irt := fun _ _ => rfl, ports := nofun }
  · exact tellTagged_readsAs _ _ _ _ _ _

theorem sendMessage_readsAs (s : State) (src : Nat) (e : IrtEnt) :
    Io.ReadsAs s.sec.bridge src s.io (s.sendMessage src e).io := by
  unfold State.sendMessage
  cases s.sec.bridge
  case true => exact sendMsix_readsAs _ _ _ _
  case false => exact forwardMessage_readsAs _ _ _ _

theorem pendIrt_readsAs (s : State) (src : Nat) : Io.ReadsAs s.sec.bridge src s.io (s.pendIrt src).io := by
  unfold State.pendIrt
  split
  · exact { irt := fun _ hi => NMap.getD_set_other _ _ _ hi, ports := fun _ => rfl }
  · exact .refl ..

theorem message_readsAs (s : State) (src : Nat) : Io.ReadsAs s.sec.bridge src s.io (s.message src).1.io := by
  unfold State.message
  split
  · exact pendIrt_readsAs s src
  · exact sendMessage_readsAs s src _

/-! ### The records and the log while a source is announced -/

@[simp] theorem post_desk (s : State) (m : FabMsg) : (s.post m).desk = s.desk := by
  unfold State.post
  dsimp only
  split <;> rfl

@[simp] theorem issuePacket_desk (s : State) (h : HeldPkt) : (s.issuePacket h).desk = s.desk := by
  unfold State.issuePacket
  exact post_desk _ _

@[simp] theorem tellTagged_desk (s : State) (d ten : Nat) (b : FabBody) (tag : PktTag) :
    (s.tellTagged d ten b tag).desk = s.desk := by
  unfold State.tellTagged State.sendPacket
  split
  · rfl
  · split
    · exact issuePacket_desk _ _
    · rfl

@[simp] theorem sendMessage_desk (s : State) (src : Nat) (e : IrtEnt) : (s.sendMessage src e).desk = s.desk := by
  unfold State.sendMessage State.sendMsix State.forwardMessage
  split
  · split
    · rfl
    · split <;> rfl
  · split
    · rfl
    · exact tellTagged_desk _ _ _ _ _

@[simp] theorem message_desk (s : State) (src : Nat) : (s.message src).1.desk = s.desk := by
  unfold State.message
  split
  · unfold State.pendIrt
    split <;> rfl
  · exact sendMessage_desk _ _ _

/-! ### A log entry -/

/-- What is left of an event of source 24 after its message: where it was dropped, the log says so (assumption 20). -/
theorem raiseLog_eq (s : State) :
    s.raiseLog = if (s.message 24).2 then (s.message 24).1.logQuiet (.irtDrop 24) else (s.message 24).1 := by
  unfold State.raiseLog
  split <;> simp only [*, if_true, Bool.false_eq_true, if_false]

theorem raiseLog_readsAs (s : State) : Io.ReadsAs s.sec.bridge 24 s.io s.raiseLog.io := by
  rw [raiseLog_eq]
  split <;> exact message_readsAs s 24

theorem raiseLog_desk (s : State) : ∃ more, s.raiseLog.desk = { s.desk with log := s.desk.log ++ more } := by
  rw [raiseLog_eq]
  split
  · exact ⟨[.irtDrop 24], by simp [State.logQuiet]⟩
  · exact ⟨[], by simp⟩

theorem log_readsAs (s : State) (l : LogEntry) : Io.ReadsAs s.sec.bridge 24 s.io (s.log l).io := by
  unfold State.log
  split
  · exact raiseLog_readsAs (s.logQuiet l)
  · exact { irt := fun _ _ => rfl, ports := fun _ => rfl }

theorem log_desk (s : State) (l : LogEntry) :
    ∃ more, (s.log l).desk = { s.desk with log := s.desk.log ++ l :: more } := by
  unfold State.log
  split
  · obtain ⟨more, h⟩ := raiseLog_desk (s.logQuiet l)
    exact ⟨more, h.trans (by simp [State.logQuiet])⟩
  · exact ⟨[], rfl⟩

theorem log_logged (s : State) (l : LogEntry) : Logged s (s.log l) l := by
  obtain ⟨more, h⟩ := log_desk s l
  exact ⟨more, by rw [h], (log_rest s l).trans (by rw [State.notes, h])⟩

/-! ### Registers -/

/-- No register shows the records, the log or the free choices; those of the fabric and host side show what it holds. -/
theorem regValue_of_readsAs {s t : State} {src : Nat} (ht : t = s.notes t)
    (hio : Io.ReadsAs s.sec.bridge src s.io t.io) {r : RegName} (hr : r ≠ .irt src)
    (hp : s.sec.bridge = true ∨ ∀ n, r ≠ .fpstat n) : t.regValue r = s.regValue r := by
  rw [ht]
  cases r with
  | peer => simp only [State.regValue, State.notes, hio.peer]
  | froute => simp only [State.regValue, State.notes, hio.froute]
  | e2ectl => simp only [State.regValue, State.notes, hio.bridgeDev, hio.retry, hio.tmo]
  | aqictl => simp only [State.regValue, State.notes, hio.aqis]
  | aqilog => simp only [State.regValue, State.notes, hio.aqis]
  | aqipas => simp only [State.regValue, State.notes, hio.aqis]
  | irt i =>
    have hi : i ≠ src := fun e => hr (e ▸ rfl)
    simp only [State.regValue, State.irt, State.notes, hio.irt i hi]
  | fpstat n =>
    have hb : s.sec.bridge = true := hp.resolve_right (fun h => h n rfl)
    simp only [State.regValue, State.notes, hio.ports hb]
  | _ => rfl

theorem regValue_log (s : State) (l : LogEntry) {r : RegName} (hr : r ≠ .irt 24)
    (hp : s.sec.bridge = true ∨ ∀ n, r ≠ .fpstat n) : (s.log l).regValue r = s.regValue r :=
  regValue_of_readsAs (log_rest s l) (log_readsAs s l) hr hp

/-- What requesters have read shows in no register. -/
theorem regValue_answerRead (s : State) (req v : Nat) (r : RegName) :
    (s.answerRead req v).regValue r = s.regValue r := by
  cases r <;> rfl

/-! ### Register accesses that are not aligned 32-bit ones (R8) -/

/-- By whichever path the write comes, an error is logged and nothing is written. -/
theorem exec_registerWrite_unaligned (s : State) (req : Nat) {off size : Nat} (val : BitVec 32)
    (h : size ≠ 4 ∨ off % 4 ≠ 0) (hb : req = reqHost → s.sec.bridge = true) :
    exec (.registerWrite req off size val) s = .next (s.log (.regError req off)) := by
  by_cases hq : req = reqHost
  · subst hq
    simp [exec, execRegisterWrite, State.hostWrite, State.regError, h, hb rfl]
  · simp [exec, execRegisterWrite, State.writeReg, State.regError, h, hq]

theorem exec_registerRead_unaligned (s : State) (req : Nat) {off size : Nat} (h : size ≠ 4 ∨ off % 4 ≠ 0)
    (hb : req = reqHost → s.sec.bridge = true) :
    exec (.registerRead req off size) s = .next ((s.log (.regError req off)).answerRead req 0) := by
  have hn : ¬(req = reqHost ∧ (!s.sec.bridge) = true) := fun ⟨hq, hf⟩ => by simp [hb hq] at hf
  simp only [exec, execRegisterRead, State.readReg, State.regError, hn, h, if_true, if_false]

/-- Settles O51: the access logs its error, which no register but the log's interrupt entry and the port statistics can
show (`regValue_log`). -/
theorem unalignedRegisterAccess : Obligations.UnalignedRegisterAccess := by
  intro s req off size val hbad hbridge
  constructor
  · exact ⟨_, exec_registerWrite_unaligned s req val hbad hbridge, log_logged _ _,
      fun r hr hp => regValue_log s _ hr hp⟩
  · exact ⟨_, _, exec_registerRead_unaligned s req hbad hbridge, log_logged _ _, rfl, NMap.find_set_self _ _ _,
      fun r hr hp => (regValue_answerRead _ _ _ r).trans (regValue_log s _ hr hp)⟩

end Sys2Proof.Machine
end

section
/-! SUPPORT. The integer instructions (R121 to R128): a lane instruction writes the value of its form, and each
operation of the model is the one that the form states. Then the statements about what they write. -/

namespace Sys2Proof.Machine

/-! ### What a lane form says of its instruction -/

/-- The instruction writes vd with the value of the form, in every thread of a unit whose threads pass the checks. -/
def Computes (i : Instr) (F : LaneForm) : Prop :=
  ∀ (s : State) (u : Issue), Starts s u → AllPass s F.use u →
    ∃ t, exec i s = .next t ∧ Ran s u (fun k th th' => Wrote F.vd.toNat (F.value s u k th) u.next th th') t

/-- Role b of an instruction that reads vb, or with US a uniform register (R90, R120). -/
theorem bValue_eq_operandB {s : State} {use : Use} {u : Issue} {k : Nat} {th : Thread} {vb : BitVec 7}
    (hsb : use.sb = none) (hlm : use.lm = false) (hla : use.la = false) (hb : use.b.headD 0 = vb.toNat) :
    bValue s use u k th = operandB s u k th vb := by
  simp only [bValue, operandB, Use.uniReg, Use.readsUs, hsb, hlm, hla, hb, Thread.val]
  cases modUs u.modOr0 <;> rfl

theorem computes_of_lrUnit {i : Instr} {F : LaneForm} {g : LaneVals → Word32}
    (hexec : ∀ s, exec i s = .next (lrUnit s F.use F.vd g))
    (hval : ∀ s u k th, g (laneVals s F.use u k th) = F.value s u k th) : Computes i F := by
  intro s u hs hp
  refine ⟨_, hexec s, ?_⟩
  simpa only [hval] using lrUnit_ran s F.use u F.vd g hs hp

section
variable {i : Instr} {F : LaneForm} {vd va vb : BitVec 7} {g : LaneVals → Word32}

theorem computes_form1 {f : Word32 → Word32} (hF : form1 vd va f = some F)
    (hexec : ∀ s, exec i s = .next (lrUnit s (Use.one vd va) vd g)) (hval : ∀ o, g o = f o.a) : Computes i F := by
  obtain rfl := Option.some.inj hF
  exact computes_of_lrUnit hexec fun s u k th => hval _

theorem computes_form2 {f : Word32 → Word32 → Word32} (hF : form2 vd va vb f = some F)
    (hexec : ∀ s, exec i s = .next (lrUnit s (Use.ab vd va vb) vd g)) (hval : ∀ o, g o = f o.a o.b) :
    Computes i F := by
  obtain rfl := Option.some.inj hF
  exact computes_of_lrUnit hexec fun s u k th =>
    (hval _).trans (congrArg (f _) (bValue_eq_operandB rfl rfl rfl rfl))

theorem computes_form3 {f : Word32 → Word32 → Word32 → Word32} (hF : form3 vd va vb f = some F)
    (hexec : ∀ s, exec i s = .next (lrUnit s (Use.ab vd va vb).withC vd g)) (hval : ∀ o, g o = f o.a o.b o.c) :
    Computes i F := by
  obtain rfl := Option.some.inj hF
  exact computes_of_lrUnit hexec fun s u k th =>
    (hval _).trans (congrArg (f _ · _) (bValue_eq_operandB rfl rfl rfl rfl))

/-- The form of an instruction that reads a, b and the old vd. -/
theorem computes_implicit {f : Word32 → Word32 → Word32 → Word32}
    (hF : some ⟨(Use.ab vd va vb).implicit vd, vd, va, vb, fun a b _ d _ => f a b d⟩ = some F)
    (hexec : ∀ s, exec i s = .next (lrUnit s ((Use.ab vd va vb).implicit vd) vd g))
    (hval : ∀ o, g o = f o.a o.b o.d) : Computes i F := by
  obtain rfl := Option.some.inj hF
  exact computes_of_lrUnit hexec fun s u k th =>
    (hval _).trans (congrArg (f _ · _) (bValue_eq_operandB rfl rfl rfl rfl))

end

/-- A field of a word as a number. -/
theorem toNat_extract {n : Nat} (x : BitVec n) (i w : Nat) :
    (x.extractLsb' i w).toNat = x.toNat / 2 ^ i % 2 ^ w := by
  rw [BitVec.extractLsb'_toNat, Nat.shiftRight_eq_div_pow]

/-- A field from bit 0. -/
theorem toNat_extract_zero {n : Nat} (x : BitVec n) (w : Nat) : (x.extractLsb' 0 w).toNat = x.toNat % 2 ^ w := by
  rw [toNat_extract, Nat.pow_zero, Nat.div_one]

/-! ### Minimum, maximum, difference and saturating sum (R121) -/

/-- Two conditions choose alike if one implies the other and, where they differ, there is nothing to choose. -/
theorem ite_eq_ite_of_imp {α : Type} {p q : Prop} [Decidable p] [Decidable q] {x y : α} (hpq : p → q)
    (heq : ¬p → q → x = y) : (if p then x else y) = if q then x else y := by
  by_cases hp : p
  · rw [if_pos hp, if_pos (hpq hp)]
  · by_cases hq : q
    · rw [if_neg hp, if_pos hq, heq hp hq]
    · rw [if_neg hp, if_neg hq]

theorem eq_of_not_toInt_lt_of_le {a b : Word32} (hlt : ¬a.toInt < b.toInt) (hle : a.toInt ≤ b.toInt) : a = b :=
  BitVec.toInt_inj.mp (Int.le_antisymm hle (Int.not_lt.mp hlt))

theorem eq_of_not_toNat_lt_of_le {a b : Word32} (hlt : ¬a.toNat < b.toNat) (hle : a.toNat ≤ b.toNat) : a = b :=
  BitVec.eq_of_toNat_eq (Nat.le_antisymm hle (Nat.not_lt.mp hlt))

theorem sMin_eq_ite_le (a b : Word32) : sMin a b = if a.toInt ≤ b.toInt then a else b := by
  simp only [sMin, BitVec.slt_iff_toInt_lt]
  exact ite_eq_ite_of_imp Int.le_of_lt eq_of_not_toInt_lt_of_le

theorem sMax_eq_ite_le (a b : Word32) : sMax a b = if a.toInt ≤ b.toInt then b else a := by
  simp only [sMax, BitVec.slt_iff_toInt_lt]
  exact ite_eq_ite_of_imp Int.le_of_lt fun hlt hle => (eq_of_not_toInt_lt_of_le hlt hle).symm

theorem uMin_eq_ite_le (a b : Word32) : uMin a b = if a.toNat ≤ b.toNat then a else b := by
  simp only [uMin, BitVec.ult_iff_toNat_lt]
  exact ite_eq_ite_of_imp Nat.le_of_lt eq_of_not_toNat_lt_of_le

theorem uMax_eq_ite_le (a b : Word32) : uMax a b = if a.toNat ≤ b.toNat then b else a := by
  simp only [uMax, BitVec.ult_iff_toNat_lt]
  exact ite_eq_ite_of_imp Nat.le_of_lt fun hlt hle => (eq_of_not_toNat_lt_of_le hlt hle).symm

theorem ofInt_toInt_sub (a b : Word32) : BitVec.ofInt 32 (a.toInt - b.toInt) = a - b := by
  rw [Int.sub_eq_add_neg, BitVec.ofInt_add, BitVec.ofInt_neg, BitVec.ofInt_toInt, BitVec.ofInt_toInt,
    ← BitVec.sub_eq_add_neg]

theorem absDiff_eq_sub (a b : Word32) : absDiff a b = if a.toInt ≤ b.toInt then b - a else a - b := by
  rw [absDiff, ← BitVec.ofInt_natCast]
  by_cases h : a.toInt ≤ b.toInt
  · have hn : ((a.toInt - b.toInt).natAbs : Int) = b.toInt - a.toInt := by omega
    rw [if_pos h, hn, ofInt_toInt_sub]
  · have hn : ((a.toInt - b.toInt).natAbs : Int) = a.toInt - b.toInt := by omega
    rw [if_neg h, hn, ofInt_toInt_sub]

theorem addSat_eq_saturate (a b : Word32) : addSat a b = saturate (a.toInt + b.toInt) := by
  unfold addSat saturate
  generalize a.toInt + b.toInt = x
  by_cases hlo : x < -2147483648
  · have hx : max (-(2 ^ 31)) (min (2 ^ 31 - 1) x) = -2147483648 := by omega
    rw [if_pos hlo, hx]
    decide
  · by_cases hhi : 2147483647 < x
    · have hx : max (-(2 ^ 31)) (min (2 ^ 31 - 1) x) = 2147483647 := by omega
      rw [if_neg hlo, if_pos hhi, hx]
      decide
    · have hx : max (-(2 ^ 31)) (min (2 ^ 31 - 1) x) = x := by omega
      rw [if_neg hlo, if_neg hhi, hx]

/-! ### Shifts (R121, R124) -/

theorem toNat_and_31 (b : Word32) : (b &&& 31).toNat = b.toNat % 32 := by
  rw [BitVec.toNat_and]
  exact Nat.and_two_pow_sub_one_eq_mod b.toNat 5

theorem shl32_eq_and_31 (a b : Word32) : shl32 a b.toNat = a <<< (b &&& 31) := by
  rw [shl32, BitVec.shiftLeft_eq', toNat_and_31]

theorem shr32_eq_and_31 (a b : Word32) : shr32 a b.toNat = a >>> (b &&& 31) := by
  rw [shr32, BitVec.ushiftRight_eq', toNat_and_31]

theorem sar32_eq_and_31 (a b : Word32) : sar32 a b.toNat = BitVec.sshiftRight' a (b &&& 31) := by
  rw [sar32, BitVec.sshiftRight_eq', toNat_and_31]

theorem toNat_mod_32 (n : BitVec 5) : n.toNat % 32 = n.toNat := Nat.mod_eq_of_lt n.isLt

theorem shl32_immediate (a : Word32) (n : BitVec 5) : shl32 a n.toNat = a <<< n := by
  rw [shl32, BitVec.shiftLeft_eq', toNat_mod_32]

theorem shr32_immediate (a : Word32) (n : BitVec 5) : shr32 a n.toNat = a >>> n := by
  rw [shr32, BitVec.ushiftRight_eq', toNat_mod_32]

theorem sar32_immediate (a : Word32) (n : BitVec 5) : sar32 a n.toNat = BitVec.sshiftRight' a n := by
  rw [sar32, BitVec.sshiftRight_eq', toNat_mod_32]

/-- A rotation reads the word from the amount on in two copies of it. -/
theorem ror32_eq_extract_mod (a : Word32) (n : Nat) : ror32 a n = (a ++ a).extractLsb' (n % 32) 32 := by
  have hn : n % 32 < 32 := Nat.mod_lt _ (by decide)
  unfold ror32
  refine BitVec.eq_of_getLsbD_eq fun i hi => ?_
  rw [BitVec.getLsbD_rotateRight, Nat.mod_eq_of_lt hn, BitVec.getLsbD_extractLsb', BitVec.getLsbD_append,
    decide_eq_true hi, Bool.true_and, Bool.true_and]
  by_cases h : i < 32 - n % 32
  · have hlow : n % 32 + i < 32 := by omega
    rw [decide_eq_true h, cond_true, if_pos hlow]
  · have hhigh : ¬n % 32 + i < 32 := by omega
    have hpos : n % 32 + i - 32 = i - (32 - n % 32) := by omega
    rw [decide_eq_false h, cond_false, if_neg hhigh, hpos]

theorem ror32_eq_extract (a b : Word32) :
    ror32 a b.toNat = (a ++ a).extractLsb' (b.extractLsb' 0 5).toNat 32 := by
  have hn : (b.extractLsb' 0 5).toNat = b.toNat % 32 := toNat_extract_zero b 5
  rw [ror32_eq_extract_mod, hn]

theorem ror32_immediate (a : Word32) (n : BitVec 5) : ror32 a n.toNat = (a ++ a).extractLsb' n.toNat 32 := by
  rw [ror32_eq_extract_mod, toNat_mod_32]

/-! ### Compares (R121) -/

theorem boolWord_bne (a b : Word32) : boolWord (a != b) = truth (a ≠ b) :=
  congrArg truth (decide_not (p := a = b)).symm

theorem boolWord_slt (a b : Word32) : boolWord (a.slt b) = truth (a.toInt < b.toInt) :=
  congrArg truth BitVec.slt_eq_decide

/-! ### What R121 and R124 give -/

theorem simpleForm_computes {i : Instr} {F : LaneForm} (h : simpleForm i = some F) : Computes i F := by
  cases i with
  | add => exact computes_form2 h (fun _ => rfl) fun _ => rfl
  | sub => exact computes_form2 h (fun _ => rfl) fun _ => rfl
  | min => exact computes_form2 h (fun _ => rfl) fun o => sMin_eq_ite_le o.a o.b
  | max => exact computes_form2 h (fun _ => rfl) fun o => sMax_eq_ite_le o.a o.b
  | minu => exact computes_form2 h (fun _ => rfl) fun o => uMin_eq_ite_le o.a o.b
  | maxu => exact computes_form2 h (fun _ => rfl) fun o => uMax_eq_ite_le o.a o.b
  | absd => exact computes_form2 h (fun _ => rfl) fun o => absDiff_eq_sub o.a o.b
  | addsat => exact computes_form2 h (fun _ => rfl) fun o => addSat_eq_saturate o.a o.b
  | and => exact computes_form2 h (fun _ => rfl) fun _ => rfl
  | or => exact computes_form2 h (fun _ => rfl) fun _ => rfl
  | xor => exact computes_form2 h (fun _ => rfl) fun _ => rfl
  | andn => exact computes_form2 h (fun _ => rfl) fun _ => rfl
  | shl => exact computes_form2 h (fun _ => rfl) fun o => shl32_eq_and_31 o.a o.b
  | shr => exact computes_form2 h (fun _ => rfl) fun o => shr32_eq_and_31 o.a o.b
  | sar => exact computes_form2 h (fun _ => rfl) fun o => sar32_eq_and_31 o.a o.b
  | ror => exact computes_form2 h (fun _ => rfl) fun o => ror32_eq_extract o.a o.b
  | seq => exact computes_form2 h (fun _ => rfl) fun _ => rfl
  | sne => exact computes_form2 h (fun _ => rfl) fun o => boolWord_bne o.a o.b
  | slt => exact computes_form2 h (fun _ => rfl) fun o => boolWord_slt o.a o.b
  | sltu => exact computes_form2 h (fun _ => rfl) fun _ => rfl
  | shli _ _ _ n => exact computes_form1 h (fun _ => rfl) fun o => shl32_immediate o.a n
  | shri _ _ _ n => exact computes_form1 h (fun _ => rfl) fun o => shr32_immediate o.a n
  | sari _ _ _ n => exact computes_form1 h (fun _ => rfl) fun o => sar32_immediate o.a n
  | rori _ _ _ n => exact computes_form1 h (fun _ => rfl) fun o => ror32_immediate o.a n
  | _ => cases h

/-- Settles O13: each operation of the model is the one of its form (`simpleForm_computes`). -/
theorem simpleIntegerResults : Obligations.SimpleIntegerResults := fun _ _ h => simpleForm_computes h

/-! ### Products, quotients and remainders (R62, R123) -/

theorem mul_eq_ofInt (a b : Word32) : a * b = BitVec.ofInt 32 (a.toInt * b.toInt) := by
  rw [BitVec.ofInt_mul, BitVec.ofInt_toInt, BitVec.ofInt_toInt]

theorem mul_add_eq_ofInt (a b c : Word32) : a * b + c = BitVec.ofInt 32 (a.toInt * b.toInt + c.toInt) := by
  rw [BitVec.ofInt_add, ← mul_eq_ofInt, BitVec.ofInt_toInt]

theorem mulHi_eq_ofInt_div (a b : Word32) : mulHi a b = BitVec.ofInt 32 (a.toInt * b.toInt / 4294967296) := by
  unfold mulHi
  generalize a.toInt * b.toInt = p
  refine BitVec.eq_of_toNat_eq ?_
  rw [toNat_extract, BitVec.toNat_ofInt, BitVec.toNat_ofInt]
  omega

theorem mulHiU_eq_extract (a b : Word32) :
    mulHiU a b = (a.setWidth 64 * b.setWidth 64).extractLsb' 32 32 := by
  have hw (x : Word32) : (x.setWidth 64).toNat = x.toNat := BitVec.toNat_setWidth_of_le (by decide)
  refine BitVec.eq_of_toNat_eq ?_
  rw [mulHiU, toNat_extract, BitVec.toNat_mul, hw, hw, BitVec.toNat_ofNat]
  omega

theorem ofInt_tdiv (a b : Word32) : BitVec.ofInt 32 (a.toInt.tdiv b.toInt) = a.sdiv b :=
  BitVec.toInt_inj.mp (by rw [BitVec.toInt_ofInt, BitVec.toInt_sdiv])

theorem ofInt_tmod (a b : Word32) : BitVec.ofInt 32 (a.toInt.tmod b.toInt) = a.srem b := by
  rw [← BitVec.toInt_srem, BitVec.ofInt_toInt]

/-- The two cases that R62 defines apart; in −2^31 ÷ −1 the quotient wraps as `sdiv` does. -/
theorem divRem_eq_sdiv_srem (a b : Word32) :
    divRem a b = (if b = 0 then BitVec.allOnes 32 else a.sdiv b, if b = 0 then a else a.srem b) := by
  unfold divRem
  by_cases hb : b = 0
  · rw [if_pos hb, if_pos hb, if_pos hb]
    rfl
  · rw [if_neg hb, if_neg hb, if_neg hb, ofInt_tdiv, ofInt_tmod]
    by_cases ho : a = 0x8000_0000 ∧ b = 0xFFFF_FFFF
    · obtain ⟨rfl, rfl⟩ := ho
      rfl
    · rw [if_neg ho]

theorem divRemU_eq_div_mod (a b : Word32) :
    divRemU a b = (if b = 0 then BitVec.allOnes 32 else a / b, if b = 0 then a else a % b) := by
  unfold divRemU
  by_cases hb : b = 0
  · rw [if_pos hb, if_pos hb, if_pos hb]
    rfl
  · rw [if_neg hb, if_neg hb, if_neg hb, ← BitVec.toNat_udiv, ← BitVec.toNat_umod, BitVec.ofNat_toNat,
      BitVec.ofNat_toNat, BitVec.setWidth_eq, BitVec.setWidth_eq]

/-! ### Selection and counts (R122) -/

theorem sel_eq_ite_ne (a b c : Word32) : (if c = 0 then b else a) = if c ≠ 0 then a else b := (ite_not ..).symm

theorem getLsbD_of_log2_lt {w i : Nat} {a : BitVec w} (h : Nat.log2 a.toNat < i) : a.getLsbD i = false :=
  Nat.testBit_lt_two_pow (Nat.lt_of_lt_of_le Nat.lt_log2_self (Nat.pow_le_pow_right (by decide) h))

/-- The first one bit from the top is the one whose number is the logarithm. -/
theorem clz32_of_ne_zero {a : Word32} (ha : a ≠ 0) : clz32 a = 31 - Nat.log2 a.toNat := by
  have hn : a.toNat ≠ 0 := fun h => ha (BitVec.eq_of_toNat_eq h)
  have hlog : Nat.log2 a.toNat < 32 := (Nat.log2_lt hn).mpr a.isLt
  have hfind : (natRange 0 32).find? (fun i => a.getLsbD (31 - i)) = some (31 - Nat.log2 a.toNat) := by
    refine List.find?_range_eq_some (n := 32).mpr ⟨?_, List.mem_range.mpr (by omega), fun j hj => ?_⟩
    · rw [show 31 - (31 - Nat.log2 a.toNat) = Nat.log2 a.toNat by omega]
      exact Nat.testBit_log2 hn
    · rw [getLsbD_of_log2_lt (by omega), Bool.not_false]
  rw [clz32, hfind]

theorem ofNat_clz32 (a : Word32) :
    BitVec.ofNat 32 (clz32 a) = if a = 0 then 32 else BitVec.ofNat 32 (31 - Nat.log2 a.toNat) := by
  by_cases h : a = 0
  · rw [if_pos h, h]
    decide
  · rw [if_neg h, clz32_of_ne_zero h]

theorem popCount_eq_countP (a : Word32) : popCount a = (List.range 32).countP (fun i => a.getLsbD i) :=
  List.countP_eq_length_filter.symm

/-! ### What R122 and R123 give -/

theorem arithForm_computes {i : Instr} {F : LaneForm} (h : arithForm i = some F) : Computes i F := by
  cases i with
  | mul => exact computes_form2 h (fun _ => rfl) fun o => mul_eq_ofInt o.a o.b
  | mulhi => exact computes_form2 h (fun _ => rfl) fun o => mulHi_eq_ofInt_div o.a o.b
  | mulhiu => exact computes_form2 h (fun _ => rfl) fun o => mulHiU_eq_extract o.a o.b
  | mad => exact computes_form3 h (fun _ => rfl) fun o => mul_add_eq_ofInt o.a o.b o.c
  | div => exact computes_form2 h (fun _ => rfl) fun o => congrArg Prod.fst (divRem_eq_sdiv_srem o.a o.b)
  | divu => exact computes_form2 h (fun _ => rfl) fun o => congrArg Prod.fst (divRemU_eq_div_mod o.a o.b)
  | rem => exact computes_form2 h (fun _ => rfl) fun o => congrArg Prod.snd (divRem_eq_sdiv_srem o.a o.b)
  | remu => exact computes_form2 h (fun _ => rfl) fun o => congrArg Prod.snd (divRemU_eq_div_mod o.a o.b)
  | sel => exact computes_form3 h (fun _ => rfl) fun o => sel_eq_ite_ne o.a o.b o.c
  | clz => exact computes_form1 h (fun _ => rfl) fun o => ofNat_clz32 o.a
  | popc => exact computes_form1 h (fun _ => rfl) fun o => congrArg (BitVec.ofNat 32) (popCount_eq_countP o.a)
  | brev => exact computes_form1 h (fun _ => rfl) fun _ => rfl
  | _ => cases h

/-- Settles O14: each operation of the model is the one of its form (`arithForm_computes`). -/
theorem productAndCountResults : Obligations.ProductAndCountResults := fun _ _ h => arithForm_computes h

/-! ### Bit fields (R127) -/

theorem bfPos_eq_field (b : Word32) : bfPos b = (b.extractLsb' 0 5).toNat := (toNat_extract_zero b 5).symm

theorem bfLen_eq_field (b : Word32) : bfLen b = (b.extractLsb' 8 5).toNat := (toNat_extract b 8 5).symm

theorem bfLen_lt (b : Word32) : bfLen b < 32 := Nat.mod_lt _ (by decide)

/-- BFX is the sign extension of the field. -/
theorem bfx_eq_signExtend (a b : Word32) :
    bfx a b = (a.extractLsb' (bfPos b) (bfLen b)).signExtend 32 := by
  have hlt : bfField a b < 2 ^ bfLen b := Nat.mod_lt _ (Nat.two_pow_pos _)
  have hf : (a.extractLsb' (bfPos b) (bfLen b)).toNat = bfField a b := toNat_extract a _ _
  rw [BitVec.signExtend, BitVec.toInt_eq_toNat_cond, hf, bfx]
  cases hl : bfLen b with
  | zero =>
    have hzero : bfField a b = 0 := by
      rw [hl] at hlt
      omega
    rw [if_pos rfl, hzero]
    rfl
  | succ n =>
    rw [if_neg (Nat.succ_ne_zero n), Nat.add_sub_cancel]
    by_cases h : bfField a b < 2 ^ n
    · rw [if_pos h, if_pos (by omega), BitVec.ofInt_natCast]
    · rw [if_neg h, if_neg (by omega), Int.natCast_pow]
      rfl

/-- A word moved up until its bit n − 1 is the sign, and back down, is its low n bits sign-extended. -/
theorem sshiftRight_shiftLeft (x : Word32) {n : Nat} (hn : n < 32) :
    (x <<< (32 - n)).sshiftRight (32 - n) = (x.setWidth n).signExtend 32 := by
  have hup {j : Nat} (hj : j < n) : (x <<< (32 - n)).getLsbD (32 - n + j) = x.getLsbD j := by
    rw [BitVec.getLsbD_shiftLeft, decide_eq_true (by omega), decide_eq_false (by omega), Nat.add_sub_cancel_left]
    rfl
  have hlow {j : Nat} (hj : j < n) : (x.setWidth n).getLsbD j = x.getLsbD j := by
    rw [BitVec.getLsbD_setWidth, decide_eq_true hj, Bool.true_and]
  refine BitVec.eq_of_getLsbD_eq fun i hi => ?_
  rw [BitVec.getLsbD_sshiftRight, BitVec.getLsbD_signExtend, decide_eq_true hi, decide_eq_false (Nat.not_le.mpr hi)]
  by_cases h : i < n
  · rw [if_pos (by omega), if_pos h, hup h, hlow h]
    rfl
  · rw [if_neg (by omega), if_neg h, BitVec.msb_eq_getLsbD_last, BitVec.msb_eq_getLsbD_last]
    cases n with
    | zero =>
      rw [BitVec.getLsbD_shiftLeft, BitVec.getLsbD_setWidth]
      rfl
    | succ m =>
      rw [show 32 - 1 = 32 - (m + 1) + m by omega, hup (Nat.lt_succ_self m), Nat.add_sub_cancel,
        hlow (Nat.lt_succ_self m)]
      rfl

theorem bfx_eq_shifts (a b : Word32) :
    bfx a b =
      let up := 32 - (b.extractLsb' 8 5).toNat
      BitVec.sshiftRight ((a >>> (b.extractLsb' 0 5)) <<< up) up := by
  rw [bfx_eq_signExtend, BitVec.ushiftRight_eq', ← bfPos_eq_field, ← bfLen_eq_field,
    ← BitVec.setWidth_ushiftRight_eq_extractLsb, ← sshiftRight_shiftLeft _ (bfLen_lt b)]

/-! A mask of the low n bits, and a value moved up by n. -/

theorem getLsbD_lowMask {n i : Nat} (hi : i < 32) : (~~~(BitVec.allOnes 32 <<< n)).getLsbD i = decide (i < n) := by
  simp only [BitVec.getLsbD_not, BitVec.getLsbD_shiftLeft, BitVec.getLsbD_allOnes, hi, decide_true, Bool.true_and,
    show i - n < 32 by omega, Bool.and_true, Bool.not_not]

theorem ofNat_mod_two_pow (x : Word32) (n : Nat) :
    BitVec.ofNat 32 (x.toNat % 2 ^ n) = x &&& ~~~(BitVec.allOnes 32 <<< n) := by
  refine BitVec.eq_of_getLsbD_eq fun i hi => ?_
  rw [BitVec.getLsbD_and, getLsbD_lowMask hi, BitVec.getLsbD_ofNat, Nat.testBit_mod_two_pow, decide_eq_true hi,
    Bool.true_and, Bool.and_comm]
  rfl

theorem ofNat_two_pow_sub_one (n : Nat) : BitVec.ofNat 32 (2 ^ n - 1) = ~~~(BitVec.allOnes 32 <<< n) := by
  refine BitVec.eq_of_getLsbD_eq fun i hi => ?_
  rw [getLsbD_lowMask hi, BitVec.getLsbD_ofNat, Nat.testBit_two_pow_sub_one, decide_eq_true hi, Bool.true_and]

theorem ofNat_mul_two_pow (x n : Nat) : BitVec.ofNat 32 (x * 2 ^ n) = BitVec.ofNat 32 x <<< n := by
  refine BitVec.eq_of_toNat_eq ?_
  rw [BitVec.toNat_shiftLeft, BitVec.toNat_ofNat, BitVec.toNat_ofNat, Nat.shiftLeft_eq, Nat.mod_mul_mod]

theorem ofNat_bfField (a b : Word32) :
    BitVec.ofNat 32 (bfField a b) =
      (a >>> b.extractLsb' 0 5) &&& ~~~(BitVec.allOnes 32 <<< b.extractLsb' 8 5) := by
  rw [BitVec.ushiftRight_eq', BitVec.shiftLeft_eq', ← bfPos_eq_field, ← bfLen_eq_field, ← ofNat_mod_two_pow,
    BitVec.toNat_ushiftRight, Nat.shiftRight_eq_div_pow]
  rfl

theorem bfi_eq_masks (a b d : Word32) :
    bfi a b d =
      let mask := ~~~(BitVec.allOnes 32 <<< b.extractLsb' 8 5)
      (d &&& ~~~(mask <<< b.extractLsb' 0 5)) ||| ((a &&& mask) <<< b.extractLsb' 0 5) := by
  simp only [bfi, ofNat_mul_two_pow, ofNat_two_pow_sub_one, ofNat_mod_two_pow, bfPos_eq_field, bfLen_eq_field,
    BitVec.shiftLeft_eq']

/-! ### Byte selection (R128) -/

theorem toNat_append_byte {n : Nat} (x : BitVec n) (y : BitVec 8) : (x ++ y).toNat = x.toNat * 256 + y.toNat := by
  rw [BitVec.toNat_append, ← Nat.shiftLeft_add_eq_or_of_lt y.isLt, Nat.shiftLeft_eq]

theorem ofNat_bytes (b0 b1 b2 b3 : BitVec 8) :
    BitVec.ofNat 32 (b0.toNat * 256 ^ 0 + b1.toNat * 256 ^ 1 + b2.toNat * 256 ^ 2 + b3.toNat * 256 ^ 3) =
      b3 ++ b2 ++ b1 ++ b0 := by
  refine BitVec.eq_of_toNat_eq ?_
  rw [toNat_append_byte, toNat_append_byte, toNat_append_byte, BitVec.toNat_ofNat]
  omega

theorem toNat_pairByte (a b : Word32) {n : Nat} (hn : n < 8) :
    ((b ++ a).extractLsb' (8 * n) 8).toNat = if n < 4 then getByte a n else getByte b (n - 4) := by
  by_cases h : n < 4
  · rw [if_pos h, extract_low _ _ _ _ (by omega)]
    exact toNat_extract a (8 * n) 8
  · rw [if_neg h, extract_high _ _ _ _ (by omega), show 8 * n - 32 = 8 * (n - 4) by omega]
    exact toNat_extract b (8 * (n - 4)) 8

theorem getLsbD_last_eq_decide {w : Nat} (x : BitVec w) : x.getLsbD (w - 1) = decide (2 ^ (w - 1) ≤ x.toNat) := by
  rw [← BitVec.msb_eq_getLsbD_last, BitVec.msb_eq_decide]

/-- A sign byte, or the byte itself. -/
theorem toNat_ite_sign (p : Prop) [Decidable p] (v : BitVec 8) :
    (if p then (if v.getLsbD 7 then 0xFF else 0) else v : BitVec 8).toNat =
      if p then (if 128 ≤ v.toNat then 255 else 0) else v.toNat := by
  have hv : v.getLsbD 7 = decide (128 ≤ v.toNat) := getLsbD_last_eq_decide v
  simp only [hv, decide_eq_true_eq, apply_ite BitVec.toNat]
  rfl

theorem toNat_permuted (a b : Word32) (n : BitVec 4) : (permuted (b ++ a) n).toNat = prmbByte a b n.toNat := by
  have hsel : (n.extractLsb' 0 3).toNat = n.toNat % 8 := toNat_extract_zero n 3
  have hbit : n.getLsbD 3 = decide (8 ≤ n.toNat) := getLsbD_last_eq_decide n
  have hbyte := toNat_pairByte a b (Nat.mod_lt n.toNat (by decide : 0 < 8))
  simp only [permuted, prmbByte, hsel, hbit, decide_eq_true_eq, toNat_ite_sign, hbyte]

theorem prmbByte_nibble (a b c : Word32) (i : Nat) :
    prmbByte a b (c.toNat / 16 ^ i % 16) = (permuted (b ++ a) (c.extractLsb' (4 * i) 4)).toNat := by
  have hsel : (c.extractLsb' (4 * i) 4).toNat = c.toNat / 16 ^ i % 16 :=
    (toNat_extract c (4 * i) 4).trans (congrArg (c.toNat / · % 16) (Nat.pow_mul 2 4 i))
  rw [toNat_permuted, hsel]

theorem natRange_zero_four : natRange 0 4 = [0, 1, 2, 3] := rfl

theorem prmb_eq_permuted (a b c : Word32) :
    prmb a b c =
      permuted (b ++ a) (c.extractLsb' 12 4) ++ permuted (b ++ a) (c.extractLsb' 8 4) ++
        permuted (b ++ a) (c.extractLsb' 4 4) ++ permuted (b ++ a) (c.extractLsb' 0 4) := by
  rw [prmb, natRange_zero_four, List.foldl_cons, List.foldl_cons, List.foldl_cons, List.foldl_cons, List.foldl_nil,
    prmbByte_nibble, prmbByte_nibble, prmbByte_nibble, prmbByte_nibble, Nat.zero_add, ofNat_bytes]

/-! ### What R127 and R128 give -/

theorem fieldForm_computes {i : Instr} {F : LaneForm} (h : fieldForm i = some F) : Computes i F := by
  cases i with
  | bfx => exact computes_form2 h (fun _ => rfl) fun o => bfx_eq_shifts o.a o.b
  | bfxu => exact computes_form2 h (fun _ => rfl) fun o => ofNat_bfField o.a o.b
  | bfi => exact computes_implicit h (fun _ => rfl) fun o => bfi_eq_masks o.a o.b o.d
  | prmb => exact computes_form3 h (fun _ => rfl) fun o => prmb_eq_permuted o.a o.b o.c
  | _ => cases h

/-- Settles O15: each operation of the model is the one of its form (`fieldForm_computes`). -/
theorem fieldResults : Obligations.FieldResults := fun _ _ h => fieldForm_computes h

end Sys2Proof.Machine
end

section
/-! SUPPORT. The order of the numbers of a format with infinities (R63, R144, R145): a pattern's magnitude in units of
the smallest subnormal rises strictly, so that fpLt compares signed magnitudes, and patterns of one magnitude are
equal up to the sign. Then the statement about FMIN and FMAX. -/

namespace Sys2Proof.Machine

/-! ### Magnitudes of patterns -/

theorem Fmt.mag_lt_mag_succ (f : Fmt) (r : Nat) : f.mag r < f.mag (r + 1) := by
  have hP : 0 < 2 ^ f.fbits := Nat.two_pow_pos _
  unfold Fmt.mag
  generalize 2 ^ f.fbits = P at hP
  by_cases hsub : r + 1 < P
  · rw [if_pos (by omega), if_pos hsub]
    omega
  rw [if_neg hsub]
  by_cases hlast : r < P
  · rw [if_pos hlast]
    calc r < P := hlast
      _ ≤ P + (r + 1) % P := Nat.le_add_right _ _
      _ ≤ _ := Nat.le_mul_of_pos_right _ (Nat.two_pow_pos _)
  rw [if_neg hlast]
  have hquot : 1 ≤ r / P := (Nat.one_le_div_iff hP).mpr (Nat.le_of_not_lt hlast)
  by_cases hcarry : P ∣ r + 1
  · have hexp : (r + 1) / P - 1 = r / P - 1 + 1 := by rw [Nat.succ_div_of_dvd hcarry]; omega
    have hfrac : r % P < P := Nat.mod_lt r hP
    rw [Nat.mod_eq_zero_of_dvd hcarry, hexp, Nat.pow_succ, Nat.mul_comm _ 2, ← Nat.mul_assoc]
    exact Nat.mul_lt_mul_of_pos_right (by omega) (Nat.two_pow_pos _)
  · have hfrac : (r + 1) % P = r % P + 1 := by
      have hnext := Nat.div_add_mod (r + 1) P
      have hthis := Nat.div_add_mod r P
      rw [Nat.succ_div_of_not_dvd hcarry] at hnext
      omega
    rw [Nat.succ_div_of_not_dvd hcarry, hfrac]
    exact Nat.mul_lt_mul_of_pos_right (by omega) (Nat.two_pow_pos _)

theorem Fmt.mag_lt_mag (f : Fmt) {r t : Nat} (h : r < t) : f.mag r < f.mag t := by
  induction h with
  | refl => exact f.mag_lt_mag_succ r
  | step _ ih => exact Nat.lt_trans ih (f.mag_lt_mag_succ _)

theorem Fmt.mag_inj (f : Fmt) {r t : Nat} : f.mag r = f.mag t ↔ r = t := by
  refine ⟨fun h => ?_, congrArg f.mag⟩
  rcases Nat.lt_trichotomy r t with hlt | heq | hgt
  · exact absurd h (Nat.ne_of_lt (f.mag_lt_mag hlt))
  · exact heq
  · exact absurd h.symm (Nat.ne_of_lt (f.mag_lt_mag hgt))

/-! ### What a pattern decodes to -/

section
variable {f : Fmt} {w : Nat}

/-- A pattern without its sign. -/
def Fmt.absBits (f : Fmt) (w : Nat) : Nat := w % 2 ^ (f.fbits + f.ebits)

/-- The sign of a pattern. -/
def Fmt.isNeg (f : Fmt) (w : Nat) : Bool := w / 2 ^ (f.fbits + f.ebits) % 2 == 1

theorem Fmt.absBits_mod (f : Fmt) (w : Nat) : f.absBits w % 2 ^ f.fbits = w % 2 ^ f.fbits := by
  rw [absBits, Nat.pow_add, Nat.mod_mul_right_mod]

theorem Fmt.absBits_div (f : Fmt) (w : Nat) : f.absBits w / 2 ^ f.fbits = w / 2 ^ f.fbits % 2 ^ f.ebits := by
  rw [absBits, Nat.pow_add, Nat.mod_mul_right_div_self]

theorem Fmt.decode_of_inf_lt (hf : f.hasInf = true) (h : f.infBits < f.absBits w) : f.decode w = .nan := by
  have hlt : f.absBits w / 2 ^ f.fbits < 2 ^ f.ebits := by
    rw [f.absBits_div]
    exact Nat.mod_lt _ (Nat.two_pow_pos _)
  have hle : 2 ^ f.ebits - 1 ≤ f.absBits w / 2 ^ f.fbits :=
    (Nat.le_div_iff_mul_le (Nat.two_pow_pos _)).mpr (Nat.le_of_lt h)
  have hex : f.absBits w / 2 ^ f.fbits = 2 ^ f.ebits - 1 := by omega
  have hfrac : f.absBits w % 2 ^ f.fbits ≠ 0 := fun hzero => by
    have hsum := Nat.div_add_mod (f.absBits w) (2 ^ f.fbits)
    rw [hex, hzero, Nat.mul_comm] at hsum
    exact Nat.ne_of_lt h hsum
  rw [f.absBits_div] at hex
  rw [f.absBits_mod] at hfrac
  simp only [decode, hex, hfrac, hf, and_self, if_true, if_false]

theorem Fmt.decode_of_eq_inf (hf : f.hasInf = true) (h : f.absBits w = f.infBits) :
    f.decode w = .inf (f.isNeg w) := by
  have hfrac : w % 2 ^ f.fbits = 0 := by rw [← f.absBits_mod, h, infBits, Nat.mul_mod_left]
  have hex : w / 2 ^ f.fbits % 2 ^ f.ebits = 2 ^ f.ebits - 1 := by
    rw [← f.absBits_div, h, infBits, Nat.mul_div_left _ (Nat.two_pow_pos _)]
  simp only [decode, hfrac, hex, hf, and_self, if_true]
  rfl

theorem Fmt.decode_of_lt_inf (h : f.absBits w < f.infBits) :
    ∃ m k : Nat, f.decode w = .fin (f.isNeg w) m (f.emin + k) ∧ m * 2 ^ k = f.mag (f.absBits w) := by
  have hex : w / 2 ^ f.fbits % 2 ^ f.ebits < 2 ^ f.ebits - 1 := by
    rw [← f.absBits_div]
    exact Nat.div_lt_of_lt_mul (by rwa [Nat.mul_comm])
  have hdec : f.decode w = if w / 2 ^ f.fbits % 2 ^ f.ebits = 0 then .fin (f.isNeg w) (w % 2 ^ f.fbits) f.emin
      else .fin (f.isNeg w) (2 ^ f.fbits + w % 2 ^ f.fbits) (f.emin + (w / 2 ^ f.fbits % 2 ^ f.ebits : Nat) - 1) := by
    simp only [decode, Nat.ne_of_lt hex, false_and, if_false]
    rfl
  rw [hdec, ← f.absBits_div, ← f.absBits_mod, mag]
  by_cases hsub : f.absBits w < 2 ^ f.fbits
  · refine ⟨f.absBits w, 0, ?_, ?_⟩
    · rw [if_pos (Nat.div_eq_of_lt hsub), Nat.mod_eq_of_lt hsub, Int.natCast_zero, Int.add_zero]
    · rw [if_pos hsub, Nat.pow_zero, Nat.mul_one]
  · have hpos : 0 < f.absBits w / 2 ^ f.fbits := Nat.div_pos (Nat.le_of_not_lt hsub) (Nat.two_pow_pos _)
    refine ⟨_, f.absBits w / 2 ^ f.fbits - 1, ?_, (if_neg hsub).symm⟩
    rw [if_neg (Nat.ne_of_gt hpos), Int.natCast_sub hpos, Int.natCast_one, Int.add_sub_assoc]

end

/-! ### Comparison -/

/-- A signed magnitude. -/
def withSign (neg : Bool) (v : Nat) : Int := if neg then -(v : Int) else v

@[simp] theorem withSign_true (v : Nat) : withSign true v = -(v : Int) := rfl

@[simp] theorem withSign_false (v : Nat) : withSign false v = v := rfl

theorem sumAt_fin (s : Bool) {m i k : Nat} (u : Int) (h : m = 0 ∨ i ≤ k) :
    sumAt (u + i) [.fin s m (u + k)] * 2 ^ i = withSign s (m * 2 ^ k) := by
  rcases Nat.eq_zero_or_pos m with rfl | hm
  · simp only [sumAt, if_true, Nat.zero_mul, Int.zero_mul, Int.add_zero]
    cases s <;> rfl
  obtain ⟨d, rfl⟩ := Nat.exists_eq_add_of_le (h.resolve_left (Nat.ne_of_gt hm))
  have hd : u + ((i + d : Nat) : Int) - (u + i) = Int.ofNat d := by simp only [Int.ofNat_eq_natCast]; omega
  have hshift : ((shiftInt m (.ofNat d) : Nat) : Int) * 2 ^ i = ((m * 2 ^ (i + d) : Nat) : Int) := by
    have hpow : (2 : Int) ^ i = ((2 ^ i : Nat) : Int) := (Int.natCast_pow 2 i).symm
    rw [hpow, ← Int.natCast_mul, shiftInt, Nat.mul_assoc, ← Nat.pow_add, Nat.add_comm d i]
  simp only [sumAt, hd, Nat.ne_of_gt hm, if_false, Int.add_zero, withSign, ← hshift]
  cases s
  · rfl
  · exact Int.neg_mul _ _

/-- The least exponent of two finite values lies above a common bound, and not above either that is not zero. -/
theorem minExp_fin_fin (s t : Bool) (m j n k : Nat) {u : Int} (hu : u ≤ 4096) :
    ∃ i : Nat, minExp [.fin s m (u + j), .fin t n (u + k)] 4096 = u + i ∧ (m = 0 ∨ i ≤ j) ∧ (n = 0 ∨ i ≤ k) := by
  refine ⟨(minExp [.fin s m (u + j), .fin t n (u + k)] 4096 - u).toNat, ?_⟩
  simp only [minExp]
  split <;> split <;> omega

theorem fpLt_fin_fin (s t : Bool) (m j n k : Nat) {u : Int} (hu : u ≤ 4096) :
    fpLt (.fin s m (u + j)) (.fin t n (u + k)) = decide (withSign s (m * 2 ^ j) < withSign t (n * 2 ^ k)) := by
  obtain ⟨i, hexp, hm, hn⟩ := minExp_fin_fin s t m j n k hu
  simp only [fpLt]
  rw [hexp, ← sumAt_fin s u hm, ← sumAt_fin t u hn]
  exact decide_eq_decide.mpr (Int.mul_lt_mul_right (Int.pow_pos (by decide))).symm

/-- A larger magnitude on the left lies below just if it is negative. -/
theorem withSign_lt_iff_of_gt (s t : Bool) {v M : Nat} (h : v < M) :
    withSign s M < withSign t v ↔ s = true := by
  cases s <;> cases t <;> simp only [withSign_true, withSign_false, reduceCtorEq, iff_true, iff_false] <;> omega

/-- A larger magnitude on the right lies above just if it is positive. -/
theorem withSign_lt_iff_of_lt (s t : Bool) {v M : Nat} (h : v < M) :
    withSign t v < withSign s M ↔ s = false := by
  cases s <;> cases t <;> simp only [withSign_true, withSign_false, reduceCtorEq, iff_true, iff_false] <;> omega

/-- Of two equal magnitudes, only a negative one lies below a positive one. -/
theorem withSign_lt_iff_of_pos (s t : Bool) {M : Nat} (h : 0 < M) :
    withSign s M < withSign t M ↔ s = true ∧ t = false := by
  cases s <;> cases t <;>
    simp only [withSign_true, withSign_false, reduceCtorEq, and_true, and_false, iff_true, iff_false] <;> omega

theorem withSign_eq_iff (s t : Bool) (m n : Nat) :
    withSign s m = withSign t n ↔ m = n ∧ (s = t ∨ m = 0) := by
  cases s <;> cases t <;>
    simp only [withSign_true, withSign_false, reduceCtorEq, true_or, false_or, and_true] <;> omega

/-- A pattern's magnitude under its sign: the order of R144, with the infinities beyond the finite values. -/
def Fmt.rank (f : Fmt) (w : Nat) : Int := withSign (f.isNeg w) (f.mag (f.absBits w))

theorem Fmt.isNan_decode {f : Fmt} (hf : f.hasInf = true) (w : Nat) :
    (f.decode w).isNan = decide (f.infBits < f.absBits w) := by
  rcases Nat.lt_trichotomy (f.absBits w) f.infBits with h | h | h
  · obtain ⟨m, k, hdec, -⟩ := decode_of_lt_inf h
    rw [hdec, decide_eq_false (Nat.lt_asymm h)]
    rfl
  · rw [decode_of_eq_inf hf h, decide_eq_false (by omega)]
    rfl
  · rw [decode_of_inf_lt hf h, decide_eq_true h]
    rfl

theorem fpLt_decode {f : Fmt} (hf : f.hasInf = true) (hmin : f.emin ≤ 4096) (hinf : 0 < f.infBits) {a b : Nat}
    (ha : (f.decode a).isNan = false) (hb : (f.decode b).isNan = false) :
    fpLt (f.decode a) (f.decode b) = decide (f.rank a < f.rank b) := by
  rw [f.isNan_decode hf, decide_eq_false_iff_not, Nat.not_lt] at ha hb
  rw [Bool.eq_iff_iff, decide_eq_true_iff]
  unfold Fmt.rank
  rcases Nat.lt_or_eq_of_le ha with ha | ha <;> rcases Nat.lt_or_eq_of_le hb with hb | hb
  · obtain ⟨m, j, hda, hma⟩ := Fmt.decode_of_lt_inf ha
    obtain ⟨n, k, hdb, hmb⟩ := Fmt.decode_of_lt_inf hb
    rw [hda, hdb, ← hma, ← hmb, fpLt_fin_fin _ _ _ _ _ _ hmin, decide_eq_true_iff]
  · obtain ⟨m, j, hda, -⟩ := Fmt.decode_of_lt_inf ha
    rw [hda, Fmt.decode_of_eq_inf hf hb, hb, withSign_lt_iff_of_lt _ _ (f.mag_lt_mag ha)]
    simp only [fpLt, Bool.not_eq_true']
  · obtain ⟨n, k, hdb, -⟩ := Fmt.decode_of_lt_inf hb
    rw [hdb, Fmt.decode_of_eq_inf hf ha, ha, withSign_lt_iff_of_gt _ _ (f.mag_lt_mag hb)]
    rfl
  · have hpos : 0 < f.mag f.infBits := Nat.zero_lt_of_lt (f.mag_lt_mag hinf)
    rw [Fmt.decode_of_eq_inf hf ha, Fmt.decode_of_eq_inf hf hb, ha, hb, withSign_lt_iff_of_pos _ _ hpos]
    simp only [fpLt, Bool.and_eq_true, Bool.not_eq_true']

/-- Only the zeros have one rank and two signs. -/
theorem Fmt.rank_eq_iff (f : Fmt) (a b : Nat) :
    f.rank a = f.rank b ↔ f.absBits a = f.absBits b ∧ (f.isNeg a = f.isNeg b ∨ f.absBits a = 0) := by
  have hzero : f.mag 0 = 0 := if_pos (Nat.two_pow_pos _)
  have hmag : f.mag (f.absBits a) = 0 ↔ f.absBits a = 0 := by
    rw [← f.mag_inj (r := f.absBits a) (t := 0), hzero]
  rw [rank, rank, withSign_eq_iff, f.mag_inj, hmag]

/-! ### FP32 patterns -/

theorem isNeg_fp32 (w : Word32) : fp32.isNeg w.toNat = w.getLsbD 31 := by
  rw [getLsbD_last_eq_decide w, Fmt.isNeg]
  have hw : w.toNat < 2 ^ 32 := w.isLt
  have hbit : w.toNat / 2 ^ 31 % 2 = 1 ↔ 2 ^ 31 ≤ w.toNat := by omega
  exact decide_eq_decide.mpr hbit

theorem eq_of_absBits_fp32 {a b : Word32} (habs : fp32.absBits a.toNat = fp32.absBits b.toNat)
    (hsign : a.getLsbD 31 = b.getLsbD 31) : a = b := by
  rw [getLsbD_last_eq_decide a, getLsbD_last_eq_decide b, decide_eq_decide] at hsign
  have ha : a.toNat < 2 ^ 32 := a.isLt
  have hb : b.toNat < 2 ^ 32 := b.isLt
  simp only [Fmt.absBits, fp32] at habs
  exact BitVec.eq_of_toNat_eq (by omega)

theorem eq_zero_of_absBits_fp32 {w : Word32} (h : fp32.absBits w.toNat = 0) :
    w = if w.getLsbD 31 then 0x80000000 else 0 := by
  cases hsign : w.getLsbD 31 <;> exact eq_of_absBits_fp32 h hsign

theorem fpLt_f32 {a b : Word32} (ha : (f32 a).isNan = false) (hb : (f32 b).isNan = false) :
    fpLt (f32 a) (f32 b) = decide (fp32.rank a.toNat < fp32.rank b.toNat) :=
  fpLt_decode rfl (by decide) (by decide) ha hb

theorem fpLt_f32_asymm {a b : Word32} (ha : (f32 a).isNan = false) (hb : (f32 b).isNan = false)
    (h : fpLt (f32 b) (f32 a) = true) : fpLt (f32 a) (f32 b) = false := by
  rw [fpLt_f32 hb ha, decide_eq_true_eq] at h
  rw [fpLt_f32 ha hb, decide_eq_false_iff_not]
  exact Int.lt_asymm h

/-- Numbers of which neither is below the other have one magnitude, and one sign unless they are zeros. -/
theorem absBits_eq_of_not_fpLt {a b : Word32} (ha : (f32 a).isNan = false) (hb : (f32 b).isNan = false)
    (hab : fpLt (f32 a) (f32 b) = false) (hba : fpLt (f32 b) (f32 a) = false) :
    fp32.absBits a.toNat = fp32.absBits b.toNat ∧
      (a.getLsbD 31 = b.getLsbD 31 ∨ fp32.absBits a.toNat = 0) := by
  rw [fpLt_f32 ha hb, decide_eq_false_iff_not, Int.not_lt] at hab
  rw [fpLt_f32 hb ha, decide_eq_false_iff_not, Int.not_lt] at hba
  rw [← isNeg_fp32, ← isNeg_fp32]
  exact (fp32.rank_eq_iff _ _).mp (Int.le_antisymm hba hab)

theorem eq_of_not_fpLt {a b : Word32} (ha : (f32 a).isNan = false) (hb : (f32 b).isNan = false)
    (hab : fpLt (f32 a) (f32 b) = false) (hba : fpLt (f32 b) (f32 a) = false)
    (hsign : a.getLsbD 31 = b.getLsbD 31) : a = b :=
  eq_of_absBits_fp32 (absBits_eq_of_not_fpLt ha hb hab hba).1 hsign

theorem zeros_of_not_fpLt {a b : Word32} (ha : (f32 a).isNan = false) (hb : (f32 b).isNan = false)
    (hab : fpLt (f32 a) (f32 b) = false) (hba : fpLt (f32 b) (f32 a) = false)
    (hsign : a.getLsbD 31 ≠ b.getLsbD 31) : a = 0 ∧ b = 0x80000000 ∨ a = 0x80000000 ∧ b = 0 := by
  obtain ⟨habs, hzero⟩ := absBits_eq_of_not_fpLt ha hb hab hba
  have ha0 := hzero.resolve_left hsign
  rw [eq_zero_of_absBits_fp32 ha0, eq_zero_of_absBits_fp32 (habs.symm.trans ha0)]
  cases hsa : a.getLsbD 31 <;> cases hsb : b.getLsbD 31
  · exact absurd (hsa.trans hsb.symm) hsign
  · exact .inl ⟨rfl, rfl⟩
  · exact .inr ⟨rfl, rfl⟩
  · exact absurd (hsa.trans hsb.symm) hsign

/-! ### FMIN and FMAX (R144) -/

/-- FMIN and FMAX at once: `max_` chooses FMAX. -/
def fMinMax (max_ : Bool) (a b : Word32) : Word32 := BitVec.ofNat 32 (minMax fp32 max_ a.toNat b.toNat)

theorem fMinMax_false (a b : Word32) : fMinMax false a b = fMin a b := rfl

theorem fMinMax_true (a b : Word32) : fMinMax true a b = fMax a b := rfl

/-- The branches of R144's table, on words. -/
theorem fMinMax_eq (max_ : Bool) (a b : Word32) :
    fMinMax max_ a b =
      if (f32 a).isNan then if (f32 b).isNan then 0x7FC00000 else b
      else if (f32 b).isNan then a
      else if fpLt (f32 a) (f32 b) then if max_ then b else a
      else if fpLt (f32 b) (f32 a) then if max_ then a else b
      else if (f32 a).isZero true then if max_ then b else a
      else if (f32 b).isZero true then if max_ then a else b
      else a := by
  simp only [fMinMax, minMax, apply_ite (BitVec.ofNat 32), BitVec.ofNat_toNat, BitVec.setWidth_eq]
  rfl

section
variable (max_ : Bool) {a b : Word32}

theorem fMinMax_of_nans (ha : (f32 a).isNan = true) (hb : (f32 b).isNan = true) :
    fMinMax max_ a b = 0x7FC00000 := by
  rw [fMinMax_eq, if_pos ha, if_pos hb]

theorem fMinMax_of_nan_left (ha : (f32 a).isNan = true) (hb : (f32 b).isNan = false) : fMinMax max_ a b = b := by
  rw [fMinMax_eq, if_pos ha, hb, if_neg Bool.false_ne_true]

theorem fMinMax_of_nan_right (ha : (f32 a).isNan = false) (hb : (f32 b).isNan = true) : fMinMax max_ a b = a := by
  rw [fMinMax_eq, ha, if_neg Bool.false_ne_true, if_pos hb]

variable (ha : (f32 a).isNan = false) (hb : (f32 b).isNan = false)
include ha hb

theorem fMinMax_of_lt (h : fpLt (f32 a) (f32 b) = true) : fMinMax max_ a b = if max_ then b else a := by
  simp only [fMinMax_eq, ha, hb, h, Bool.false_eq_true, if_true, if_false]

theorem fMinMax_of_gt (h : fpLt (f32 b) (f32 a) = true) : fMinMax max_ a b = if max_ then a else b := by
  simp only [fMinMax_eq, ha, hb, h, fpLt_f32_asymm ha hb h, Bool.false_eq_true, if_true, if_false]

end

theorem fMinMax_self (max_ : Bool) {a : Word32} (ha : (f32 a).isNan = false) : fMinMax max_ a a = a := by
  simp only [fMinMax_eq, ha, Bool.false_eq_true, if_false, ite_self]

theorem fMin_fMax_of_zeros {a b : Word32} (h : a = 0 ∧ b = 0x80000000 ∨ a = 0x80000000 ∧ b = 0) :
    fMin a b = 0x80000000 ∧ fMax a b = 0 := by
  obtain ⟨rfl, rfl⟩ | ⟨rfl, rfl⟩ := h <;> decide

/-- Settles O20, by the order of the patterns' ranks: numbers of which neither is the smaller are one pattern or the two
zeros. -/
theorem minMaxReturnAnOperand : Obligations.MinMaxReturnAnOperand := by
  unfold Obligations.MinMaxReturnAnOperand
  intro a b
  dsimp only
  refine ⟨fun ha hb => ?bothNan, fun ha hb => ?leftNan, fun ha hb => ?rightNan, fun ha hb =>
    ⟨fun hlt => ?less, fun hgt => ?greater, fun hab hba => ⟨fMin_fMax_of_zeros, fun hsign => ?equal, ?zeros⟩⟩,
    fun _ _ _ _ => ⟨rfl, rfl⟩⟩
  case bothNan => exact ⟨fMinMax_of_nans false ha hb, fMinMax_of_nans true ha hb⟩
  case leftNan => exact ⟨fMinMax_of_nan_left false ha hb, fMinMax_of_nan_left true ha hb⟩
  case rightNan => exact ⟨fMinMax_of_nan_right false ha hb, fMinMax_of_nan_right true ha hb⟩
  case less => exact ⟨fMinMax_of_lt false ha hb hlt, fMinMax_of_lt true ha hb hlt⟩
  case greater => exact ⟨fMinMax_of_gt false ha hb hgt, fMinMax_of_gt true ha hb hgt⟩
  case equal =>
    obtain rfl := eq_of_not_fpLt ha hb hab hba hsign
    exact ⟨rfl, fMinMax_self false ha, fMinMax_self true ha⟩
  case zeros => exact zeros_of_not_fpLt ha hb hab hba

end Sys2Proof.Machine
end

section
/-! SUPPORT. Uniform words (R44, R45, R202): a word whose registers pass its checks runs once for its arrival set, and
beyond its own effect only its members, the cycle under way and what a report changes differ after it. Then the
statement about what the uniform arithmetic (R204, R205) writes. -/

namespace Sys2Proof.Machine

/-! ### The members of an arrival set -/

theorem modThread_rest (s : State) (k : Nat) (f : Thread → Thread) :
    s.modThread k f = { s with threads := (s.modThread k f).threads } := by
  unfold State.modThread
  split <;> rfl

theorem modThreads_rest (s : State) (ks : List Nat) (f : Thread → Thread) :
    s.modThreads ks f = { s with threads := (s.modThreads ks f).threads } := by
  induction ks generalizing s with
  | nil => rfl
  | cons k ks ih =>
    rw [State.modThreads, ih, modThread_rest]

theorem find_modThreads (s : State) {ks : List Nat} (f : Thread → Thread) (hks : ks.Nodup) (j : Nat) :
    (s.modThreads ks f).threads.find j = if j ∈ ks then (s.threads.find j).map f else s.threads.find j := by
  induction ks generalizing s with
  | nil => rfl
  | cons k ks ih =>
    obtain ⟨hk, hrest⟩ := List.nodup_cons.mp hks
    rw [State.modThreads, ih _ hrest, State.threads_modThread]
    by_cases hj : j = k
    · subst hj
      simp [hk]
    · simp [hj]

/-! ### The report of a partial arrival set (R45, R352) -/

theorem partialReport_rest (s : State) (u : Issue) : s.partialReport u = s.notes (s.partialReport u) := by
  unfold State.partialReport
  dsimp only
  split
  · exact hazard_rest _ _ _ _ _ _
  · rfl

theorem partialReport_off (s : State) (u : Issue) (h : s.dbgOn = false) : s.partialReport u = s := by
  simp [State.partialReport, State.hazard, h]

/-! ### A word that runs -/

theorem applyUni_run (s s' : State) (u : Issue) (pc : Word64) :
    applyUni s u (.run s' pc) = { s'.notes (applyUni s u (.run s' pc)) with
      threads := (s'.modThreads u.lanes (·.goto pc)).threads
      cyc := s'.cyc.map (fun c => c.finish u u.lanes 0) } := by
  simp only [applyUni, State.finishUni, State.finishAs]
  rw [modCyc_rest, State.cyc_modCyc, partialReport_rest, modThreads_rest]
  rfl

theorem applyUni_run_quiet (s s' : State) (u : Issue) (pc : Word64) (h : s'.dbgOn = false) :
    (applyUni s u (.run s' pc)).desk = s'.desk ∧ (applyUni s u (.run s' pc)).io = s'.io ∧
      (applyUni s u (.run s' pc)).freeCtr = s'.freeCtr := by
  have hoff : (s'.modThreads u.lanes (·.goto pc)).dbgOn = false := by
    rw [modThreads_rest]
    exact h
  simp only [applyUni, State.finishUni, State.finishAs]
  rw [partialReport_off _ _ hoff, modCyc_rest, modThreads_rest]
  exact ⟨rfl, rfl, rfl⟩

theorem applyUni_setGroup_ran (s : State) (u : Issue) (pc : Word64) (g' : Group) (hu : u.lanes.Nodup) :
    UniRan s u pc g' (applyUni s u (.run (s.setGroup u.group g') pc)) := by
  have heq := applyUni_run s (s.setGroup u.group g') u pc
  have hquiet := applyUni_run_quiet s (s.setGroup u.group g') u pc
  generalize applyUni s u (.run (s.setGroup u.group g') pc) = t at heq hquiet
  have hthreads (k : Nat) : t.threads.find k =
      if k ∈ u.lanes then (s.threads.find k).map (·.goto pc) else s.threads.find k := by
    rw [heq]
    exact find_modThreads _ _ hu k
  have hgroups : t.groups = (s.setGroup u.group g').groups := by rw [heq]; rfl
  exact {
    members := ⟨fun k hk th hth => ⟨th.goto pc, by rw [hthreads, if_pos hk, hth, Option.map_some], rfl⟩,
      fun k hk => by rw [hthreads, if_neg hk]⟩
    group := by rw [hgroups, State.groups_setGroup, if_pos rfl]
    others := fun j hj => by rw [hgroups, State.groups_setGroup, if_neg hj]
    rest := by rw [heq]; rfl
    quiet := hquiet
    cycle := by rw [heq]; rfl }

/-! ### The checks -/

/-- Registers that pass the checks stop nothing (R29, R46, R49, R51). -/
theorem uniGate_of_uniPass {u : Issue} {g : Group} {b : Block} {srcs dsts : List Nat} (hport : u.port = 2)
    (hp : UniPass g b srcs dsts) : uniGate u g b.packet.uregs srcs dsts false = none := by
  have hmem : ∀ r ∈ srcs ++ dsts.filter (· != 0), r ∈ srcs ++ dsts :=
    (List.filter_sublist.append_left srcs).subset
  have hinside : ∀ r ∈ srcs ++ dsts.filter (· != 0), r < b.packet.uregs := fun r hr => by
    by_cases h0 : r = 0
    · subst h0
      exact hp.zero (by simpa using hr)
    · exact hp.inside r (hmem r hr) h0
  have hfull : ∀ r ∈ srcs ++ dsts.filter (· != 0), (g.sreg r).full = true := fun r hr => by
    by_cases h0 : r = 0
    · subst h0
      rfl
    · exact hp.full r (hmem r hr) h0
  have hbad : (srcs ++ dsts.filter (· != 0)).any (fun r => decide (b.packet.uregs ≤ r)) = false :=
    List.any_eq_false.mpr fun r hr => by simpa using hinside r hr
  have hempty : (dsts.filter (· != 0) ++ srcs).any (fun r => !(g.sreg r).full) = false :=
    List.any_eq_false.mpr fun r hr => by simpa using hfull r (List.mem_append.mpr (List.mem_append.mp hr).symm)
  have hpoison : srcs.any (fun r => (g.sreg r).poison) = false :=
    List.any_eq_false.mpr fun r hr => by simpa using hp.clean r hr
  simp [uniGate, hport, hbad, hempty, hpoison, -List.any_append, -List.any_filter]

/-- A uniform word whose registers pass takes its own effect. -/
theorem uniUnit_of_uniPass {s : State} {u : Issue} {g : Group} {b : Block} {srcs dsts : List Nat}
    {bad : Block → Bool} (act : Issue → Nat → Group → UniRes) (hs : StartsUni s u g b)
    (hp : UniPass g b srcs dsts) (hbad : bad b = false) :
    uniUnit s srcs dsts bad act = applyUni s u (act u u.group g) := by
  simp only [uniUnit, hs.head, hs.group, hs.block, hbad, uniGate_of_uniPass hs.port hp]

/-! ### Writing a uniform register -/

theorem sreg_setSreg (g : Group) (i : Nat) (x : Reg) (r : Nat) :
    (g.setSreg i x).sreg r = if r = i ∧ r ≠ 0 then x else g.sreg r := by
  by_cases hi : i = 0
  · rw [Group.setSreg, if_pos hi, if_neg (by omega)]
  · by_cases hr : r = i
    · subst hr
      simp [Group.setSreg, Group.sreg, hi]
    · simp [Group.setSreg, Group.sreg, hi, hr, NMap.getD_put_other _ _ _ _ hr]

theorem wroteS_setSreg (g : Group) (i : Nat) (v : Word32) : WroteS i v g (g.setSreg i (Reg.ofVal v)) := by
  refine ⟨fun r => sreg_setSreg g i _ r, ?_⟩
  unfold Group.setSreg
  split <;> rfl

/-- The instruction writes sd with the value of the form, once for an arrival set whose registers pass the checks. -/
def UniComputes (i : Instr) (srcs : List Nat) (sd : BitVec 8) (f : Group → Word32) : Prop :=
  ∀ (s : State) (u : Issue) (g : Group) (b : Block), StartsUni s u g b → UniPass g b srcs [sd.toNat] →
    ∃ t g', exec i s = .next t ∧ UniRan s u u.next g' t ∧ WroteS sd.toNat (f g) g g'

theorem uniComputes_of_uniWrite {i : Instr} {srcs srcs' : List Nat} {sd sd' : BitVec 8} {f f' v : Group → Word32}
    (hF : some (srcs', sd', f') = some (srcs, sd, f)) (hexec : ∀ s, exec i s = .next (uniWrite s srcs' sd' v))
    (hval : ∀ g, v g = f' g) : UniComputes i srcs sd f := by
  cases hF
  obtain rfl : v = f := funext hval
  intro s u g b hs hp
  refine ⟨_, g.setSreg sd.toNat (Reg.ofVal (v g)), hexec s, ?_, wroteS_setSreg g sd.toNat (v g)⟩
  rw [uniWrite, uniUnit_of_uniPass _ hs hp rfl]
  exact applyUni_setGroup_ran s u u.next _ hs.once

/-! ### What R204 and R205 give -/

theorem ushiValue_eq (kind : BitVec 2) (v : Word32) (n : BitVec 5) :
    ushiValue kind.toNat v n.toNat =
      if kind = 0 then v <<< n
      else if kind = 1 then v >>> n
      else if kind = 2 then BitVec.sshiftRight' v n
      else (v ++ v).extractLsb' n.toNat 32 := by
  obtain rfl | rfl | rfl | rfl : kind = 0 ∨ kind = 1 ∨ kind = 2 ∨ kind = 3 := by
    revert kind
    decide
  · exact shl32_immediate v n
  · exact shr32_immediate v n
  · exact sar32_immediate v n
  · exact ror32_immediate v n

theorem uniForm_computes {i : Instr} {srcs : List Nat} {sd : BitVec 8} {f : Group → Word32}
    (h : uniForm i = some (srcs, sd, f)) : UniComputes i srcs sd f := by
  cases i with
  | uadd => exact uniComputes_of_uniWrite h (fun _ => rfl) fun _ => rfl
  | usub => exact uniComputes_of_uniWrite h (fun _ => rfl) fun _ => rfl
  | uand => exact uniComputes_of_uniWrite h (fun _ => rfl) fun _ => rfl
  | uor => exact uniComputes_of_uniWrite h (fun _ => rfl) fun _ => rfl
  | uxor => exact uniComputes_of_uniWrite h (fun _ => rfl) fun _ => rfl
  | umul _ _ sa sb => exact uniComputes_of_uniWrite h (fun _ => rfl) fun g => mul_eq_ofInt (g.val sa) (g.val sb)
  | umin _ _ sa sb => exact uniComputes_of_uniWrite h (fun _ => rfl) fun g => sMin_eq_ite_le (g.val sa) (g.val sb)
  | umax _ _ sa sb => exact uniComputes_of_uniWrite h (fun _ => rfl) fun g => sMax_eq_ite_le (g.val sa) (g.val sb)
  | uaddi => exact uniComputes_of_uniWrite h (fun _ => rfl) fun _ => rfl
  | ushi _ _ sa kind n => exact uniComputes_of_uniWrite h (fun _ => rfl) fun g => ushiValue_eq kind (g.val sa) n
  | umovi => exact uniComputes_of_uniWrite h (fun _ => rfl) fun _ => rfl
  | umovh => exact uniComputes_of_uniWrite h (fun _ => rfl) fun _ => rfl
  | _ => cases h

/-- Settles O39: each operation of the model is the one of its form (`uniForm_computes`). -/
theorem uniformResults : Obligations.UniformResults := fun _ _ _ _ h => uniForm_computes h

end Sys2Proof.Machine
end

section
/-! SUPPORT. Host writes through BAR2 (R345): what `State.hostMay` admits, where the two halves of a permitted 64-bit
register lie, and that a permitted write works alike for every requester. Then the statement about them. -/

namespace Sys2Proof.Machine

/-! ### The permitted registers (R345) -/

theorem hostMay_iff (s : State) (n : RegName) :
    s.hostMay n = true ↔ n = .pwrlim ∨ (∃ c, n = .rdgrant c ∨ n = .classpol c) ∨
      (s.dbgOn = true ∧ ((∃ c, n = .dbgctl c ∨ n = .dbgsel c) ∨
        ∃ c i, n = .cmpAddr c i ∨ n = .cmpCtl c i ∨ n = .rngBase c i ∨ n = .rngLim c i ∨ ∃ k, n = .lcr c i k)) := by
  cases n <;> simp [State.hostMay, RegName.debug]

/-- The CORE debug, range and counter registers of 64 bits (R349, R351). -/
def RegName.Debug64 (n : RegName) : Prop :=
  ∃ c i, n = .cmpAddr c i ∨ n = .rngBase c i ∨ n = .rngLim c i ∨ ∃ k, n = .lcr c i k

/-! ### Where the permitted 64-bit registers lie (R22) -/

/-- A register found in a part of the window has 32 bits where the host may write it. -/
def HostNarrow (s : State) (x : Option RegRef) : Prop :=
  ∀ r, x = some r → s.hostMay r.name = true → r.wide = false

section
variable {s : State}

@[simp] theorem hostNarrow_none : HostNarrow s none := nofun

@[simp] theorem hostNarrow_narrow (n : RegName) : HostNarrow s (narrow n) := by
  rintro _ ⟨⟩ _
  rfl

@[simp] theorem hostNarrow_half {n : RegName} (o : Nat) (h : s.hostMay n = false) : HostNarrow s (half n o) := by
  rintro _ ⟨⟩ hmay
  exact absurd hmay (ne_true_of_eq_false h)

theorem hostNarrow_dite {p : Prop} [Decidable p] {x y : Option RegRef} (hx : p → HostNarrow s x)
    (hy : ¬p → HostNarrow s y) : HostNarrow s (if p then x else y) := by
  split
  case isTrue h => exact hx h
  case isFalse h => exact hy h

theorem hostNarrow_ite {p : Prop} [Decidable p] {x y : Option RegRef} (hx : HostNarrow s x) (hy : HostNarrow s y) :
    HostNarrow s (if p then x else y) := hostNarrow_dite (fun _ => hx) (fun _ => hy)

theorem nodeReg_hostNarrow (n o : Nat) : HostNarrow s (nodeReg n o) :=
  hostNarrow_ite (hostNarrow_narrow _) <|
  hostNarrow_ite (hostNarrow_ite (hostNarrow_narrow _) hostNarrow_none) <|
  hostNarrow_ite (hostNarrow_half _ rfl) hostNarrow_none

theorem faultReg_hostNarrow (t o : Nat) : HostNarrow s (faultReg t o) :=
  hostNarrow_ite (hostNarrow_half _ rfl) <|
  hostNarrow_ite hostNarrow_none <|
  hostNarrow_ite (hostNarrow_half _ rfl) <|
  hostNarrow_ite (hostNarrow_half _ rfl) (hostNarrow_narrow _)

theorem rowReg_hostNarrow (t e o : Nat) : HostNarrow s (rowReg t e o) :=
  hostNarrow_ite hostNarrow_none <|
  hostNarrow_ite (hostNarrow_narrow _) <|
  hostNarrow_ite hostNarrow_none (hostNarrow_half _ rfl)

theorem hallFixed_hostNarrow (o : Nat) : HostNarrow s (hallFixed o) := by
  fun_cases hallFixed o
  all_goals simp [State.hostMay, RegName.debug]

theorem hallReg_hostNarrow (o : Nat) : HostNarrow s (hallReg o) :=
  hostNarrow_ite (nodeReg_hostNarrow _ _) <|
  hostNarrow_ite (hostNarrow_ite (hostNarrow_narrow _) hostNarrow_none) <|
  hostNarrow_ite (rowReg_hostNarrow _ _ _) <|
  hostNarrow_ite (hostNarrow_narrow _) <|
  hostNarrow_ite (hostNarrow_half _ rfl) <|
  hostNarrow_ite (hostNarrow_ite (hostNarrow_narrow _) <| hostNarrow_ite (hostNarrow_narrow _) <|
    hostNarrow_ite (hostNarrow_narrow _) hostNarrow_none) <|
  hostNarrow_ite (hostNarrow_half _ rfl) <|
  hostNarrow_ite (hostNarrow_narrow _) <|
  hostNarrow_ite (hostNarrow_narrow _) <|
  hostNarrow_ite (faultReg_hostNarrow _ _) <|
  hostNarrow_ite (nodeReg_hostNarrow _ _) <|
  hostNarrow_ite (hostNarrow_narrow _) <|
  hostNarrow_ite (hostNarrow_narrow _) (hallFixed_hostNarrow o)

theorem clReg_hostNarrow (cl o : Nat) : HostNarrow s (clReg cl o) :=
  hostNarrow_ite (hostNarrow_narrow _) <|
  hostNarrow_ite (hostNarrow_narrow _) <|
  hostNarrow_ite (nodeReg_hostNarrow _ _) <|
  hostNarrow_ite (hostNarrow_narrow _) <|
  hostNarrow_ite (hostNarrow_narrow _) <|
  hostNarrow_ite (hostNarrow_narrow _) <|
  hostNarrow_ite (hostNarrow_narrow _) hostNarrow_none

/-- A core's map outside the counters, the ranges and the comparators' addresses. -/
theorem coreReg_hostNarrow (c : Nat) {o : Nat} (hlcr : ¬((0x400 ≤ o ∧ o < 0x800) ∧ o % 0x40 < 0x28))
    (hrng : ¬(0x300 ≤ o ∧ o < 0x400)) (hcmp : ¬((0x110 ≤ o ∧ o < 0x190) ∧ o % 0x10 < 8)) :
    HostNarrow s (coreReg c o) :=
  hostNarrow_dite (fun h => hostNarrow_dite (fun hx => absurd ⟨h, hx⟩ hlcr) fun _ => hostNarrow_none) fun _ =>
  hostNarrow_dite (fun h => absurd h hrng) fun _ =>
  hostNarrow_dite (fun h => hostNarrow_dite (fun hx => absurd ⟨h, hx⟩ hcmp) fun _ =>
    hostNarrow_ite (hostNarrow_narrow _) hostNarrow_none) fun _ => by
  split
  case h_4 | h_5 | h_6 | h_7 => exact hostNarrow_half _ rfl
  case h_10 => exact hostNarrow_none
  all_goals exact hostNarrow_narrow _

end

/-- The words of a core's map that hold the halves of the range counters (R351). -/
theorem coreReg_lcr (c : Nat) {o : Nat} (ho : 0x400 ≤ o ∧ o < 0x800) (hx : o % 0x40 < 0x28) :
    coreReg c o = half (.lcr c ((o - 0x400) / 0x40) (o % 0x40 / 8)) (o % 8) := by
  simp only [coreReg, ho, hx, and_self, if_true]

theorem coreReg_rngBase (c : Nat) {o : Nat} (ho : 0x300 ≤ o ∧ o < 0x400) (hx : o % 0x10 < 8) :
    coreReg c o = half (.rngBase c ((o - 0x300) / 0x10)) (o % 8) := by
  have hlcr : ¬0x400 ≤ o := by omega
  simp only [coreReg, hlcr, ho, hx, false_and, and_self, if_true, if_false]

theorem coreReg_rngLim (c : Nat) {o : Nat} (ho : 0x300 ≤ o ∧ o < 0x400) (hx : ¬o % 0x10 < 8) :
    coreReg c o = half (.rngLim c ((o - 0x300) / 0x10)) (o % 8) := by
  have hlcr : ¬0x400 ≤ o := by omega
  simp only [coreReg, hlcr, ho, hx, false_and, and_self, if_true, if_false]

theorem coreReg_cmpAddr (c : Nat) {o : Nat} (ho : 0x110 ≤ o ∧ o < 0x190) (hx : o % 0x10 < 8) :
    coreReg c o = half (.cmpAddr c ((o - 0x110) / 0x10)) (o % 8) := by
  have hlcr : ¬0x400 ≤ o := by omega
  have hrng : ¬0x300 ≤ o := by omega
  simp only [coreReg, hlcr, hrng, ho, hx, false_and, and_self, if_true, if_false]

/-- An aligned offset that gives a low half begins its register, and four bytes on lies the high half. -/
theorem half_next {n : RegName} {o : Nat} {r : RegRef} (h : half n (o % 8) = some r) (ho : o % 4 = 0)
    (hlow : r.high = false) : r.name = n ∧ o % 8 = 0 ∧ half n ((o + 4) % 8) = some ⟨r.name, true, true⟩ := by
  cases h
  have hne : o % 8 ≠ 4 := by simpa using hlow
  have h8 : o % 8 = 0 := by omega
  have h4 : (o + 4) % 8 = 4 := by omega
  exact ⟨rfl, h8, by rw [h4]; rfl⟩

/-- In a core's map, the high half of a 64-bit register that a host may write follows its low half. -/
theorem coreReg_high {s : State} {c o : Nat} {r : RegRef} (ho : o % 4 = 0) (h : coreReg c o = some r)
    (hw : r.wide = true) (hlow : r.high = false) (hmay : s.hostMay r.name = true) :
    r.name.Debug64 ∧ o < 0x800 ∧ coreReg c (o + 4) = some ⟨r.name, true, true⟩ := by
  by_cases hlcr : (0x400 ≤ o ∧ o < 0x800) ∧ o % 0x40 < 0x28
  · rw [coreReg_lcr c hlcr.1 hlcr.2] at h
    obtain ⟨hn, h8, hhigh⟩ := half_next h ho hlow
    have hr : (o + 4 - 0x400) / 0x40 = (o - 0x400) / 0x40 := by omega
    have hk : (o + 4) % 0x40 / 8 = o % 0x40 / 8 := by omega
    refine ⟨⟨_, _, .inr (.inr (.inr ⟨_, hn⟩))⟩, by omega, ?_⟩
    rw [coreReg_lcr c (by omega) (by omega), hr, hk, hhigh]
  by_cases hrng : 0x300 ≤ o ∧ o < 0x400
  · have hr (h8 : o % 8 = 0) : (o + 4 - 0x300) / 0x10 = (o - 0x300) / 0x10 := by omega
    by_cases hx : o % 0x10 < 8
    · rw [coreReg_rngBase c hrng hx] at h
      obtain ⟨hn, h8, hhigh⟩ := half_next h ho hlow
      refine ⟨⟨_, _, .inr (.inl hn)⟩, by omega, ?_⟩
      rw [coreReg_rngBase c (by omega) (by omega), hr h8, hhigh]
    · rw [coreReg_rngLim c hrng hx] at h
      obtain ⟨hn, h8, hhigh⟩ := half_next h ho hlow
      refine ⟨⟨_, _, .inr (.inr (.inl hn))⟩, by omega, ?_⟩
      rw [coreReg_rngLim c (by omega) (by omega), hr h8, hhigh]
  by_cases hcmp : (0x110 ≤ o ∧ o < 0x190) ∧ o % 0x10 < 8
  · rw [coreReg_cmpAddr c hcmp.1 hcmp.2] at h
    obtain ⟨hn, h8, hhigh⟩ := half_next h ho hlow
    have hi : (o + 4 - 0x110) / 0x10 = (o - 0x110) / 0x10 := by omega
    refine ⟨⟨_, _, .inl hn⟩, by omega, ?_⟩
    rw [coreReg_cmpAddr c (by omega) (by omega), hi, hhigh]
  exact absurd hw (ne_true_of_eq_false (coreReg_hostNarrow c hlcr hrng hcmp r h hmay))

theorem regAt_core {off : Nat} (h : 0x2000000 ≤ off ∧ off < 0x2600000) :
    regAt off = coreReg ((off - 0x2000000) / 0x4000) (off % 0x4000) := by
  rw [regAt, if_neg (by omega), if_neg (by omega), if_pos h]

theorem regAt_hostNarrow {s : State} {off : Nat} (h : ¬(0x2000000 ≤ off ∧ off < 0x2600000)) :
    HostNarrow s (regAt off) :=
  hostNarrow_ite (hallReg_hostNarrow _) <|
  hostNarrow_ite (clReg_hostNarrow _ _) <|
  hostNarrow_dite (fun hcore => absurd hcore h) fun _ => hostNarrow_none

/-- In the window, the high half of a 64-bit register that a host may write follows its low half (R22). -/
theorem regAt_high {s : State} {off : Nat} {r : RegRef} (ho : off % 4 = 0) (h : regAt off = some r)
    (hw : r.wide = true) (hlow : r.high = false) (hmay : s.hostMay r.name = true) :
    r.name.Debug64 ∧ regAt (off + 4) = some ⟨r.name, true, true⟩ := by
  by_cases hcore : 0x2000000 ≤ off ∧ off < 0x2600000
  · rw [regAt_core hcore] at h
    obtain ⟨hn, hlt, hhigh⟩ := coreReg_high (by omega) h hw hlow hmay
    have hc : (off + 4 - 0x2000000) / 0x4000 = (off - 0x2000000) / 0x4000 := by omega
    have hx : (off + 4) % 0x4000 = off % 0x4000 + 4 := by omega
    refine ⟨hn, ?_⟩
    rw [regAt_core (by omega), hc, hx, hhigh]
  · exact absurd hw (ne_true_of_eq_false (regAt_hostNarrow hcore r h hmay))

/-! ### Writes of the permitted registers -/

theorem modSec_modDesk (s : State) (f : Desk → Desk) (g : Sec → Sec) :
    (s.modDesk f).modSec g = (s.modSec g).modDesk f := rfl

theorem modCore_modDesk (s : State) (f : Desk → Desk) (c : Nat) (g : Core → Core) :
    (s.modDesk f).modCore c g = (s.modCore c g).modDesk f := rfl

theorem modThread_modDesk (s : State) (f : Desk → Desk) (k : Nat) (g : Thread → Thread) :
    (s.modDesk f).modThread k g = (s.modThread k g).modDesk f := by
  unfold State.modThread
  rw [State.modDesk_threads]
  split <;> rfl

theorem debugResume_modDesk (s : State) (f : Desk → Desk) (c : Nat) :
    (s.modDesk f).debugResume c = (s.debugResume c).modDesk f := by
  have hthread : (s.modDesk f).namedThread c = s.namedThread c := rfl
  have hhalted : (s.modDesk f).namedHalted c = s.namedHalted c := rfl
  unfold State.debugResume
  rw [hthread, hhalted]
  split
  · split
    · exact modThread_modDesk _ _ _ _
    · rfl
  · rfl

theorem writeDbgctl_modDesk (s : State) (f : Desk → Desk) (c v : Nat) :
    (s.modDesk f).writeDbgctl c v = (s.writeDbgctl c v).modDesk f := by
  have hdbg : (s.modDesk f).dbgOn = s.dbgOn := rfl
  simp only [State.writeDbgctl, modCore_modDesk, debugResume_modDesk, hdbg]
  split <;> rfl

/-- A permitted write neither depends on the requester nor uses what requesters hold, have latched or have read. -/
theorem regWrite_modDesk {s : State} {n : RegName} (hmay : s.hostMay n = true) (f : Desk → Desk) (req req' v : Nat) :
    (s.modDesk f).regWrite req n v = (s.regWrite req' n v).modDesk f := by
  cases n with
  | pwrlim => simp only [State.regWrite, State.writeLimit, modSec_modDesk]
  | rdgrant | classpol | dbgsel | cmpAddr | cmpCtl | rngBase | rngLim | lcr =>
    simp only [State.regWrite, modCore_modDesk]
  | dbgctl c => exact writeDbgctl_modDesk s f c v
  | _ => exact absurd hmay (by simp [State.hostMay, RegName.debug])

/-- The bits that a 64-bit debug register keeps: 48 in a range counter (R351). -/
def RegName.modulus : RegName → Nat
  | .lcr _ _ _ => 2 ^ 48
  | _ => 2 ^ 64

theorem regValue_regWrite {n : RegName} (h : n.Debug64) (s : State) (req v : Nat) :
    (s.regWrite req n v).regValue n = v % n.modulus := by
  obtain ⟨c, i, rfl | rfl | rfl | ⟨k, rfl⟩⟩ := h <;>
    simp [State.regWrite, State.regValue, RegName.modulus]

/-- What requesters hold, have latched or have read shows in no register. -/
theorem regValue_modDesk (s : State) (f : Desk → Desk) (n : RegName) : (s.modDesk f).regValue n = s.regValue n := by
  cases n <;> rfl

/-! ### The halves of a register (R7) -/

theorem applyWrite_narrow (s : State) (req off : Nat) {r : RegRef} (val : Word32) (h : r.wide = false) :
    s.applyWrite req off r val = (s.discard req (r.base off)).regWrite req r.name val.toNat := by
  simp [State.applyWrite, h]

/-- A permitted write of a 32-bit register differs between requesters only in the halves that it discards. -/
theorem applyWrite_requester {s : State} {r : RegRef} (h : r.wide = false) (hmay : s.hostMay r.name = true)
    (req req' off : Nat) (val : Word32) : s.applyWrite req off r val =
      { s.applyWrite req' off r val with desk := (s.applyWrite req off r val).desk } := by
  rw [applyWrite_narrow s req off val h, applyWrite_narrow s req' off val h, State.discard, State.discard,
    regWrite_modDesk hmay _ req req', regWrite_modDesk hmay _ req' req']
  rfl

/-- The requester holds a word of the register at this offset, and of no other. -/
def State.hold (s : State) (req off : Nat) (w : Word32) : State :=
  (s.discard req off).modDesk (fun d => { d with heldLow := d.heldLow.set req (off, w) })

theorem applyWrite_low (s : State) (req off : Nat) {r : RegRef} (val : Word32) (hw : r.wide = true)
    (hlow : r.high = false) : s.applyWrite req off r val = s.hold req off val := by
  simp [State.applyWrite, State.hold, RegRef.base, hw, hlow]

theorem regValue_hold (s : State) (req off : Nat) (w : Word32) (n : RegName) :
    (s.hold req off w).regValue n = s.regValue n :=
  (regValue_modDesk _ _ n).trans (regValue_modDesk s _ n)

/-- The high half goes with the held low half to the register. -/
theorem regValue_applyWrite_high {n : RegName} (hn : n.Debug64) (s : State) (req off : Nat) (lo hi : Word32) :
    ((s.hold req off lo).applyWrite req (off + 4) ⟨n, true, true⟩ hi).regValue n =
      (2 ^ 32 * hi.toNat + lo.toNat) % n.modulus := by
  have hheld : ((s.hold req off lo).discard req off).desk.heldLow.find req = some (off, lo) := by
    simp [State.hold, State.discard, dropOther]
  simp only [State.applyWrite, RegRef.base, Nat.add_sub_cancel, hheld, Bool.not_true, Bool.false_eq_true, if_true,
    if_false]
  exact regValue_regWrite hn _ _ _

/-! ### Host writes through BAR2 -/

theorem exec_registerWrite_host (off size : Nat) (val : Word32) (s : State) :
    exec (.registerWrite reqHost off size val) s = exec (.hostRegisterWrite off size val) s := rfl

section
variable {s : State} {off : Nat} {r : RegRef} (ho : off % 4 = 0) (hr : regAt off = some r)
include ho hr

theorem exec_registerWrite_parlour (val : Word32) :
    exec (.registerWrite reqParlour off 4 val) s = .next (s.applyWrite reqParlour off r val) := by
  simp [exec, execRegisterWrite, State.writeReg, State.reaches, reqParlour, reqHost, reqDebug, ho, hr]

theorem exec_hostRegisterWrite_permitted (hb : s.sec.bridge = true) (hmay : s.hostMay r.name = true) (val : Word32) :
    exec (.hostRegisterWrite off 4 val) s = .next (s.applyWrite reqHost off r val) := by
  simp [exec, execHostRegisterWrite, State.hostWrite, hb, ho, hr, hmay]

theorem exec_hostRegisterWrite_refused (hb : s.sec.bridge = true) (hmay : ¬s.hostMay r.name = true) (val : Word32) :
    exec (.hostRegisterWrite off 4 val) s = .next (s.log (.hostRefused off)) := by
  simp [exec, execHostRegisterWrite, State.hostWrite, hb, ho, hr, hmay]

end

/-- Settles O52: the permitted registers are those of `State.hostMay` (`hostMay_iff`); a permitted write works alike for
the host and for the Parlour (`applyWrite_requester`), and of two halves the second takes the first with it. -/
theorem hostRegisterWrites : Obligations.HostRegisterWrites := by
  intro s off r hb ho hr may
  have hmay : s.hostMay r.name = true ↔ may := hostMay_iff s r.name
  refine ⟨fun h hnarrow val => ?narrow, fun h hw hlow lo hi => ?wide, fun h val => ?refused⟩
  case narrow =>
    have hexec := exec_hostRegisterWrite_permitted ho hr hb (hmay.mpr h) val
    exact ⟨_, _, hexec, (exec_registerWrite_host off 4 val s).trans hexec, exec_registerWrite_parlour ho hr val,
      applyWrite_requester hnarrow (hmay.mpr h) reqHost reqParlour off val⟩
  case wide =>
    obtain ⟨hdebug, hr'⟩ := regAt_high ho hr hw hlow (hmay.mpr h)
    have hfirst := exec_hostRegisterWrite_permitted ho hr hb (hmay.mpr h) lo
    rw [applyWrite_low s reqHost off lo hw hlow] at hfirst
    exact ⟨_, _, hfirst, regValue_hold s reqHost off lo,
      exec_hostRegisterWrite_permitted (s := s.hold reqHost off lo) (by omega) hr' hb (hmay.mpr h) hi,
      regValue_applyWrite_high hdebug s reqHost off lo hi⟩
  case refused =>
    have hexec := exec_hostRegisterWrite_refused ho hr hb (mt hmay.mp h) val
    exact ⟨_, hexec, (exec_registerWrite_host off 4 val s).trans hexec, log_logged s _⟩

end Sys2Proof.Machine
end
